-- ==== Sys2Proof/Word.lean ====
section
/-! DEFINITION. The widths in which the deck link carries its fields (R209), and the names of the readings that
commands bring from the connections. -/

namespace Sys2Proof

/-- One byte of a frame. -/
abbrev Byte := BitVec 8

/-- A two-byte field: a frequency, a duration (R209). -/
abbrev Word16 := BitVec 16

/-- A three-byte field: a counter value, signed (R209). -/
abbrev Word24 := BitVec 24

/-- The two reels (R29). -/
inductive Reel where
  | supply | takeUp
  deriving DecidableEq, Repr

/-- The shape of a control pulse (R19, R48). -/
inductive Shape where
  | narrow | wide
  deriving DecidableEq, Repr

/-- The AFT discriminator's report of the carrier against the tuned frequency (R99). -/
inductive Discriminator where
  | low | centred | high
  deriving DecidableEq, Repr

/-- What the mechanism position switches read (R8 to R13, R26, R27). -/
inductive Position where
  | out | betweenOutAndLoaded | loaded | betweenLoadedAndThreaded | threaded
  deriving DecidableEq, Repr

/-- The two leader sensors (R22). -/
inductive Leader where
  | startLeader | endLeader
  deriving DecidableEq, Repr

/-- What the supply monitor reports (R190). -/
inductive Supply where
  | normal | low
  deriving DecidableEq, Repr

/-- The switches of the mechanism as they are read together: position, cassette-in, record tab (R26, R27). -/
structure Switches where
  position   : Position
  cassetteIn : Bool
  recordTab  : Bool
  deriving DecidableEq, Repr

/-- The two leader sensors as they are read together: true is leader (R22). -/
structure Leaders where
  atStart : Bool
  atEnd   : Bool
  deriving DecidableEq, Repr

/-- A date and time to the second as the link carries it (R209): the year less 1980, month, day, hour, minute, second. -/
structure StampBytes where
  year   : Byte
  month  : Byte
  day    : Byte
  hour   : Byte
  minute : Byte
  second : Byte
  deriving DecidableEq, Repr

/-- A segment as the link carries it (R207): start and end, three bytes each, 0x800000 as the end being NEXT_MARK. -/
structure SegmentWord where
  start : Word24
  stop  : Word24
  deriving DecidableEq, Repr

end Sys2Proof
end

