-- ==== Sys2Proof/Syntax.lean ====
section
/-! DEFINITION. The commands the part takes: one constructor for each row of spec/opcode_table.json. A request's operands are
the payload fields of R200, raw, as the link carries them; an event's operands are what the part reads at that event
(log 6). -/

namespace Sys2Proof

/-- A command: a request frame that the host sends, or an event at the part's connections or timers. -/
inductive Instr where
  /-- IDENT (R205). Request that returns the vendor code, the part number and the mask revision. -/
  | ident
  /-- NOTE_FLOW (R204). Request that sets the note flow (paused or enabled) and the TAPE report period. -/
  | noteFlow (flow period : Byte)
  /-- DECK_RESET (R206). Request that empties the input queue, the reply list, the outbox and the assembly buffer, replies ACCEPTED, and then has every unit return the deck toward a quiet STOP. -/
  | deckReset
  /-- POWER_STANDBY (R191). POWER request naming STANDBY; it is checked against active programs and transitions, and it begins STOPPING or abandons a wake. -/
  | powerStandby
  /-- POWER_OPERATE (R191). POWER request naming OPERATE; it begins WAKING or abandons STOPPING. -/
  | powerOperate
  /-- SYSTEM_SET (R205). Request that writes the frame system, the auto-rewind setting and the default mark code. -/
  | systemSet (frameSystem autoRewind markPresent markCode : Byte)
  /-- CLOCK_SET (R133). Request that sets the calendar time, zeroes the second phase, makes the clock SET and hands a SET clock jump to the scheduler. -/
  | clockSet (stamp : StampBytes)
  /-- CLOCK_READ (R134). Request that returns the clock record. -/
  | clockRead
  /-- CLOCK_SOURCE (R132). Request that sets the clock source setting to AUTO or CRYSTAL and recomputes the source in use. -/
  | clockSource (setting : Byte)
  /-- MOTION (R5). Operator request for a transport target mode, taken under the OPERATOR MECHANISM claim. -/
  | motion (target : Byte)
  /-- REC_SPEED (R17). Request that sets the record-speed setting. -/
  | recSpeed (speed : Byte)
  /-- EJECT (R11). Request that sets the target EMPTY, or starts a FAULT recovery. -/
  | eject
  /-- COUNTER_ZERO (R44). Request that sets the tape counter to 0 with quality EXACT. -/
  | counterZero
  /-- TAPE_READ (R40). Request that returns the tape status record. -/
  | tapeRead
  /-- CLASS_SET (R35). Request that declares the cassette class or sets it to unknown. -/
  | classSet (cls : Byte)
  /-- MARK_NOW (R52). Request that starts the mark writer on a given code during RECORD. -/
  | markNow (code : Byte)
  /-- GOTO_COUNTER (R66). GOTO request of the counter form; it starts a go-to toward a counter target, by wind or by search. -/
  | gotoCounter (finalAction : Byte) (target : Word24)
  /-- GOTO_MARK_FORWARD (R69). GOTO request of the mark form, direction FORWARD; it counts matching coded marks in SEARCH_FWD. -/
  | gotoMarkForward (finalAction count filterPresent filterCode filterMask : Byte)
  /-- GOTO_MARK_BACKWARD (R70). GOTO request of the mark form, direction BACKWARD; it counts marks in WIND_REV and then returns forward. -/
  | gotoMarkBackward (finalAction count filterPresent filterCode filterMask : Byte)
  /-- GOTO_CANCEL (R73). Request that ends a go-to in flight CANCELLED. -/
  | gotoCancel
  /-- WATCH_SET (R75). Request that writes a watch entry into a place. The fields are watch entry bytes 2 to 11 (R211): `choice` is the direction filter or the mark match, `again` the repeat flag. -/
  | watchSet (place kind : Byte) (value : Word24) (choice code mask action again setCount : Byte)
  /-- WATCH_CLEAR (R75). Request that empties a watch place. -/
  | watchClear (place : Byte)
  /-- WATCH_READ (R75). Request that returns a watch place's entry. -/
  | watchRead (place : Byte)
  /-- RUN_LOAD (R207). Request frame carrying part or all of a segment list; it is assembled by the port and handed to the navigation unit once complete. -/
  | runLoad (endAction total first : Byte) (segments : List SegmentWord)
  /-- RUN_START (R82). Request that starts a segment run from segment 1 under the OPERATOR MECHANISM claim. -/
  | runStart
  /-- RUN_STOP (R85). Request that ends an active run STOPPED. -/
  | runStop
  /-- RUN_READ (R207). Request that returns the run record and up to 8 segments. -/
  | runRead (first : Byte)
  /-- MARK_LIST (R60). Request that returns up to ten mark history records from an index. -/
  | markList (first : Byte)
  /-- TUNE_PRESET (R94). TUNE request of the preset form; it tunes a preset or the line input under the OPERATOR TUNER claim. -/
  | tunePreset (preset : Byte)
  /-- TUNE_STEP_UP (R98). TUNE request of the STEP_UP form; it tunes the next eligible preset upward. -/
  | tuneStepUp
  /-- TUNE_STEP_DOWN (R98). TUNE request of the STEP_DOWN form; it tunes the next eligible preset downward. -/
  | tuneStepDown
  /-- TUNE_DIRECT (R94). TUNE request of the direct form; it tunes a direct frequency. -/
  | tuneDirect (frequency : Word16)
  /-- TUNER_READ (R101). Request that returns the working tuning and the signal strength, and clears the signal-loss latch. -/
  | tunerRead
  /-- PRESET_WRITE (R90). Request that writes a whole used preset record, possibly retuning or staling the working copy. -/
  | presetWrite (preset : Byte) (frequency : Word16) (fineTune flags labelLength c1 c2 c3 c4 c5 c6 : Byte)
  /-- PRESET_READ (R92). Request that returns a preset and its reference count. -/
  | presetRead (preset : Byte)
  /-- PRESET_CLEAR (R91). Request that empties an unreferenced preset. -/
  | presetClear (preset : Byte)
  /-- SCAN_START_FRESH (R112). SCAN_START of the form FRESH; it empties the found list and scans from 900. -/
  | scanStartFresh
  /-- SCAN_START_RESUME (R112). SCAN_START of the form RESUME; it scans from the resume point and keeps the found list. -/
  | scanStartResume
  /-- SCAN_STOP (R118). Request that ends a scan in flight STOPPED. -/
  | scanStop
  /-- SCAN_READ (R119). Request that returns the scan record and up to 12 found-list entries. -/
  | scanRead (first : Byte)
  /-- SCAN_ADOPT_REPLACE (R120). SCAN_ADOPT in REPLACE mode; it writes found entries into empty or unlocked, unreferenced presets from p upward. -/
  | scanAdoptReplace (first : Byte)
  /-- SCAN_ADOPT_APPEND (R120). SCAN_ADOPT in APPEND mode; it writes found entries into empty presets from p upward. -/
  | scanAdoptAppend (first : Byte)
  /-- OUTPUT_SELECT (R106). Request that sets the output setting and moves the video output switch. -/
  | outputSelect (setting : Byte)
  /-- PROG_WRITE (R143). Request that writes a program into a slot and places it ARMED, CUEING or DEFERRED. The fields are program record bytes 0 and 2 to 15 (R210). -/
  | progWrite (slot year month day hour minute : Byte) (duration : Word16)
      (preset speedMode pattern priority endAction markPresent markCode : Byte)
  /-- PROG_READ (R147). Request that returns a slot's program record with its window end and window left. -/
  | progRead (slot : Byte)
  /-- PROG_CLEAR (R146). Request that empties an ARMED or DONE slot. -/
  | progClear (slot : Byte)
  /-- PROG_ABORT (R178). Request that ends a program's current occurrence with cause ABORTED. -/
  | progAbort (slot : Byte)
  /-- PROG_ORDER (R149). Request that returns the active program and a part of the pending list or of the deferred set. -/
  | progOrder (part first : Byte)
  /-- BAD_CHECK (R199). Dispatch of a queued frame whose check failed; it is answered with a link-error reply. `body` is the body of the frame whose check is bad. -/
  | badCheck (body : List Byte)
  /-- BAD_KIND (R199). Dispatch of a queued frame with an unknown request code; it is answered with a link-error reply. -/
  | badKind (kind : Byte) (payload : List Byte)
  /-- BAD_LENGTH (R199). Dispatch of a queued frame whose payload length is wrong for its kind; it is answered with a link-error reply. -/
  | badLength (kind : Byte) (payload : List Byte)
  /-- BYTE_RECEIVED (R197). A byte arrives on the deck link receive line and advances the receive state machine; a byte with a missing stop bit abandons the frame. -/
  | byteReceived (byte : Byte) (stopBit : Bool)
  /-- RECEIVE_GAP_TIMEOUT (R197). More than 20 ms passes between bytes of a frame, and the frame is abandoned. -/
  | receiveGapTimeout
  /-- TRANSMIT_END (R202). The frame on the transmit line ends, and the next reply or note is chosen, which may allow the next dispatch. -/
  | transmitEnd
  /-- CASSETTE_INSERT (R8). The cassette-in switch closes in EMPTY, and LOADING begins. -/
  | cassetteInsert
  /-- LOADING_COMPLETE (R8). The position switches report the loaded position, the tab is read and STOP is entered. `recordTab` is the record-tab switch. -/
  | loadingComplete (recordTab : Bool)
  /-- THREADING_COMPLETE (R9). The threaded position is reported, and a servo change toward the target begins, or unthreading follows. -/
  | threadingComplete
  /-- UNTHREADING_COMPLETE (R10). The unthreaded position is reported, STOP is entered and the path continues. -/
  | unthreadingComplete
  /-- EJECT_COMPLETE (R11). The out position is reported, EMPTY is entered and eject is signalled. `cassetteIn` is the cassette-in switch as the out position is reported. -/
  | ejectComplete (cassetteIn : Bool)
  /-- MECH_TIMEOUT (R12). A mechanical step is not confirmed within 4.0 s, and the transport enters FAULT under PROTECT. `position` is what the position switches read at the expiry. -/
  | mechTimeout (position : Position)
  /-- SERVO_LOCK (R14). The servo condition of the target mode is met, and the servo change completes. `leaders` are the leader sensors as the lock comes. -/
  | servoLock (leaders : Leaders)
  /-- SERVO_TIMEOUT (R14). A servo change or a lost lock is not locked within 1.0 s, and a SERVO protection stop begins. -/
  | servoTimeout
  /-- SERVO_LOCK_LOST (R14). The drum or capstan loses lock in a settled threaded mode, and the 1.0 s supervision starts. -/
  | servoLockLost
  /-- SYNC_DETECTOR_CHANGE (R15). The sync detector's report changes; the drum changes its reference and the tuner's lock condition is affected. -/
  | syncDetectorChange (present : Bool)
  /-- SPEED_DETECT_WINDOW_END (R18). The 1 s recorded-speed detection window in PLAY closes and may change the play speed class. -/
  | speedDetectWindowEnd
  /-- CONTROL_PULSE_WRITE (R19). One control pulse per frame is written in RECORD, shaped by the mark writer and counted. -/
  | controlPulseWrite
  /-- CONTROL_PULSE_READ (R19). A control pulse is read in a threaded motion and passed, with its shape and direction, to the tape position and cue mark units. -/
  | controlPulseRead (shape : Shape)
  /-- DEW_SENSOR_CHANGE (R21). The dew sensor reports dew or dry; dew sets the flag and may begin a DEW protection stop. -/
  | dewSensorChange (dew : Bool)
  /-- DEW_DRY_TIMEOUT (R21). The dew sensor has reported dry for 60 s, and the dew flag is cleared. -/
  | dewDryTimeout
  /-- LEADER_SEEN (R22). A leader sensor reports leader in a threaded motion of the matching direction, and a LEADER_END or LEADER_START stop begins. -/
  | leaderSeen (leader : Leader)
  /-- REEL_STALL (R23). 8 s pass without a take-up reel pulse in a capstan motion, and a STALL protection stop begins. -/
  | reelStall
  /-- TIGHT_END (R23). 2 s pass without a reel pulse in a wind mode, and a TIGHT_END protection stop begins. -/
  | tightEnd
  /-- PAUSE_LIMIT (R24). 300 s continuously in STILL or REC_PAUSE, and a PAUSE_LIMIT protection stop begins. -/
  | pauseLimit
  /-- REEL_PULSE (R30). A reel pulse ends an interval and may refresh that reel's period. `interval` is the number of reel ticks since the previous accepted pulse of the reel. -/
  | reelPulse (reel : Reel) (interval : Nat)
  /-- REEL_PERIOD_STALL (R32). No pulse from a reel for 30 s, and that reel's period becomes STALLED. -/
  | reelPeriodStall (reel : Reel)
  /-- TAPE_REPORT_TIMER (R41). The TAPE report period expires in a threaded motion, and a TAPE note is posted. -/
  | tapeReportTimer
  /-- DECODER_GAP (R56). 10 frame periods pass with no pulse read, and the decoder acts on the gap. -/
  | decoderGap
  /-- GOTO_NO_TRACK (R71). A go-to's untracked time reaches 10 s, and it ends NO_TRACK. -/
  | gotoNoTrack
  /-- RUN_NO_TRACK (R83). A run's track time in PLAYING reaches 10 s, and the run ends NO_TRACK. -/
  | runNoTrack
  /-- SIGNAL_STRENGTH_CHANGE (R95). The signal-strength input changes, which may make or break the tuner's lock condition. -/
  | signalStrengthChange (strength : BitVec 4)
  /-- TUNER_SETTLE_END (R95). The 100 ms synthesiser settling after a load ends, and the lock test begins. -/
  | tunerSettleEnd
  /-- TUNING_TIMEOUT (R95). The 800 ms tuning allowance expires without lock, and the tuner enters NO_SIGNAL. -/
  | tuningTimeout
  /-- AFT_READING (R99). Every 200 ms in LOCKED the discriminator is read and the AFT correction adjusted. -/
  | aftReading (reading : Discriminator)
  /-- SIGNAL_LOSS_TIMEOUT (R100). The lock condition fails for 500 ms in LOCKED, and the tuner enters NO_SIGNAL and sets the latch. -/
  | signalLossTimeout
  /-- NO_SIGNAL_RECHECK (R100). Every 500 ms in NO_SIGNAL the lock condition is re-checked. -/
  | noSignalRecheck
  /-- SCAN_DWELL_END (R113). The 60 ms dwell at a step frequency ends, and the strength is read for a find or the next step. -/
  | scanDwellEnd
  /-- PEAK_DWELL_END (R114). The 60 ms dwell at a peak-search frequency ends, and the best reading is updated or the search concluded. -/
  | peakDwellEnd
  /-- MAINS_CYCLE (R128). A mains cycle arrives and raises the window count and, under MAINS, the cycle count. -/
  | mainsCycle
  /-- SECOND_BOUNDARY (R124). The source in use completes a second, and the calendar time advances by one second. -/
  | secondBoundary
  /-- DETECTION_WINDOW_CLOSE (R130). A one-second detection window closes, and its class updates the mains reading. -/
  | detectionWindowClose
  /-- WAKE_COMPLETE (R193). 3 s after WAKING began, the part becomes OPERATING and powers the drum, the capstan and the tuner. -/
  | wakeComplete
  /-- SUPPLY_MONITOR_CHANGE (R194). The supply monitor reports NORMAL or LOW; LOW causes mains loss. -/
  | supplyMonitorChange (level : Supply)
  /-- MAINS_LOSS (R194). The mains gap reaches the loss limit, and the part enters BACKUP. -/
  | mainsLoss
  /-- MAINS_RESTORE (R195). The qualification time reaches 2 s in BACKUP, and the part enters STANDBY with its units rebuilt. `switches` is the reading of the mechanism at the restore. -/
  | mainsRestore (switches : Switches)
  /-- COLD_START (R196). Power is applied without a kept backup domain, and every unit takes its cold start values. `level`, `switches` and `dew` are what the part reads as power comes. -/
  | coldStart (level : Supply) (switches : Switches) (dew : Bool)
  /-- BACKUP_SUPPLY_FAIL (R194). The backup supply fails while the part is in BACKUP, and the backup domain is lost so that the next application of power is a cold start. -/
  | backupSupplyFail
  /-- QUALIFICATION_GAP (R195). In BACKUP a gap of 60 ms with no mains cycle returns the qualification time to 0. -/
  | qualificationGap
  deriving DecidableEq, Repr

end Sys2Proof
end

