-- ==== Sys2Proof/Config.lean ====
section
/-! DEFINITION. What this part fixes (IDENT, the limits of the timers) and the values the manual leaves open. -/

namespace Sys2Proof.Config

/-- Units of time in one second: the least common base of the crystal tick (375 units), the reel tick (6,144 units), the
millisecond (12,288 units) and the frame period at 25 and 30 frames per second. DESIGN CHOICE, safe (log 1). -/
def unitsPerSecond : Nat := 12288000

/-- One crystal tick, 1/32,768 s (R123). -/
def crystalTick : Nat := 375

/-- One reel tick, 0.5 ms (R1). -/
def reelTick : Nat := 6144

/-- One millisecond. -/
def millisecond : Nat := 12288

/-- Crystal ticks in a second (R128, R129). -/
def ticksPerSecond : Nat := 32768

/-- Vendor code, part number and mask revision of IDENT (R205). -/
def vendorCode : Nat := 0x2E61
def partNumber : Nat := 4620
def maskRevision : Nat := 2

/-- The tuning range in tuning units (R1). -/
def lowestFrequency : Nat := 900
def highestFrequency : Nat := 17200

/-- One past the last second of the calendar, 2079-12-31 23:59:59, counted from 1980-01-01 00:00:00 (R1, R124). -/
def calendarSeconds : Nat := 3155760000

/-- FREE VALUE: the position recorded for a mark that was cut before its first preamble pulse was written (R53, R58 give none),
from the counter at the cut. The model holds it to the counter's range (log 17). -/
opaque unwrittenMarkPosition : Int → Int

/-- FREE VALUE: the direct frequency that a selected preset leaves behind when it is cleared while no tuning has been made since a
mains restore (R91 takes it from a tuned frequency that R108 does not give), from the preset's number. The model holds it to the
tuning range (log 16). -/
opaque untunedDirectFrequency : Nat → Nat

end Sys2Proof.Config
end

