-- ==== Sys2Proof/Machine/State.lean ====
section
/-! DEFINITION. The state of the 4620: what its eleven units hold, what its connections last reported, and the queue of
commands that wait. Times are in units of `Config.unitsPerSecond`; calendar times are counted from 1980-01-01 00:00:00. -/

namespace Sys2Proof.Machine

/-! ### Transport controller (01_cassette_transport.md) -/

/-- The fifteen modes, in the order of R3. -/
inductive Mode where
  | empty | loading | ejecting | stop | threading | unthreading | still | recPause | play | record
  | searchFwd | searchRev | windFwd | windRev | fault
  deriving DecidableEq, Repr

/-- A tape direction (R3). -/
inductive Direction where
  | forward | reverse
  deriving DecidableEq, Repr

/-- A speed class σ (R1). -/
inductive Speed where
  | standard | long | extended
  deriving DecidableEq, Repr

/-- The mechanical steps (R2, R12). -/
inductive MechStep where
  | loading | ejecting | threading | unthreading
  deriving DecidableEq, Repr

/-- A change in flight (R2): a mechanical step, or a servo change toward a threaded mode. -/
inductive Change where
  | mech (step : MechStep)
  | servo (toward : Mode)
  deriving DecidableEq, Repr

/-- The causes of a protection stop, in the order of R2. -/
inductive StopCause where
  | dew | leaderEnd | leaderStart | stall | tightEnd | pauseLimit | servo
  deriving DecidableEq, Repr

/-- Who gave the RECORD target, with what the scheduler's target carries (R17, R50). -/
inductive RecordOrder where
  | operator
  | timer (speed : Speed) (mark : Option Byte)
  deriving DecidableEq, Repr

/-- What an unthreading in flight does when STOP is reached: nothing, read the tab (R27), or read the tab and signal a cassette
load (R26). -/
inductive UnthreadEnd where
  | plain | readTab | load
  deriving DecidableEq, Repr

/-- The recorded-speed detection window (R18). -/
structure DetectWindow where
  start : Nat
  count : Nat
  deriving DecidableEq, Repr

/-- The transport record of R2 and what the controller keeps to work by it. -/
structure Transport where
  mode            : Mode
  target          : Option Mode
  change          : Option Change
  recordSpeed     : Speed
  recordClass     : Option Speed
  playSpeed       : Speed
  cassettePresent : Bool
  recordTab       : Bool
  dew             : Bool
  stopCause       : Option StopCause
  faultCause      : Option MechStep
  /-- Who gave the RECORD target held or in force (R17, R50). -/
  recordOrder     : RecordOrder
  /-- A recovery from FAULT is in flight (R13). -/
  recovering      : Bool
  unthreadEnd     : UnthreadEnd
  /-- A LEADER_END stop is on its way to its first STOP (R22). -/
  rewindDue       : Bool
  /-- A leader has been seen since the mode was reached (R23). -/
  leaderSeen      : Bool
  /-- The capstan relocks after a recorded-speed change (R18, R33). -/
  relockPending   : Bool
  /-- Start of the mechanical step in flight (R12). -/
  stepStart       : Nat
  /-- Start of the servo change, or of its latest redirection (R14). -/
  servoStart      : Nat
  /-- When lock was lost in a settled threaded mode (R14). -/
  lockLostAt      : Option Nat
  modeReachedAt   : Nat
  lastTakeUpPulse : Nat
  lastReelPulse   : Nat
  /-- Since when the dew sensor has reported dry with the flag set (R21). -/
  drySince        : Option Nat
  detect          : Option DetectWindow
  /-- The last control pulse read in PLAY, or the reaching of PLAY (R18). -/
  lastPlayPulse   : Nat
  /-- A DECK_RESET sequence is in flight (R28, R189). -/
  resetInFlight   : Bool
  /-- The two facts kept through BACKUP (R27). -/
  keptThreaded    : Bool
  keptCassette    : Bool
  deriving DecidableEq, Repr

/-! ### Tape position unit (02_tape_position_and_remaining_tape.md) -/

/-- The period states, in the order of R31. -/
inductive PeriodState where
  | collecting | valid | slow | stalled
  deriving DecidableEq, Repr

/-- The cassette classes of R34. -/
inductive CassetteClass where
  | c30 | c60 | c90 | c120 | c150 | c180
  deriving DecidableEq, Repr

/-- The class origins, in the order of R29. -/
inductive ClassOrigin where
  | none | identified | declared
  deriving DecidableEq, Repr

/-- The counter qualities (R29). -/
inductive Quality where
  | exact | drifted
  deriving DecidableEq, Repr

/-- One reel's measurement (R29 to R32). -/
structure ReelMeter where
  /-- The most recent intervals, oldest first, at most four. -/
  intervals    : List Nat
  period       : Nat
  state        : PeriodState
  /-- A pulse has been accepted since the list was emptied, so an interval is open. -/
  opened       : Bool
  lastAccepted : Nat
  deriving DecidableEq, Repr

/-- The position record of R29. -/
structure TapePosition where
  supply         : ReelMeter
  takeUp         : ReelMeter
  cls            : Option CassetteClass
  origin         : ClassOrigin
  candidate      : Option CassetteClass
  idCount        : Nat
  lastIdent      : Option Nat
  fraction       : Option Nat
  held           : Bool
  lastEstimate   : Option Nat
  counter        : Int
  quality        : Quality
  spanStart      : Option Nat
  /-- The last posting of a TAPE note, and the TAPE report period that took effect at it (R41). -/
  lastReport     : Nat
  reportPeriod   : Nat
  deriving DecidableEq, Repr

/-! ### Cue mark unit (03_cue_marks.md) -/

/-- What a mark pass was (R59). -/
inductive MarkOrigin where
  | written | read
  deriving DecidableEq, Repr

inductive MarkKind where
  | coded (code : Byte)
  | anonymous
  | damaged
  deriving DecidableEq, Repr

/-- A mark pass record (R59). -/
structure MarkRecord where
  position  : Int
  direction : Direction
  origin    : MarkOrigin
  kind      : MarkKind
  deriving DecidableEq, Repr

/-- The mark writer in WRITING(k) (R49): the number of the next pulse, the code, and the position once pulse 1 is written. -/
structure Writing where
  next     : Nat
  code     : Byte
  position : Option Int
  deriving DecidableEq, Repr

/-- The decoder states of R54. -/
inductive DecoderState where
  | off | hunt | preamble (n : Nat) | high (n : Nat) | mid | low (n : Nat) | tail
  deriving DecidableEq, Repr

/-- The decoder record of R54. -/
structure Decoder where
  state     : DecoderState
  direction : Direction
  /-- The boundary is OPEN. -/
  boundary  : Bool
  bits      : List Bool
  candidate : Option Int
  gapStart  : Nat
  deriving DecidableEq, Repr

structure CueMarks where
  /-- Absent is IDLE. -/
  writer    : Option Writing
  decoder   : Decoder
  /-- Oldest first, at most sixteen. -/
  history   : List MarkRecord
  passCount : Nat
  deriving DecidableEq, Repr

/-! ### Navigation unit (04_navigation_go_to_watches_and_segment_runs.md) -/

inductive Owner where
  | host
  | run (segment : Nat)
  deriving DecidableEq, Repr

/-- A filter: a code and the mask of the bits that must agree (R64). -/
structure Filter where
  code : Byte
  mask : Byte
  deriving DecidableEq, Repr

/-- The target of a go-to (R64). -/
inductive GotoForm where
  | counter (target : Int)
  | markForward (count : Nat) (filter : Option Filter)
  | markBackward (count : Nat)
  deriving DecidableEq, Repr

/-- The final actions, in the order of R64. -/
inductive FinalAction where
  | stop | still | play
  deriving DecidableEq, Repr

inductive GotoPhase where
  | wind | search | counting | returning | landing
  deriving DecidableEq, Repr

/-- The outcomes of a go-to, in the order of R64. -/
inductive GotoOutcome where
  | done | tapeEnd | noTrack | failed | cancelled | replaced | preempted
  deriving DecidableEq, Repr

/-- The go-to record of R64. -/
structure Goto where
  active      : Bool
  owner       : Owner
  form        : GotoForm
  final       : FinalAction
  phase       : GotoPhase
  approach    : Direction
  reversals   : Nat
  counted     : Nat
  noted       : Option Int
  untracked   : Nat
  drifted     : Bool
  outcome     : Option GotoOutcome
  landed      : Option Int
  overshoot   : Option Int
  landingMark : Option MarkRecord
  deriving DecidableEq, Repr

inductive DirectionFilter where
  | forward | reverse | both
  deriving DecidableEq, Repr

/-- What a watch entry watches (R74). -/
inductive WatchKind where
  | counter (value : Int) (filter : DirectionFilter)
  | markAny
  | markCoded (filter : Filter)
  | remain (threshold : Nat)
  deriving DecidableEq, Repr

inductive Side where
  | above | below | unknown
  deriving DecidableEq, Repr

/-- The watch actions, in the order of R74. -/
inductive WatchAction where
  | note | stop | still | play
  deriving DecidableEq, Repr

/-- A live watch entry (R74). -/
structure Watch where
  kind     : WatchKind
  side     : Side
  action   : WatchAction
  setCount : Nat
  count    : Nat
  again    : Bool
  fires    : Nat
  deriving DecidableEq, Repr

inductive SegmentEnd where
  | counter (value : Int)
  | nextMark
  deriving DecidableEq, Repr

structure Segment where
  start : Int
  stop  : SegmentEnd
  deriving DecidableEq, Repr

inductive RunState where
  | idle
  | seeking (segment : Nat)
  | playing (segment : Nat)
  | ending
  | done
  deriving DecidableEq, Repr

/-- The end actions of runs (R81) and programs (R137), in their order. -/
inductive EndAction where
  | stop | rewind | eject | standby
  deriving DecidableEq, Repr

/-- The results of a run, in the order of R85. -/
inductive RunResult where
  | finished | tapeEnd | noTrack | failed | cancelled | stopped | replaced | preempted
  deriving DecidableEq, Repr

/-- The segment list and the run record (R81), with the track time of R83. -/
structure Run where
  segments  : List Segment
  state     : RunState
  endAction : Option EndAction
  result    : Option RunResult
  track     : Nat
  deriving DecidableEq, Repr

structure Navigation where
  goto    : Goto
  /-- Eight places (R74). -/
  watches : List (Option Watch)
  run     : Run
  deriving DecidableEq, Repr

/-! ### Tuner controller and scan unit (05, 06) -/

/-- A used preset (R88). The label is its character codes (R209); absent is empty. -/
structure Preset where
  frequency : Nat
  fineTune  : Int
  aft       : Bool
  skip      : Bool
  lock      : Bool
  label     : List Byte
  deriving DecidableEq, Repr

/-- What the tuner is set to receive (R93); preset 0 is the line input. -/
inductive Selection where
  | preset (n : Nat)
  | direct (frequency : Nat)
  deriving DecidableEq, Repr

/-- The tuner states, in the order of R93. -/
inductive TunerState where
  | idle | tuning | locked | noSignal
  deriving DecidableEq, Repr

inductive CopyState where
  | current | stale
  deriving DecidableEq, Repr

/-- The output settings, in the order of R93. -/
inductive OutputSetting where
  | auto | tuner | tape
  deriving DecidableEq, Repr

/-- The preset table and the working tuning (R88, R93). -/
structure Tuner where
  /-- Presets 1 to 99, in order; absent is EMPTY. -/
  presets      : List (Option Preset)
  selection    : Selection
  base         : Option Nat
  aftInUse     : Bool
  correction   : Int
  atLimit      : Bool
  state        : TunerState
  latch        : Bool
  copy         : CopyState
  output       : OutputSetting
  /-- The frequency held by the synthesiser (R96, R97). -/
  synth        : Option Nat
  tuningStart  : Nat
  /-- The 100 ms of settling are over (R95). -/
  settled      : Bool
  aftSince     : Nat
  /-- Since when the lock condition has failed in LOCKED (R100). -/
  failSince    : Option Nat
  recheckSince : Nat
  deriving DecidableEq, Repr

/-- The scan states, in the order of R110. -/
inductive ScanState where
  | idle | stepping | peakSearch
  deriving DecidableEq, Repr

/-- The scan endings, in the order of R110. -/
inductive ScanEnding where
  | complete | full | stopped | preempted | replaced
  deriving DecidableEq, Repr

inductive ScanStopper where
  | scanStop | deckReset | standby
  deriving DecidableEq, Repr

/-- The scan record (R110) and the found list (R111). -/
structure Scan where
  state      : ScanState
  step       : Option Nat
  current    : Option Nat
  /-- Lowest and highest frequency of the peak window. -/
  window     : Option (Nat × Nat)
  /-- Frequency and strength of the best reading. -/
  best       : Option (Nat × Nat)
  finds      : Nat
  resume     : Option Nat
  lastEnding : Option ScanEnding
  stoppedBy  : Option ScanStopper
  /-- Frequency and strength, in order of frequency. -/
  found      : List (Nat × Nat)
  dwellStart : Nat
  deriving DecidableEq, Repr

/-! ### Clock (07_clock_and_calendar.md) -/

inductive SourceSetting where
  | auto | crystal
  deriving DecidableEq, Repr

/-- The mains readings, in the order of R123. -/
inductive MainsReading where
  | hz50 | hz60 | out | absent
  deriving DecidableEq, Repr

inductive TimeSource where
  | mains | crystal
  deriving DecidableEq, Repr

/-- The classes of a detection window (R129). -/
inductive WindowClass where
  | hz50 | hz60 | out
  deriving DecidableEq, Repr

/-- The clock record of R123. -/
structure Clock where
  /-- Seconds since 1980-01-01 00:00:00. -/
  time          : Nat
  set           : Bool
  setting       : SourceSetting
  reading       : MainsReading
  source        : TimeSource
  /-- Time counted since the last second boundary; the crystal phase is its crystal ticks. -/
  sinceBoundary : Nat
  cycleCount    : Option Nat
  windowCount   : Nat
  /-- Start of the detection window now open; none runs in BACKUP. -/
  windowStart   : Option Nat
  previous      : Option WindowClass
  deriving DecidableEq, Repr

/-! ### Program scheduler (08, 09) -/

/-- The slot states of R139 but EMPTY. -/
inductive SlotState where
  | armed | cueing | recording | deferred | done
  deriving DecidableEq, Repr

inductive SpeedMode where
  | standard | long | extended | fit
  deriving DecidableEq, Repr

inductive Pattern where
  | once | daily | weekdays | weekly
  deriving DecidableEq, Repr

/-- The deferral causes, in the order of R137. -/
inductive DeferralCause where
  | overlap | preempted | power | dew | fault | clockSet
  deriving DecidableEq, Repr

inductive Outcome where
  | complete | truncated | missed
  deriving DecidableEq, Repr

/-- The outcome causes, in the order of R137; `tabAbsent` is PROTECTED. -/
inductive OutcomeCause where
  | noCassette | tabAbsent | dew | fault | tapeEnd | preempted | overlap | power | clockSet | aborted
  deriving DecidableEq, Repr

/-- The run record of an occurrence (R138). -/
structure RunRecord where
  recorded     : Nat
  stretches    : Nat
  signalLoss   : Nat
  firstSpeed   : Option Speed
  currentSpeed : Option Speed
  shortTape    : Bool
  deferrals    : Nat
  deriving DecidableEq, Repr

/-- A program record (R137). Starts are minutes since 1980-01-01 00:00. -/
structure Program where
  state     : SlotState
  start     : Nat
  duration  : Nat
  preset    : Nat
  speedMode : SpeedMode
  pattern   : Pattern
  priority  : Nat
  endAction : EndAction
  mark      : Option Byte
  next      : Nat
  /-- The next start was carried past the end of the calendar (R142). -/
  carried   : Bool
  deferral  : Option DeferralCause
  run       : RunRecord
  outcome   : Option Outcome
  cause     : Option OutcomeCause
  deriving DecidableEq, Repr

inductive ActivePhase where
  | preparing | starting | running | changing
  deriving DecidableEq, Repr

inductive ChangeReason where
  | fit | takeover | handOver
  deriving DecidableEq, Repr

/-- The active-program record (R160), with whether the program is a late start and whether its start point has come (R164). -/
structure Active where
  slot          : Nat
  phase         : ActivePhase
  reason        : Option ChangeReason
  speedToEnter  : Option Speed
  choicePending : Bool
  /-- Calendar time of the last FIT change. -/
  lastFit       : Option Nat
  latest        : Option DeferralCause
  mechWait      : Bool
  late          : Bool
  pointCome     : Bool
  deriving DecidableEq, Repr

structure Scheduler where
  /-- Sixteen slots (R137); absent is EMPTY. -/
  slots      : List (Option Program)
  active     : Option Active
  endAction  : Option (Nat × EndAction)
  /-- The slot of a PROG_ABORT whose STOP is in flight (R178). -/
  abortStop  : Option Nat
  /-- The TUNER claim waits for the leader stop of a REWIND to reach STOP (R177). -/
  rewindTail : Bool
  deriving DecidableEq, Repr

/-! ### Claims and power (10_claims_and_power_states.md) -/

inductive OperatorActivity where
  | direct | goTo | run
  deriving DecidableEq, Repr

inductive TimerActivity where
  | program (slot : Nat)
  | endAction (slot : Nat)
  deriving DecidableEq, Repr

inductive Protection where
  | dew | leaderEnd | leaderStart | stall | tightEnd | pauseLimit | servo | mech
  deriving DecidableEq, Repr

/-- The MECHANISM claim record (R182). -/
inductive MechClaim where
  | free
  | operator (activity : OperatorActivity)
  | timer (activity : TimerActivity)
  | protect (cause : Protection)
  deriving DecidableEq, Repr

/-- The TUNER claim record (R182). -/
inductive TunerClaim where
  | free
  | direct
  | scan
  | timer (activity : TimerActivity)
  deriving DecidableEq, Repr

inductive PowerState where
  | operating | standby | backup
  deriving DecidableEq, Repr

/-- The last changes of R190, in order; they also name the reasons of the transitions. -/
inductive PowerCause where
  | coldStart | host | run | endAction | timer | mainsLoss | restore
  deriving DecidableEq, Repr

inductive Transition where
  | none
  | waking (reason : PowerCause)
  | stopping (reason : PowerCause)
  deriving DecidableEq, Repr

/-- The power record of R190. Wake time and qualification time are kept as the times at which they began. -/
structure Power where
  state      : PowerState
  transition : Transition
  wakeStart  : Nat
  mains      : Bool
  qualSince  : Option Nat
  lastChange : PowerCause
  lastCycle  : Nat
  /-- The backup domain has not been lost by a failure of the backup supply in BACKUP (R194). -/
  domainKept : Bool
  deriving DecidableEq, Repr

/-! ### Deck link port (11_deck_link.md) -/

/-- The keys of the outbox (R203). -/
inductive NoteKey where
  | mode | tape | mark | watch (place : Nat) | goto | run | tune | scan | prog (slot : Nat) | clock | power
  deriving DecidableEq, Repr

/-- A queued note: key, postings count, content as it stood at its latest posting. -/
structure Note where
  key     : NoteKey
  count   : Nat
  content : List Byte
  deriving DecidableEq, Repr

inductive FrameOrigin where
  | dispatched | overrun | note
  deriving DecidableEq, Repr

/-- A frame to be sent: its kind and payload (R201, R209). -/
structure Frame where
  origin  : FrameOrigin
  kind    : Byte
  payload : List Byte
  deriving DecidableEq, Repr

/-- The receive states of R197, with the bytes taken so far. -/
inductive Receiver where
  | hunt
  | length
  | body (length : Nat) (taken : List Byte)
  | check (length : Nat) (taken : List Byte)
  deriving DecidableEq, Repr

/-- An entry of the input queue: the body and whether the check was good (R198). -/
structure Entry where
  body : List Byte
  good : Bool
  deriving DecidableEq, Repr

/-- The RUN_LOAD assembly buffer when it is not empty (R207). -/
structure Assembly where
  endAction : Byte
  total     : Nat
  segments  : List SegmentWord
  deriving DecidableEq, Repr

structure Link where
  receiver  : Receiver
  lastByte  : Nat
  input     : List Entry
  replies   : List Frame
  line      : Option Frame
  outbox    : List Note
  /-- Note flow is ENABLED. -/
  flow      : Bool
  /-- The TAPE report period in seconds. -/
  period    : Nat
  assembly  : Option Assembly
  deriving DecidableEq, Repr

/-- The system settings (R205). -/
structure Settings where
  frameRate   : Nat
  autoRewind  : Bool
  defaultMark : Option Byte
  deriving DecidableEq, Repr

/-- What the connections last reported, and the last control pulse written (00_scope.md, Connections). -/
structure Pins where
  position      : Position
  cassetteIn    : Bool
  recordTab     : Bool
  dew           : Bool
  startLeader   : Bool
  endLeader     : Bool
  sync          : Bool
  strength      : BitVec 4
  discriminator : Discriminator
  supply        : Supply
  written       : Option Shape
  deriving DecidableEq, Repr

/-- The whole machine. -/
structure State where
  now       : Nat
  pins      : Pins
  transport : Transport
  tape      : TapePosition
  marks     : CueMarks
  nav       : Navigation
  tuner     : Tuner
  scan      : Scan
  clock     : Clock
  sched     : Scheduler
  mech      : MechClaim
  tunerOf   : TunerClaim
  power     : Power
  link      : Link
  settings  : Settings
  pending   : List Instr
  deriving DecidableEq, Repr

/-- Why the machine stops with a fault: nothing the manual describes stops the 4620 (FAULT is one of its modes), so there is no
reason to give. Safe: no step faults. -/
inductive Fault where
  deriving DecidableEq, Repr

/-- Why the model gives a command no effect. -/
inductive Refusal where
  /-- Raised by `exec`'s arm of a command that has no meaning yet. Safe: the step stops. -/
  | notModelled (mnemonic : String)
  /-- Raised by a command that stands for a frame whose body no frame can carry (R197: 1 to 60 bytes): no such frame reaches the
  part. Safe: the step stops (log 4). -/
  | notAFrame
  deriving DecidableEq, Repr

/-! ### The units after a cold start -/

/-- R26, with the mode EMPTY; R27's facts are kept by a mains loss only. -/
def Transport.cold : Transport :=
  { mode := .empty, target := none, change := none, recordSpeed := .standard, recordClass := none, playSpeed := .standard,
    cassettePresent := false, recordTab := false, dew := false, stopCause := none, faultCause := none, recordOrder := .operator,
    recovering := false, unthreadEnd := .plain, rewindDue := false, leaderSeen := false, relockPending := false, stepStart := 0,
    servoStart := 0, lockLostAt := none, modeReachedAt := 0, lastTakeUpPulse := 0, lastReelPulse := 0, drySince := none,
    detect := none, lastPlayPulse := 0, resetInFlight := false, keptThreaded := false, keptCassette := false }

/-- A reel whose list is empty (R31). -/
def ReelMeter.emptied (st : PeriodState) (lastAccepted : Nat) : ReelMeter :=
  { intervals := [], period := 0, state := st, opened := false, lastAccepted := lastAccepted }

/-- R46. -/
def TapePosition.cold : TapePosition :=
  { supply := .emptied .stalled 0, takeUp := .emptied .stalled 0, cls := none, origin := .none, candidate := none, idCount := 0,
    lastIdent := none, fraction := none, held := false, lastEstimate := none, counter := 0, quality := .exact, spanStart := none,
    lastReport := 0, reportPeriod := 0 }

def Decoder.off : Decoder :=
  { state := .off, direction := .forward, boundary := true, bits := [], candidate := none, gapStart := 0 }

/-- R62. -/
def CueMarks.cold : CueMarks := { writer := none, decoder := .off, history := [], passCount := 0 }

/-- The go-to record IDLE with no outcome (R86). -/
def Goto.idle : Goto :=
  { active := false, owner := .host, form := .counter 0, final := .stop, phase := .landing, approach := .forward, reversals := 0,
    counted := 0, noted := none, untracked := 0, drifted := false, outcome := none, landed := none, overshoot := none,
    landingMark := none }

def Run.cold : Run := { segments := [], state := .idle, endAction := none, result := none, track := 0 }

/-- R86. -/
def Navigation.cold : Navigation := { goto := .idle, watches := List.replicate 8 none, run := .cold }

/-- R108. -/
def Tuner.cold : Tuner :=
  { presets := List.replicate 99 none, selection := .preset 0, base := none, aftInUse := false, correction := 0, atLimit := false,
    state := .idle, latch := false, copy := .current, output := .auto, synth := none, tuningStart := 0, settled := false,
    aftSince := 0, failSince := none, recheckSince := 0 }

/-- R122. -/
def Scan.cold : Scan :=
  { state := .idle, step := none, current := none, window := none, best := none, finds := 0, resume := none, lastEnding := none,
    stoppedBy := none, found := [], dwellStart := 0 }

/-- R136. -/
def Clock.cold (now : Nat) : Clock :=
  { time := 0, set := false, setting := .auto, reading := .absent, source := .crystal, sinceBoundary := 0, cycleCount := none,
    windowCount := 0, windowStart := some now, previous := none }

/-- R158, R160. -/
def Scheduler.cold : Scheduler :=
  { slots := List.replicate 16 none, active := none, endAction := none, abortStop := none, rewindTail := false }

/-- R208. -/
def Link.cold : Link :=
  { receiver := .hunt, lastByte := 0, input := [], replies := [], line := none, outbox := [], flow := true, period := 0,
    assembly := none }

/-- R205. -/
def Settings.cold : Settings := { frameRate := 25, autoRewind := false, defaultMark := some 0 }

/-- The power record of a cold start with the supply NORMAL (R196). -/
def Power.cold (now : Nat) : Power :=
  { state := .standby, transition := .none, wakeStart := 0, mains := true, qualSince := none, lastChange := .coldStart,
    lastCycle := now, domainKept := true }

/-- The connections of a deck that stands empty with nothing received. DESIGN CHOICE, unsafe (log 5). -/
def Pins.cold : Pins :=
  { position := .out, cassetteIn := false, recordTab := false, dew := false, startLeader := false, endLeader := false,
    sync := false, strength := 0, discriminator := .centred, supply := .normal, written := none }

/-- Every unit at its cold start values, the link silent. -/
def State.cold (now : Nat) (pending : List Instr) : State :=
  { now := now, pins := .cold, transport := .cold, tape := .cold, marks := .cold, nav := .cold, tuner := .cold, scan := .cold,
    clock := .cold now, sched := .cold, mech := .free, tunerOf := .free, power := .cold now, link := .cold, settings := .cold,
    pending := pending }

/-- The POWER note of the cold start as it goes on the line (R190, R196, R202, R212): key byte 0, postings count 1, STANDBY, no
transition, wake and qualification time 0, mains present, supply NORMAL, last change COLD_START. -/
def Frame.coldPower : Frame := { origin := .note, kind := 0x8A, payload := [0, 1, 2, 0, 0, 0, 0, 1, 1, 1] }

/-- The machine right after a cold start with the supply NORMAL and no cassette (R196): STANDBY, every unit at its cold start
values, the POWER note on its way to the host (log 5). -/
def State.reset : State :=
  { State.cold 0 [] with link := { Link.cold with line := some Frame.coldPower } }

end Sys2Proof.Machine
end

