-- ==== Sys2Proof/Machine/Flags.lean ====
section
/-! DEFINITION. What the rules derive from the state without storing it: the drives of a mode, the conditions and flags that
other rules test, the values computed from the position record. -/

namespace Sys2Proof.Machine

/-! ### Modes and drives (R3) -/

/-- The threaded modes. -/
def Mode.threaded : Mode → Bool
  | .still | .recPause | .play | .record | .searchFwd | .searchRev | .windFwd | .windRev => true
  | .empty | .loading | .ejecting | .stop | .threading | .unthreading | .fault => false

/-- The tape direction of a mode; present in the six threaded motions. -/
def Mode.direction : Mode → Option Direction
  | .play | .record | .searchFwd | .windFwd => some .forward
  | .searchRev | .windRev => some .reverse
  | .empty | .loading | .ejecting | .stop | .threading | .unthreading | .still | .recPause | .fault => none

/-- The threaded motions. -/
def Mode.motion (m : Mode) : Bool := m.direction.isSome

/-- The reading modes (R54). -/
def Mode.reading (m : Mode) : Bool := m.motion && m != .record

/-- The wind modes. -/
def Mode.wind (m : Mode) : Bool := m == .windFwd || m == .windRev

/-- The search modes. -/
def Mode.search (m : Mode) : Bool := m == .searchFwd || m == .searchRev

/-- The modes in which the capstan draws the tape (R23). -/
def Mode.capstanMotion (m : Mode) : Bool := m == .play || m == .record || m.search

inductive DrumDrive where
  | off | runningUp | runningDown | locked
  deriving DecidableEq, Repr

/-- The drum of the table of R3, powered in OPERATING (R190). -/
def Mode.drum : Mode → DrumDrive
  | .empty | .loading | .ejecting | .stop | .fault => .off
  | .threading => .runningUp
  | .unthreading => .runningDown
  | .still | .recPause | .play | .record | .searchFwd | .searchRev | .windFwd | .windRev => .locked

/-- The capstan of R3; where it draws the tape, the linear tape speed is in thirds of 1 mm/s. -/
inductive CapstanDrive where
  | off | stopped | pinchReleased
  | drawing (direction : Direction) (speed : Nat)
  deriving DecidableEq, Repr

inductive LoadingMotor where
  | off | inward | outward
  deriving DecidableEq, Repr

/-- The loading motor of a mechanical step: it loads inward and ejects outward (R8, R11), draws the tape round the drum inward and
returns it outward (R9, R10; log 38). -/
def MechStep.motor : MechStep → LoadingMotor
  | .loading | .threading => .inward
  | .ejecting | .unthreading => .outward

/-- The reel brake of the table of R3. -/
def Mode.brakeApplied : Mode → Bool
  | .empty | .loading | .ejecting | .stop | .still | .recPause | .fault => true
  | .threading | .unthreading | .play | .record | .searchFwd | .searchRev | .windFwd | .windRev => false

def Speed.sigma : Speed → Nat
  | .standard => 1
  | .long => 2
  | .extended => 3

/-- The linear tape speed of a speed class, 32.0 mm/s divided by σ, in thirds of 1 mm/s (R1). -/
def Speed.tapeSpeed (v : Speed) : Nat := 96 / v.sigma

/-- The opposite direction. -/
def Direction.opposite : Direction → Direction
  | .forward => .reverse
  | .reverse => .forward

/-- The wind mode of a direction. -/
def Direction.windMode : Direction → Mode
  | .forward => .windFwd
  | .reverse => .windRev

/-- The search mode of a direction. -/
def Direction.searchMode : Direction → Mode
  | .forward => .searchFwd
  | .reverse => .searchRev

/-- A leader protection (R22). -/
def Protection.isLeader (c : Protection) : Bool := c == .leaderEnd || c == .leaderStart

/-- The speed class at which the capstan runs (R2). -/
def State.capstanClass (s : State) : Option Speed :=
  match s.transport.mode with
  | .play | .searchFwd | .searchRev => some s.transport.playSpeed
  | .record => s.transport.recordClass
  | _ => none

/-- The drum as it is driven: off outside OPERATING (R25, R190), by the mode there (R3). While a servo change is in flight it is driven
as in the mode being left, and after THREADING as in THREADING, until the completion (DESIGN CHOICE, log 46). -/
def State.drum (s : State) : DrumDrive := if s.power.state = .operating then s.transport.mode.drum else .off

/-- The capstan as it is driven: off outside OPERATING (R25, R190); there at the play speed class in PLAY, at the recording class in
RECORD, at seven times the speed of the play speed class in search (R3). While a servo change is in flight it is driven as in the mode
being left, and is off after THREADING, until the completion: R6 says only that it is already moving away (DESIGN CHOICE, log 46). -/
def State.capstan (s : State) : CapstanDrive :=
  let t := s.transport
  if s.power.state = .operating then
    match t.mode with
    | .empty | .loading | .ejecting | .stop | .threading | .unthreading | .fault => .off
    | .still | .recPause => .stopped
    | .play => .drawing .forward t.playSpeed.tapeSpeed
    | .record => .drawing .forward (t.recordClass.getD t.recordSpeed).tapeSpeed
    | .searchFwd => .drawing .forward (7 * t.playSpeed.tapeSpeed)
    | .searchRev => .drawing .reverse (7 * t.playSpeed.tapeSpeed)
    | .windFwd | .windRev => .pinchReleased
  else .off

/-- The loading motor as it is driven: by the mechanical step in flight, in OPERATING and STANDBY (R8 to R11, R190). -/
def State.loadingMotor (s : State) : LoadingMotor :=
  if s.power.state = .backup then .off
  else match s.transport.change with
    | some (.mech step) => step.motor
    | some (.servo _) | none => .off

/-- The take-up reel takes in the slack of the tape that returns to the cassette (R3, R10). -/
def State.takesInSlack (s : State) : Bool :=
  s.power.state != .backup && s.transport.change == some (.mech .unthreading)

/-- No change is in flight and no target is held (R2). -/
def State.settled (s : State) : Bool := s.transport.change == none && s.transport.target == none

/-- A servo change is in flight (R4). -/
def State.servoInFlight (s : State) : Bool :=
  match s.transport.change with
  | some (.servo _) => true
  | _ => false

/-- A mechanical step is in flight (R6). -/
def State.mechInFlight (s : State) : Bool :=
  match s.transport.change with
  | some (.mech _) => true
  | _ => false

/-- The drum's reference (R15): true is the video sync of the selected source, false the internal reference. -/
def State.drumOnSync (s : State) : Bool := s.pins.sync

/-! ### Power (R190) -/

/-- The part is in STANDBY, for every rule that refuses, suppresses or holds back work there. -/
def State.inStandby (s : State) : Bool :=
  match s.power.state, s.power.transition with
  | .standby, _ => true
  | .operating, .stopping _ => true
  | _, _ => false

/-! ### Position (R29, R37, R39, R42) -/

/-- A non-negative quotient rounded, a half rounding up (R1). -/
def rounded (n d : Nat) : Nat := (2 * n + d) / (2 * d)

/-- The counter's bound in either direction (R42). -/
def State.counterBound (s : State) : Nat := 36000 * s.settings.frameRate - 1

/-- A counter value lies in the counter range (R29). -/
def State.inCounterRange (s : State) (v : Int) : Bool := decide (v.natAbs ≤ s.counterBound)

/-- The approach distance of a go-to (R64). -/
def State.approach (s : State) : Nat := 40 * s.settings.frameRate

def CassetteClass.minutes : CassetteClass → Nat
  | .c30 => 30
  | .c60 => 60
  | .c90 => 90
  | .c120 => 120
  | .c150 => 150
  | .c180 => 180

/-- The hub share η of R34, in basis points. -/
def CassetteClass.hubShare : CassetteClass → Nat
  | .c30 => 2398
  | .c60 => 1577
  | .c90 => 1175
  | .c120 => 936
  | .c150 => 778
  | .c180 => 666

/-- The class bands of R34. -/
def classBand (v : Nat) : Option CassetteClass :=
  if v < 80000 then none
  else if v ≤ 136946 then some .c30
  else if v ≤ 193495 then some .c60
  else if v ≤ 250043 then some .c90
  else if v ≤ 306592 then some .c120
  else if v ≤ 363141 then some .c150
  else if v ≤ 420000 then some .c180
  else none

/-- The sum S of R33 from the two periods and the capstan class. -/
def identificationSum (supply takeUp sigma : Nat) : Nat :=
  let qs := rounded supply sigma
  let qt := rounded takeUp sigma
  rounded (qs * qs + qt * qt) 1000

/-- The supply fraction of R37 from the two periods and the hub share. -/
def supplyFraction (supply takeUp hub : Nat) : Nat :=
  let u := supply * supply
  let w := takeUp * takeUp
  if 10000 * u < hub * (u + w) then 0
  else Nat.min 10000 (rounded (10000 * (10000 * u - hub * (u + w))) ((10000 - 2 * hub) * (u + w)))

/-- R(σ) of R39 from a fraction and the class. -/
def remainingTime (f : Nat) (c : CassetteClass) (sigma : Nat) : Nat := rounded (f * c.minutes * 60 * sigma) 10000

/-- E(σ) of R39. -/
def elapsedTime (f : Nat) (c : CassetteClass) (sigma : Nat) : Nat := rounded ((10000 - f) * c.minutes * 60 * sigma) 10000

/-- The supply fraction with the class, when there is an estimate. -/
def State.estimate (s : State) : Option (Nat × CassetteClass) :=
  match s.tape.fraction, s.tape.cls with
  | some f, some c => some (f, c)
  | _, _ => none

/-- R at a speed class, absent with the fraction (R39). -/
def State.remaining (s : State) (v : Speed) : Option Nat := s.estimate.map fun e => remainingTime e.1 e.2 v.sigma

/-- E at a speed class, absent with the fraction (R39). -/
def State.elapsed (s : State) (v : Speed) : Option Nat := s.estimate.map fun e => elapsedTime e.1 e.2 v.sigma

/-- Both periods are VALID. -/
def State.bothValid (s : State) : Bool := s.tape.supply.state == .valid && s.tape.takeUp.state == .valid

/-- The conditions under which class identification runs (R33). -/
def State.identifying (s : State) : Bool :=
  s.tape.cls == none && (s.transport.mode == .play || s.transport.mode == .record) && s.transport.change == none &&
    !s.transport.relockPending && s.bothValid

/-- The conditions of an estimate computation (R36) but for its second since the previous one. A servo change from a motion
keeps the mode it leaves. -/
def State.estimating (s : State) : Bool := s.tape.cls.isSome && s.transport.mode.motion && s.bothValid

/-! ### Tuner (R95 to R97, R106) -/

def clampTo (low high v : Int) : Int := if v < low then low else if high < v then high else v

/-- A frequency held at the ends of the tuning range without report (R96). -/
def saturateFrequency (v : Int) : Nat := (clampTo Config.lowestFrequency Config.highestFrequency v).toNat

def Scan.inFlight (c : Scan) : Bool := c.state != .idle

/-- The frequency loaded for the working tuning: the base frequency plus the AFT correction (R96). -/
def Tuner.tuned (t : Tuner) : Option Nat := t.base.map fun b => saturateFrequency (b + t.correction)

/-- The tuned frequency as it is reported: during a scan it is the scan's current frequency (R93, R104). -/
def State.tunedFrequency (s : State) : Option Nat := if s.scan.inFlight then s.scan.current else s.tuner.tuned

/-- The lock condition: strength of 4 or more with sync, or sync alone for the line input (R95, R97). -/
def State.lockCondition (s : State) : Bool := s.pins.sync && (s.tuner.selection == .preset 0 || decide (4 ≤ s.pins.strength.toNat))

inductive Band where
  | low | mid | high
  deriving DecidableEq, Repr

/-- The band select outputs for a frequency (R96). -/
def bandOf (f : Nat) : Band := if f < 3400 then .low else if f < 9400 then .mid else .high

/-- The band select outputs: they follow the frequency last loaded (R96, R97). Before the first loading there is none (DESIGN CHOICE,
log 5). -/
def State.band (s : State) : Option Band := s.tuner.synth.map bandOf

/-- The video output switch shows the tape (R106). -/
def State.showsTape (s : State) : Bool :=
  match s.tuner.output with
  | .tuner => false
  | .tape => true
  | .auto => s.transport.mode == .play || s.transport.mode == .still || s.transport.mode.search

/-! ### Navigation (R64, R81) -/

def RunState.active : RunState → Bool
  | .seeking _ | .playing _ | .ending => true
  | .idle | .done => false

/-- A mark matches a filter (R64). -/
def Filter.admits (f : Filter) (r : MarkRecord) : Bool :=
  match r.kind with
  | .coded c => (c &&& f.mask) == (f.code &&& f.mask)
  | .anonymous | .damaged => false

def FinalAction.mode : FinalAction → Mode
  | .stop => .stop
  | .still => .still
  | .play => .play

/-- The target an end action gives the transport (R84, R177). -/
def EndAction.target : EndAction → Mode
  | .stop => .stop
  | .rewind => .windRev
  | .eject => .empty
  | .standby => .stop

/-! ### Claims (R182) -/

def MechClaim.isTimer : MechClaim → Bool
  | .timer _ => true
  | .free | .operator _ | .protect _ => false

def MechClaim.isProtect : MechClaim → Bool
  | .protect _ => true
  | .free | .operator _ | .timer _ => false

def TunerClaim.isTimer : TunerClaim → Bool
  | .timer _ => true
  | .free | .direct | .scan => false

/-- The dispatched reply that holds back the next dispatch is in the reply list or on the line (R199). -/
def Link.replyOutstanding (l : Link) : Bool :=
  l.replies.any (fun f => f.origin == .dispatched) || l.line.any (fun f => f.origin == .dispatched)

end Sys2Proof.Machine
end

