-- ==== Sys2Proof/Machine/Calendar.lean ====
section
/-! DEFINITION. The calendar arithmetic of R124, R125 and R140 to R142: dates and day numbers, the windows of occurrences and
the occurrence search. Day 0 is 1980-01-01; within 1980..2079 every fourth year from 1980 is a leap year, so four years hold
1,461 days. -/

namespace Sys2Proof.Machine

/-- A date: the year less 1980, the month 1..12, the day of the month. -/
structure Date where
  year  : Nat
  month : Nat
  day   : Nat
  deriving DecidableEq, Repr

def leapYear (year : Nat) : Bool := year % 4 == 0

/-- The days of the months of a year (R124). -/
def monthDays (year : Nat) : List Nat := [31, if leapYear year then 29 else 28, 31, 30, 31, 30, 31, 31, 30, 31, 30, 31]

/-- The month, from `month` on, and the day in it of the day `d` counted from 0. -/
def monthOf : List Nat → Nat → Nat → Nat × Nat
  | [], month, d => (month, d + 1)
  | l :: ls, month, d => if d < l then (month, d + 1) else monthOf ls (month + 1) (d - l)

/-- The date of a day number. -/
def dateOfDay (n : Nat) : Date :=
  let inCycle := n % 1461
  let yearInCycle := if inCycle < 366 then 0 else 1 + (inCycle - 366) / 365
  let dayOfYear := if inCycle < 366 then inCycle else (inCycle - 366) % 365
  let year := n / 1461 * 4 + yearInCycle
  let md := monthOf (monthDays year) 1 dayOfYear
  { year := year, month := md.1, day := md.2 }

/-- The day number of a date (R125). -/
def dayOfDate (d : Date) : Nat :=
  d.year * 365 + (d.year + 3) / 4 + ((monthDays d.year).take (d.month - 1)).sum + (d.day - 1)

/-- A valid date (R124). -/
def Date.valid (d : Date) : Bool :=
  decide (d.year < 100) && decide (1 ≤ d.month) && decide (d.month ≤ 12) && decide (1 ≤ d.day) &&
    decide (d.day ≤ (monthDays d.year).getD (d.month - 1) 0)

/-- The position of a day number's day of week in MON .. SUN, counting from 1 (R125: day 0 is a Tuesday). -/
def weekday (n : Nat) : Nat := (n + 1) % 7 + 1

/-- Seconds since 1980-01-01 00:00:00 of a valid date and time to the second. -/
def secondsOf (t : StampBytes) : Option Nat :=
  let d : Date := { year := t.year.toNat, month := t.month.toNat, day := t.day.toNat }
  if d.valid && decide (t.hour.toNat < 24) && decide (t.minute.toNat < 60) && decide (t.second.toNat < 60) then
    some (dayOfDate d * 86400 + t.hour.toNat * 3600 + t.minute.toNat * 60 + t.second.toNat)
  else none

/-- The valid date and time of a number of seconds, as the link carries it (R209). -/
def stampOf (seconds : Nat) : StampBytes :=
  let d := dateOfDay (seconds / 86400)
  { year := BitVec.ofNat 8 d.year, month := BitVec.ofNat 8 d.month, day := BitVec.ofNat 8 d.day,
    hour := BitVec.ofNat 8 (seconds % 86400 / 3600), minute := BitVec.ofNat 8 (seconds % 3600 / 60),
    second := BitVec.ofNat 8 (seconds % 60) }

/-! ### Windows (R140) -/

/-- The window's start, in seconds. -/
def Program.windowStart (p : Program) : Nat := p.next * 60

/-- The first second outside the window. -/
def Program.windowEnd (p : Program) : Nat := (p.next + p.duration) * 60

/-- The window has begun at T; one carried past the end of the calendar has not (R142). -/
def Program.begun (p : Program) (t : Nat) : Bool := !p.carried && decide (p.windowStart ≤ t)

/-- The window has at least 60 s left at T. -/
def Program.minuteLeft (p : Program) (t : Nat) : Bool := p.carried || decide (t + 60 ≤ p.windowEnd)

/-- The window is running at T. -/
def Program.running (p : Program) (t : Nat) : Bool := p.begun t && decide (t < p.windowEnd)

/-! ### Occurrences (R141, R142) -/

/-- A day matches the repeat pattern of a program whose start is the given minute. -/
def Pattern.admits (k : Pattern) (start day : Nat) : Bool :=
  match k with
  | .once => day == start / 1440
  | .daily => true
  | .weekdays => decide (weekday day ≤ 5)
  | .weekly => day % 7 == start / 1440 % 7

/-- A lower bound of an occurrence search: a time in seconds, and whether it lies past the end of the calendar. -/
structure LowerBound where
  at_     : Nat
  carried : Bool
  deriving DecidableEq, Repr

/-- The first of `count` days from `first` on that matches and whose occurrence start, in minutes, meets the condition. -/
def firstOccurrence (k : Pattern) (start first count : Nat) (ok : Nat → Bool) : Option Nat :=
  ((List.range count).map (first + ·)).findSome? fun day =>
    let minute := day * 1440 + start % 1440
    if k.admits start day && ok minute then some minute else none

/-- The occurrence search of R142 at T with the bound L: the next start in minutes, and whether it was carried past the end of
the calendar. Every pattern but ONCE matches one day in seven, and a window is at most 600 minutes long, so ten days from the
later of the day of L and the day before T hold the first occurrence that the calendar has room for. The bound of a search
made from an occurrence already carried is met only past the end (log 23). -/
def occurrenceSearch (k : Pattern) (start duration t : Nat) (l : Option LowerBound) : Nat × Bool :=
  let first := Nat.max (t / 86400 - 1) (l.elim 0 fun b => b.at_ / 86400)
  let inCalendar :=
    if l.any (·.carried) then none
    else firstOccurrence k start first 10 fun minute =>
      l.all (fun b => decide (b.at_ ≤ minute * 60)) && decide (t + 60 ≤ (minute + duration) * 60) &&
        decide ((minute + duration) * 60 < Config.calendarSeconds)
  match inCalendar with
  | some minute => (minute, false)
  | none =>
    let bound := l.elim 0 fun b => if b.carried then b.at_ else 0
    ((firstOccurrence k start (bound / 86400) 10 fun minute => decide (bound ≤ minute * 60)).getD start, true)

end Sys2Proof.Machine
end

