-- ==== Sys2Proof/Machine/Operands.lean ====
section
/-! DEFINITION. The forms in which frames carry numbers, enumerations and statuses (R200, R201, R209), and the request kinds
with their payload lengths. -/

namespace Sys2Proof.Machine

/-! ### Numbers (R209) -/

def byteOf (n : Nat) : Byte := BitVec.ofNat 8 n

/-- `count` bytes, most significant first. -/
def bytesOf : Nat → Nat → List Byte
  | 0, _ => []
  | k + 1, n => byteOf (n / 256 ^ k) :: bytesOf k n

/-- A counter value: three bytes, two's complement. -/
def counterBytes (v : Int) : List Byte := bytesOf 3 (BitVec.ofInt 24 v).toNat

/-- A signed one-byte field. -/
def signedByte (v : Int) : Byte := BitVec.ofInt 8 v

def flagByte (b : Bool) : Byte := if b then 1 else 0

/-- A two-byte field that is absent as 0xFFFF: a frequency, f, R, E. -/
def wideBytes (v : Option Nat) : List Byte := bytesOf 2 (v.getD 0xFFFF)

/-- A flag byte: 0 or 1, and no other value. -/
def flagOf (b : Byte) : Option Bool := if b = 0 then some false else if b = 1 then some true else none

/-- The 16-bit number of two bytes. -/
def word16 (hi lo : Byte) : Word16 := hi ++ lo

/-- The 24-bit number of three bytes. -/
def word24 (hi mid lo : Byte) : Word24 := hi ++ (mid ++ lo)

/-- A date and time to the minute (R209). -/
def minuteBytes (minutes : Nat) : List Byte :=
  let t := stampOf (minutes * 60)
  [t.year, t.month, t.day, t.hour, t.minute]

/-- A date and time to the second (R209). -/
def secondBytes (seconds : Nat) : List Byte :=
  let t := stampOf seconds
  [t.year, t.month, t.day, t.hour, t.minute, t.second]

/-! ### Enumerations: the position in the list of the manual, from 1; 0 is absent, none or unknown (R209, log 7) -/

/-- The position of a value in its list, from 1. -/
def positionIn {α : Type} [DecidableEq α] (all : List α) (a : α) : Byte := byteOf (all.idxOf a + 1)

/-- The value at a position, from 1. -/
def valueAt {α : Type} (all : List α) (b : Byte) : Option α := if b = 0 then none else all[b.toNat - 1]?

/-- A field that may be absent. -/
def optionByte {α : Type} (code : α → Byte) : Option α → Byte
  | none => 0
  | some a => code a

def Mode.all : List Mode :=
  [.empty, .loading, .ejecting, .stop, .threading, .unthreading, .still, .recPause, .play, .record, .searchFwd, .searchRev,
    .windFwd, .windRev, .fault]

def Mode.byte (m : Mode) : Byte := positionIn Mode.all m

def Speed.byte (v : Speed) : Byte := byteOf v.sigma

def Speed.ofByte (b : Byte) : Option Speed := valueAt [.standard, .long, .extended] b

def StopCause.byte (c : StopCause) : Byte := positionIn [.dew, .leaderEnd, .leaderStart, .stall, .tightEnd, .pauseLimit, .servo] c

/-- A mechanical step as the change in flight and the fault cause carry it (R212). -/
def MechStep.byte : MechStep → Byte
  | .loading => 1
  | .ejecting => 2
  | .threading => 3
  | .unthreading => 4

/-- The change in flight (R212). -/
def Change.byte : Change → Byte
  | .mech step => step.byte
  | .servo _ => 5

def CassetteClass.all : List CassetteClass := [.c30, .c60, .c90, .c120, .c150, .c180]

/-- A class: its minutes divided by 30 (R209). -/
def CassetteClass.byte (c : CassetteClass) : Byte := positionIn CassetteClass.all c

/-- NONE is carried as 0, and keeps the first place of R29's list, so the other two are 2 and 3 (DESIGN CHOICE, log 7). -/
def ClassOrigin.byte : ClassOrigin → Byte
  | .none => 0
  | .identified => 2
  | .declared => 3

def PeriodState.byte (p : PeriodState) : Byte := positionIn [.collecting, .valid, .slow, .stalled] p

def Quality.byte (q : Quality) : Byte := positionIn [.exact, .drifted] q

def FinalAction.all : List FinalAction := [.stop, .still, .play]

def GotoOutcome.byte (o : GotoOutcome) : Byte :=
  positionIn [.done, .tapeEnd, .noTrack, .failed, .cancelled, .replaced, .preempted] o

def DirectionFilter.all : List DirectionFilter := [.forward, .reverse, .both]

/-- UNKNOWN is carried as 0 (log 7). -/
def Side.byte : Side → Byte
  | .above => 1
  | .below => 2
  | .unknown => 0

def WatchAction.all : List WatchAction := [.note, .stop, .still, .play]

def EndAction.all : List EndAction := [.stop, .rewind, .eject, .standby]

def EndAction.byte (a : EndAction) : Byte := positionIn EndAction.all a

def RunResult.byte (r : RunResult) : Byte :=
  positionIn [.finished, .tapeEnd, .noTrack, .failed, .cancelled, .stopped, .replaced, .preempted] r

/-- Run states as R212 gives them. -/
def RunState.byte : RunState → Byte
  | .idle => 1
  | .seeking _ => 2
  | .playing _ => 3
  | .ending => 4
  | .done => 5

/-- The segment number of a run state, 0 when none (R212). -/
def RunState.segment : RunState → Nat
  | .seeking i | .playing i => i
  | .idle | .ending | .done => 0

def TunerState.byte (t : TunerState) : Byte := positionIn [.idle, .tuning, .locked, .noSignal] t

def CopyState.byte (c : CopyState) : Byte := positionIn [.current, .stale] c

def OutputSetting.all : List OutputSetting := [.auto, .tuner, .tape]

def ScanState.byte (c : ScanState) : Byte := positionIn [.idle, .stepping, .peakSearch] c

def ScanEnding.byte (e : ScanEnding) : Byte := positionIn [.complete, .full, .stopped, .preempted, .replaced] e

def ScanStopper.byte (p : ScanStopper) : Byte := positionIn [.scanStop, .deckReset, .standby] p

def SourceSetting.all : List SourceSetting := [.auto, .crystal]

def MainsReading.byte (r : MainsReading) : Byte := positionIn [.hz50, .hz60, .out, .absent] r

def TimeSource.byte (t : TimeSource) : Byte := positionIn [.mains, .crystal] t

def SpeedMode.all : List SpeedMode := [.standard, .long, .extended, .fit]

def Pattern.all : List Pattern := [.once, .daily, .weekdays, .weekly]

/-- Slot states, EMPTY being the first of the list of R139. -/
def SlotState.byte (t : SlotState) : Byte := byteOf ([SlotState.armed, .cueing, .recording, .deferred, .done].idxOf t + 2)

def DeferralCause.byte (c : DeferralCause) : Byte := positionIn [.overlap, .preempted, .power, .dew, .fault, .clockSet] c

def Outcome.byte (o : Outcome) : Byte := positionIn [.complete, .truncated, .missed] o

def OutcomeCause.byte (c : OutcomeCause) : Byte :=
  positionIn [.noCassette, .tabAbsent, .dew, .fault, .tapeEnd, .preempted, .overlap, .power, .clockSet, .aborted] c

def PowerState.byte (p : PowerState) : Byte := positionIn [.operating, .standby, .backup] p

def PowerCause.byte (c : PowerCause) : Byte := positionIn [.coldStart, .host, .run, .endAction, .timer, .mainsLoss, .restore] c

/-- The class of a MECHANISM claim is not reported; the TUNER claim is, as R212 gives it: class, activity row, slot. -/
def TunerClaim.bytes : TunerClaim → List Byte
  | .free => [0, 0, 0]
  | .direct => [1, 1, 0]
  | .scan => [1, 4, 0]
  | .timer (.program n) => [2, 5, byteOf n]
  | .timer (.endAction n) => [2, 6, byteOf n]

/-! ### Targets of MOTION (R5) -/

/-- The nine targets a MOTION request may name. -/
def motionTarget (b : Byte) : Option Mode :=
  (valueAt Mode.all b).filter fun m => m == .stop || m.threaded

/-! ### Statuses and replies (R201) -/

inductive Status where
  | ok | clamped | accepted | busyTimer | busyProtect | busy | notReady | tabAbsent | inUse | noSuch | range | badKind | badLength
  | overrun | badCheck
  deriving DecidableEq, Repr

/-- The status values of R201; `tabAbsent` is PROTECTED. -/
def Status.byte : Status → Byte
  | .ok => 0x00
  | .clamped => 0x01
  | .accepted => 0x02
  | .busyTimer => 0x10
  | .busyProtect => 0x11
  | .busy => 0x12
  | .notReady => 0x20
  | .tabAbsent => 0x21
  | .inUse => 0x22
  | .noSuch => 0x23
  | .range => 0x30
  | .badKind => 0x40
  | .badLength => 0x41
  | .overrun => 0x42
  | .badCheck => 0x43

/-- The statuses whose replies carry the fields of the owner. -/
def Status.carriesFields : Status → Bool
  | .ok | .clamped | .accepted => true
  | .busyTimer | .busyProtect | .busy | .notReady | .tabAbsent | .inUse | .noSuch | .range | .badKind | .badLength | .overrun
  | .badCheck => false

/-- An owner's answer to a request. -/
structure Reply where
  status : Status
  fields : List Byte := []
  deriving DecidableEq, Repr

/-- The payload of a reply: the status byte first, and the fields with OK, CLAMPED and ACCEPTED alone. -/
def Reply.payload (r : Reply) : List Byte := r.status.byte :: if r.status.carriesFields then r.fields else []

/-- A request that changes nothing and is answered with a status. -/
def refuse (st : Status) (s : State) : State × Reply := (s, { status := st })

/-- The status of a claim refused to an OPERATOR activity by its holder (R183). -/
def MechClaim.refusal : MechClaim → Option Status
  | .timer _ => some .busyTimer
  | .protect _ => some .busyProtect
  | .free | .operator _ => none

/-! ### Request kinds (R200) -/

/-- The forty request kinds of R200. -/
inductive RequestKind where
  | ident | noteFlow | deckReset | power | systemSet | clockSet | clockRead | clockSource | motion | recSpeed | eject
  | counterZero | tapeRead | classSet | markNow | goto | gotoCancel | watchSet | watchClear | watchRead | runLoad | runStart
  | runStop | runRead | markList | tune | tunerRead | presetWrite | presetRead | presetClear | scanStart | scanStop | scanRead
  | scanAdopt | outputSelect | progWrite | progRead | progClear | progAbort | progOrder
  deriving DecidableEq, Repr

def RequestKind.all : List RequestKind :=
  [.ident, .noteFlow, .deckReset, .power, .systemSet, .clockSet, .clockRead, .clockSource, .motion, .recSpeed, .eject,
    .counterZero, .tapeRead, .classSet, .markNow, .goto, .gotoCancel, .watchSet, .watchClear, .watchRead, .runLoad, .runStart,
    .runStop, .runRead, .markList, .tune, .tunerRead, .presetWrite, .presetRead, .presetClear, .scanStart, .scanStop, .scanRead,
    .scanAdopt, .outputSelect, .progWrite, .progRead, .progClear, .progAbort, .progOrder]

/-- The request codes. -/
def RequestKind.code : RequestKind → Byte
  | .ident => 0x01
  | .noteFlow => 0x02
  | .deckReset => 0x03
  | .power => 0x04
  | .systemSet => 0x05
  | .clockSet => 0x08
  | .clockRead => 0x09
  | .clockSource => 0x0A
  | .motion => 0x10
  | .recSpeed => 0x11
  | .eject => 0x12
  | .counterZero => 0x13
  | .tapeRead => 0x14
  | .classSet => 0x15
  | .markNow => 0x16
  | .goto => 0x18
  | .gotoCancel => 0x19
  | .watchSet => 0x1A
  | .watchClear => 0x1B
  | .watchRead => 0x1C
  | .runLoad => 0x1D
  | .runStart => 0x1E
  | .runStop => 0x1F
  | .runRead => 0x20
  | .markList => 0x21
  | .tune => 0x28
  | .tunerRead => 0x29
  | .presetWrite => 0x2A
  | .presetRead => 0x2B
  | .presetClear => 0x2C
  | .scanStart => 0x2D
  | .scanStop => 0x2E
  | .scanRead => 0x2F
  | .scanAdopt => 0x30
  | .outputSelect => 0x31
  | .progWrite => 0x38
  | .progRead => 0x39
  | .progClear => 0x3A
  | .progAbort => 0x3B
  | .progOrder => 0x3C

/-- The request kind of a first body byte. -/
def RequestKind.ofByte (b : Byte) : Option RequestKind := RequestKind.all.find? fun k => k.code == b

/-- The payload length R200 gives is met; a RUN_LOAD has 3 bytes and 6 for each of 1 to 8 segments. -/
def RequestKind.admitsLength (k : RequestKind) (n : Nat) : Bool :=
  match k with
  | .ident | .deckReset | .clockRead | .eject | .counterZero | .tapeRead | .gotoCancel | .runStart | .runStop | .tunerRead
  | .scanStop => n == 0
  | .power | .clockSource | .motion | .recSpeed | .classSet | .markNow | .watchClear | .watchRead | .runRead | .markList
  | .presetRead | .presetClear | .scanStart | .scanRead | .outputSelect | .progRead | .progClear | .progAbort => n == 1
  | .noteFlow | .scanAdopt | .progOrder => n == 2
  | .systemSet | .tune => n == 4
  | .clockSet => n == 6
  | .goto => n == 10
  | .watchSet => n == 11
  | .presetWrite => n == 12
  | .progWrite => n == 15
  | .runLoad => decide (9 ≤ n) && decide (n ≤ 51) && n % 6 == 3

end Sys2Proof.Machine
end

