-- ==== Sys2Proof/Machine/Layouts.lean ====
section
/-! DEFINITION. The byte layouts of the records that replies and notes carry (R207, R210 to R212). -/

namespace Sys2Proof.Machine

/-- The transport record, 11 bytes (R2, R212). -/
def State.transportBytes (s : State) : List Byte :=
  let t := s.transport
  [t.mode.byte, optionByte Mode.byte t.target, optionByte Change.byte t.change, t.recordSpeed.byte,
    optionByte Speed.byte t.recordClass, t.playSpeed.byte, flagByte t.cassettePresent, flagByte t.recordTab, flagByte t.dew,
    optionByte StopCause.byte t.stopCause, optionByte MechStep.byte t.faultCause]

/-- A reel's period state and period, 0 unless VALID or SLOW. -/
def ReelMeter.bytes (r : ReelMeter) : List Byte :=
  r.state.byte :: bytesOf 2 (if r.state = .valid ∨ r.state = .slow then r.period else 0)

/-- The tape status record, 21 bytes (R40, R211). -/
def State.tapeBytes (s : State) : List Byte :=
  let t := s.tape
  let v := s.transport.recordSpeed
  [flagByte s.transport.cassettePresent, optionByte CassetteClass.byte t.cls, t.origin.byte] ++ wideBytes t.fraction ++
    [flagByte t.held, v.byte] ++ wideBytes (s.remaining v) ++ wideBytes (s.elapsed v) ++ counterBytes t.counter ++
    [t.quality.byte] ++ t.supply.bytes ++ t.takeUp.bytes

/-- A mark record, 5 bytes (R212). -/
def MarkRecord.bytes (r : MarkRecord) : List Byte :=
  let reverse := if r.direction = .reverse then 1 else 0
  let read := if r.origin = .read then 2 else 0
  let kind := match r.kind with
    | .coded _ => 0
    | .anonymous => 4
    | .damaged => 8
  let code := match r.kind with
    | .coded c => c
    | .anonymous | .damaged => 0
  counterBytes r.position ++ [byteOf (reverse + read + kind), code]

/-- The MARK note: the record and the pass count. -/
def State.markNoteBytes (s : State) (r : MarkRecord) : List Byte := r.bytes ++ [byteOf s.marks.passCount]

/-- A counter value that a note carries as 0 when it is absent. -/
def counterBytesOr0 (v : Option Int) : List Byte := counterBytes (v.getD 0)

/-- The GOTO note, 27 bytes (R72, R212). -/
def State.gotoNoteBytes (s : State) : List Byte :=
  let g := s.nav.goto
  let owner : List Byte := match g.owner with
    | .host => [1, 0]
    | .run i => [2, byteOf i]
  let target : List Byte := match g.form with
    | .counter v => 1 :: (counterBytes v ++ [0, 0])
    | .markForward n _ => 2 :: (counterBytes 0 ++ [byteOf n, 1])
    | .markBackward n => 2 :: (counterBytes 0 ++ [byteOf n, 2])
  let mark : List Byte := match g.landingMark with
    | some r => r.bytes
    | none => [0, 0, 0, 0, 0]
  owner ++ target ++ [positionIn FinalAction.all g.final, optionByte GotoOutcome.byte g.outcome] ++ counterBytes s.tape.counter ++
    counterBytesOr0 g.landed ++ counterBytesOr0 g.overshoot ++ [byteOf g.reversals, byteOf g.counted] ++ mark ++
    [flagByte g.drifted]

/-- The RUN note, 6 bytes (R83, R212). -/
def State.runNoteBytes (s : State) : List Byte :=
  let r := s.nav.run
  [r.state.byte, byteOf r.state.segment] ++ counterBytes s.tape.counter ++ [optionByte RunResult.byte r.result]

/-- The fields of a watch entry from kind to mask: kind, value, direction filter or mark match, code, mask. -/
def WatchKind.bytes : WatchKind → List Byte
  | .counter v f => 1 :: (counterBytes v ++ [positionIn DirectionFilter.all f, 0, 0])
  | .markAny => [2, 0, 0, 0, 1, 0, 0]
  | .markCoded f => [2, 0, 0, 0, 2, f.code, f.mask]
  | .remain t => 3 :: (bytesOf 3 t ++ [0, 0, 0])

/-- A watch entry, 15 bytes (R211); its state is 1 for a live entry and 0 for one that was removed at its firing. -/
def Watch.bytes (w : Watch) (place : Nat) (live : Bool) : List Byte :=
  let side := match w.kind with
    | .remain _ => w.side.byte
    | .counter _ _ | .markAny | .markCoded _ => 0
  [byteOf place, flagByte live] ++ w.kind.bytes ++
    [positionIn WatchAction.all w.action, flagByte w.again, byteOf w.setCount, byteOf w.count, side, byteOf w.fires]

/-- The entry of an empty place. -/
def emptyWatchBytes (place : Nat) : List Byte := byteOf place :: List.replicate 14 0

/-- What fired a watch entry (R79). -/
inductive Firing where
  | counter (value : Int) (direction : Direction)
  | mark (r : MarkRecord)
  | remain (r : Nat)
  deriving DecidableEq, Repr

/-- The firing event of a WATCH note: counter value and direction, mark record, R. -/
def Firing.bytes : Firing → List Byte
  | .counter v d => counterBytes v ++ [if d = .forward then 1 else 2] ++ List.replicate 7 0
  | .mark r => List.replicate 4 0 ++ r.bytes ++ [0, 0]
  | .remain r => List.replicate 9 0 ++ bytesOf 2 r

/-- The WATCH note, 27 bytes (R212). -/
def watchNoteBytes (w : Watch) (place : Nat) (live taken : Bool) (f : Firing) : List Byte :=
  w.bytes place live ++ [if taken then 1 else 2] ++ f.bytes

/-- The selection and the direct frequency of the working tuning. -/
def Selection.bytes : Selection → List Byte
  | .preset n => byteOf n :: wideBytes none
  | .direct f => 255 :: wideBytes (some f)

/-- The working tuning with the TUNER claim holder, 17 bytes (R93, R105, R212). -/
def State.tuningBytes (s : State) : List Byte :=
  let t := s.tuner
  t.selection.bytes ++ wideBytes t.base ++ [flagByte t.aftInUse, signedByte t.correction, flagByte t.atLimit] ++
    wideBytes s.tunedFrequency ++
    [t.state.byte, flagByte t.latch, t.copy.byte, positionIn OutputSetting.all t.output] ++ s.tunerOf.bytes

/-- The progress of a scan in basis points, absent in IDLE (R110). -/
def Scan.progress (c : Scan) : Option Nat :=
  if c.inFlight then c.current.map fun f => rounded ((f - Config.lowestFrequency) * 10000) 16300 else none

/-- The scan record with the progress and the number of entries, 20 bytes (R119, R212). -/
def State.scanBytes (s : State) : List Byte :=
  let c := s.scan
  c.state.byte :: (wideBytes c.step ++ wideBytes c.current ++ wideBytes (c.window.map (·.1)) ++ wideBytes (c.window.map (·.2)) ++
    wideBytes (c.best.map (·.1)) ++ [byteOf (c.best.elim 0 (·.2)), byteOf c.finds] ++ wideBytes c.resume ++
    [optionByte ScanEnding.byte c.lastEnding, optionByte ScanStopper.byte c.stoppedBy] ++ wideBytes c.progress ++
    [byteOf c.found.length])

/-- The clock record, 11 bytes (R134, R212). -/
def State.clockBytes (s : State) : List Byte :=
  let c := s.clock
  secondBytes c.time ++
    [byteOf (weekday (c.time / 86400)), if c.set then 2 else 1, positionIn SourceSetting.all c.setting, c.reading.byte,
      c.source.byte]

/-- The time of a transition or of the qualification in whole tenths of a second, at most a limit. -/
def tenths (since now limit : Nat) : Nat := Nat.min limit ((now - since) * 10 / Config.unitsPerSecond)

/-- The power record, 8 bytes (R190, R212). -/
def State.powerBytes (s : State) : List Byte :=
  let p := s.power
  let transition : List Byte := match p.transition with
    | .none => [0, 0, 0]
    | .waking r => [1, r.byte, byteOf (tenths p.wakeStart s.now 30)]
    | .stopping r => [2, r.byte, 0]
  let qualification := p.qualSince.elim 0 fun t => tenths t s.now 20
  p.state.byte :: (transition ++
    [byteOf qualification, flagByte p.mains, if s.pins.supply = .normal then 1 else 2, p.lastChange.byte])

/-- The run record's part of a program record. -/
def RunRecord.bytes (r : RunRecord) : List Byte :=
  bytesOf 2 r.recorded ++ [byteOf r.stretches] ++ bytesOf 2 r.signalLoss ++
    [optionByte Speed.byte r.firstSpeed, optionByte Speed.byte r.currentSpeed, flagByte r.shortTape, byteOf r.deferrals]

/-- The program record of a slot, 33 bytes (R210); an EMPTY slot holds its number and its state alone. -/
def programBytes (slot : Nat) : Option Program → List Byte
  | none => [byteOf slot, 1] ++ List.replicate 31 0
  | some p =>
    [byteOf slot, p.state.byte] ++ minuteBytes p.start ++ bytesOf 2 p.duration ++
      [byteOf p.preset, positionIn SpeedMode.all p.speedMode, positionIn Pattern.all p.pattern, byteOf p.priority, p.endAction.byte,
        flagByte p.mark.isSome, p.mark.getD 0] ++ minuteBytes p.next ++
      [optionByte DeferralCause.byte p.deferral, optionByte Outcome.byte p.outcome, optionByte OutcomeCause.byte p.cause] ++
      p.run.bytes

/-- The flags of a preset: 1 AFT enabled, 2 skip, 4 lock, summed. -/
def Preset.flags (p : Preset) : Nat := (if p.aft then 1 else 0) + (if p.skip then 2 else 0) + (if p.lock then 4 else 0)

/-- The preset record, 14 bytes (R92, R210). Preset 0 is the line input: its lock flag alone is yes (R88). -/
def presetBytes (n : Nat) (entry : Option Preset) (references : Nat) : List Byte :=
  if n = 0 then [0, 2, 0, 0, 0, 4, 0, 0, 0, 0, 0, 0, 0, byteOf references]
  else match entry with
    | none => [byteOf n, 0, 0, 0, 0, 0, 0, 0, 0, 0, 0, 0, 0, byteOf references]
    | some p =>
      [byteOf n, 1] ++ bytesOf 2 p.frequency ++ [signedByte p.fineTune, byteOf p.flags, byteOf p.label.length] ++
        (p.label ++ List.replicate (6 - p.label.length) 0) ++ [byteOf references]

/-- A segment of a run, 6 bytes (R207). -/
def Segment.bytes (g : Segment) : List Byte :=
  counterBytes g.start ++ match g.stop with
    | .counter v => counterBytes v
    | .nextMark => [0x80, 0, 0]

end Sys2Proof.Machine
end

