-- ==== Sys2Proof/Machine/Ops.lean ====
section
/-! DEFINITION. The operations that every unit shares: the passing of time, the posting of notes, the slots and places of the
tables, and the two claim records. -/

namespace Sys2Proof.Machine

/-! ### Time (log 1, log 2) -/

/-- The longest track time (R64, R83). -/
def trackLimit : Nat := 10 * Config.unitsPerSecond

def seconds (n : Nat) : Nat := n * Config.unitsPerSecond

def milliseconds (n : Nat) : Nat := n * Config.millisecond

/-- The untracked time of a go-to grows in a threaded motion, a servo change from one included (R71). -/
def Goto.elapse (d : Nat) (moving : Bool) (g : Goto) : Goto :=
  if g.active && moving then { g with untracked := Nat.min trackLimit (g.untracked + d) } else g

/-- The track time of a run grows in PLAYING as the untracked time does (R83). -/
def Run.elapse (d : Nat) (moving : Bool) (r : Run) : Run :=
  match r.state with
  | .playing _ => if moving then { r with track := Nat.min trackLimit (r.track + d) } else r
  | .idle | .seeking _ | .ending | .done => r

/-- A span of time passes with no event in it: the crystal ticks on (R128) and track times grow (R71, R83). -/
def elapse (d : Nat) (s : State) : State :=
  { s with
    now := s.now + d
    clock.sinceBoundary := s.clock.sinceBoundary + d
    nav.goto := s.nav.goto.elapse d s.transport.mode.motion
    nav.run := s.nav.run.elapse d s.transport.mode.motion }

/-- Time goes on to a limit, if it has not come yet (log 2). -/
def leapTo (t : Nat) (s : State) : State := elapse (t - s.now) s

/-! ### Notes (R203) -/

/-- A posting joins the end of the outbox, or replaces the content of the note queued under its key. -/
def postInto (key : NoteKey) (content : List Byte) : List Note → List Note
  | [] => [{ key := key, count := 1, content := content }]
  | n :: ns =>
    if n.key = key then { n with count := Nat.min 255 (n.count + 1), content := content } :: ns
    else n :: postInto key content ns

/-- A unit posts a note; the link does not run in BACKUP (R194). -/
def post (key : NoteKey) (content : List Byte) (s : State) : State :=
  if s.power.state = .backup then s else { s with link.outbox := postInto key content s.link.outbox }

def postMode (s : State) : State := post .mode s.transportBytes s

/-- The TAPE note is formed when it is sent (R40, R203). Its period starts again at each posting, and the period set by
NOTE_FLOW takes effect there (R41, log 26). -/
def postTape (s : State) : State :=
  post .tape [] { s with tape.lastReport := s.now, tape.reportPeriod := s.link.period }

def postMark (r : MarkRecord) (s : State) : State := post .mark (s.markNoteBytes r) s

def postGoto (s : State) : State := post .goto s.gotoNoteBytes s

def postRun (s : State) : State := post .run s.runNoteBytes s

def postTune (s : State) : State := post .tune s.tuningBytes s

def postScan (s : State) : State := post .scan s.scanBytes s

def postClock (s : State) : State := post .clock s.clockBytes s

def postPower (s : State) : State := post .power s.powerBytes s

/-! ### Tables -/

/-- The program of a slot 1..16; EMPTY and absent slots give none. -/
def State.program (s : State) (n : Nat) : Option Program := if n = 0 then none else (s.sched.slots[n - 1]?).join

/-- The entry of a preset 1..99. -/
def State.preset (s : State) (n : Nat) : Option Preset := if n = 0 then none else (s.tuner.presets[n - 1]?).join

/-- The entry of a watch place 1..8. -/
def State.watch (s : State) (n : Nat) : Option Watch := if n = 0 then none else (s.nav.watches[n - 1]?).join

def State.withPreset (s : State) (n : Nat) (p : Option Preset) : State :=
  { s with tuner.presets := s.tuner.presets.set (n - 1) p }

def State.withWatch (s : State) (n : Nat) (w : Option Watch) : State := { s with nav.watches := s.nav.watches.set (n - 1) w }

def State.withSlot (s : State) (n : Nat) (p : Option Program) : State := { s with sched.slots := s.sched.slots.set (n - 1) p }

def postProg (n : Nat) (s : State) : State := post (.prog n) (programBytes n (s.program n)) s

/-- The changes of a program record that R153 names. The carried mark is part of the next start: its change alone is one too, and posts
the note (DESIGN CHOICE, log 55). -/
def Program.notedChange (old new : Program) : Bool :=
  old.state != new.state || old.next != new.next || old.carried != new.carried || old.deferral != new.deferral ||
    old.outcome != new.outcome || old.cause != new.cause || old.run.currentSpeed != new.run.currentSpeed ||
    old.run.shortTape != new.run.shortTape

/-- A program record changes; the PROG note of the slot is posted if R153 names the change. -/
def putProgram (n : Nat) (p : Program) (s : State) : State :=
  let changed := (s.program n).elim true fun old => old.notedChange p
  let s := s.withSlot n (some p)
  if changed then postProg n s else s

/-- The reference count of a preset (R89). -/
def State.references (s : State) (n : Nat) : Nat :=
  s.sched.slots.countP fun p => p.any fun p => p.preset == n && p.state != .done

/-- A program is CUEING or RECORDING (R133, R191). -/
def State.programActive (s : State) : Bool :=
  s.sched.slots.any fun p => p.any fun p => p.state == .cueing || p.state == .recording

/-! ### Claims (R182 to R185) -/

def setMech (c : MechClaim) (s : State) : State := { s with mech := c }

/-- Each change of the TUNER claim holder posts the TUNE note (R105). -/
def setTunerClaim (c : TunerClaim) (s : State) : State :=
  if s.tunerOf = c then s else postTune { s with tunerOf := c }

/-- The transport stands settled in STOP or EMPTY with no target (R185). -/
def State.standsStill (s : State) : Bool :=
  s.settled && (s.transport.mode == .stop || s.transport.mode == .empty)

/-- A direct activity that is granted the claim, or handed it, while the transport stands settled in STOP or EMPTY releases it at
that event (R185). -/
def releaseIfStill (s : State) : State :=
  if s.mech = .operator .direct ∧ s.standsStill then setMech .free s else s

end Sys2Proof.Machine
end

