-- ==== Sys2Proof/Machine/Tuner.lean ====
section
/-! DEFINITION. The tuner controller's operations (R94 to R109): tunings, lock and loss, AFT, the working copy, its power. -/

namespace Sys2Proof.Machine

/-- Base frequency and AFT in use, as a tuning takes them from the table entry of the selection or from the direct frequency
(R95, R97). A base frequency beyond the range is saturated (log 15). -/
def State.entryOf (s : State) : Selection → Option Nat × Bool
  | .preset n =>
    match s.preset n with
    | some p => (some (saturateFrequency (p.frequency + p.fineTune)), p.aft)
    | none => (none, false)
  | .direct f => (some f, true)

/-- A tuning begins (R95). The line input leaves the synthesiser at the frequency it last held (R97). -/
def beginTuning (sel : Selection) (s : State) : State :=
  let e := s.entryOf sel
  postTune { s with tuner := { s.tuner with
    selection := sel
    base := e.1
    aftInUse := e.2
    correction := 0
    atLimit := false
    copy := .current
    synth := e.1.orElse fun _ => s.tuner.synth
    state := .tuning
    tuningStart := s.now
    settled := false
    failSince := none } }

/-- A tuning of the selection from the table (R95, R103, R107). -/
def retune (s : State) : State := beginTuning s.tuner.selection s

/-- The lock condition has been found: LOCKED, and the AFT period starts (R95, R99, R100). -/
def enterLocked (s : State) : State :=
  postTune { s with tuner := { s.tuner with
    state := .locked
    aftSince := s.now
    failSince := if s.lockCondition then none else some s.now } }

/-- NO_SIGNAL; from LOCKED the signal-loss latch is set (R95, R100). -/
def enterNoSignal (s : State) : State :=
  postTune { s with tuner := { s.tuner with
    state := .noSignal
    latch := s.tuner.latch || s.tuner.state == .locked
    failSince := none
    recheckSince := s.now } }

/-- The lock condition is tested after a change of an input it is made of: continuously in a settled tuning and in LOCKED, and
not while a scan has the synthesiser (R95, R100, R104). -/
def lockTest (s : State) : State :=
  if s.scan.inFlight then s
  else match s.tuner.state with
    | .tuning => if s.tuner.settled ∧ s.lockCondition then enterLocked s else s
    | .locked =>
      { s with tuner.failSince := if s.lockCondition then none else s.tuner.failSince.orElse fun _ => some s.now }
    | .idle | .noSignal => s

/-- The correction that a reading of the discriminator gives (R99). -/
def aftStep (c : Int) : Discriminator → Int
  | .high => if c < 8 then c + 1 else c
  | .low => if -8 < c then c - 1 else c
  | .centred => c

/-- A reading of the discriminator acts on the correction (R99). -/
def aftRead (d : Discriminator) (s : State) : State :=
  let old := s.tuner.correction
  let new := aftStep old d
  let saturated := new = old ∧ d ≠ .centred
  let back := new.natAbs < old.natAbs
  let limit := if saturated then true else if back then false else s.tuner.atLimit
  let t := { s.tuner with correction := new, atLimit := limit, aftSince := s.now }
  let t := { t with synth := if t.tuned = s.tuner.tuned then t.synth else t.tuned }
  let next := { s with tuner := t }
  if limit = s.tuner.atLimit then next else postTune next

/-- The tuner loses its power: IDLE, with the correction 0 and the latch kept (R107). -/
def tunerOff (s : State) : State :=
  postTune { s with tuner := { s.tuner with
    state := .idle
    correction := 0
    atLimit := false
    settled := false
    failSince := none } }

/-- The TIMER class releases the TUNER claim: a STALE working copy is retuned, or becomes CURRENT while the tuner is IDLE
(R103, R188). -/
def releaseTimerTuner (s : State) : State :=
  if s.tunerOf.isTimer then
    let s := setTunerClaim .free s
    if s.tuner.copy = .current then s
    else if s.tuner.state = .idle then postTune { s with tuner.copy := .current }
    else retune s
  else s

/-- What a write of a preset does to the working tuning: `changed` says that frequency, fine tune or AFT enabled differ from the
entry before (R102, R103). -/
def tuningWrite (n : Nat) (changed : Bool) (s : State) : State :=
  if !changed || s.tuner.selection != .preset n || s.tuner.state == .idle then s
  else match s.tunerOf with
    | .free | .direct => retune s
    | .scan => s
    | .timer _ => if s.tuner.copy = .stale then s else postTune { s with tuner.copy := .stale }

/-- A used record is written into a preset 1..99 (R90, R121). -/
def writePreset (n : Nat) (p : Preset) (s : State) : State :=
  let changed := (s.preset n).elim true fun old =>
    old.frequency != p.frequency || old.fineTune != p.fineTune || old.aft != p.aft
  tuningWrite n changed (s.withPreset n (some p))

/-- A preset is eligible for stepping (R98). -/
def State.eligible (s : State) (n : Nat) : Bool := (s.preset n).any fun p => !p.skip

/-- The walk of STEP_UP: from the preset after the selection upward, from 99 round to 1, the selection last (R98). -/
def State.stepUp (s : State) : Option Nat :=
  let start := match s.tuner.selection with
    | .preset n => n
    | .direct _ => 0
  ((List.range 99).map fun k => (start + k) % 99 + 1).find? s.eligible

/-- The walk of STEP_DOWN: from the preset before the selection downward, from 1 round to 99, the selection last (R98). -/
def State.stepDown (s : State) : Option Nat :=
  let start := match s.tuner.selection with
    | .preset n => if n = 0 then 100 else n
    | .direct _ => 100
  ((List.range 99).map fun k => (start + 196 - k) % 99 + 1).find? s.eligible

end Sys2Proof.Machine
end

