-- ==== Sys2Proof/Machine/ScanUnit.lean ====
section
/-! DEFINITION. The scan unit's operations (R112 to R122): dwells, peak searches, finds, endings, adoption. -/

namespace Sys2Proof.Machine

/-- The scan loads a frequency into the synthesiser and a dwell begins (R113, R114). -/
def loadScan (f : Nat) (s : State) : State :=
  { s with scan.current := some f, scan.dwellStart := s.now, tuner.synth := some f }

/-- STEPPING at a step frequency, with its dwell (R113). -/
def stepScan (f : Nat) (s : State) : State :=
  loadScan f { s with scan := { s.scan with state := .stepping, step := some f, window := none, best := none } }

/-- The ending of a scan in flight (R117): the resume point is the step frequency held, but for COMPLETE and FULL. -/
def endScan (e : ScanEnding) (by_ : Option ScanStopper) (s : State) : State :=
  let resume := if e = .complete ∨ e = .full then none else s.scan.step
  postScan { s with scan := { s.scan with
    state := .idle
    step := none
    current := none
    window := none
    best := none
    resume := resume
    lastEnding := some e
    stoppedBy := by_ } }

/-- After COMPLETE, FULL and SCAN_STOP the claim passes to the direct activity and the selection is tuned from the table (R104,
R117). -/
def endScanToDirect (e : ScanEnding) (by_ : Option ScanStopper) (s : State) : State :=
  retune (setTunerClaim .direct (endScan e by_ s))

/-- A scan that is in flight ends without a tuning of its own (R109, R117, R118). -/
def cutScan (e : ScanEnding) (by_ : Option ScanStopper) (s : State) : State :=
  if s.scan.inFlight then endScan e by_ s else s

/-- The scan walks on from a step frequency that gave no find or a faded one (R113, R114). -/
def walkOn (f : Nat) (s : State) : State :=
  if f < Config.highestFrequency then stepScan (Nat.min (f + 5) Config.highestFrequency) s
  else endScanToDirect .complete none s

/-- A find begins a peak search around its step frequency (R114). The best reading is absent until the search has read its first
frequency: R110 calls it present in PEAK_SEARCH, and nothing has been read before that (DESIGN CHOICE, log 48). -/
def beginPeak (f : Nat) (s : State) : State :=
  let low := Nat.max (f - 20) Config.lowestFrequency
  let high := Nat.min (f + 20) Config.highestFrequency
  loadScan low { s with scan := { s.scan with state := .peakSearch, window := some (low, high), best := none } }

/-- An entry conflicts with a frequency (R115). -/
def conflicts (x : Nat) (e : Nat × Nat) : Bool := decide (x < e.1 + 20) && decide (e.1 < x + 20)

/-- An entry is put in its place in frequency order. -/
def insertEntry (e : Nat × Nat) : List (Nat × Nat) → List (Nat × Nat)
  | [] => [e]
  | h :: t => if e.1 < h.1 then e :: h :: t else h :: insertEntry e t

/-- The found list after a find, if it changes (R115). -/
def enterFind (x strength : Nat) (found : List (Nat × Nat)) : Option (List (Nat × Nat)) :=
  let rivals := found.filter (conflicts x)
  if rivals.all (fun e => decide (e.2 < strength)) then
    if rivals = [] ∧ 99 ≤ found.length then none
    else some (insertEntry (x, strength) (found.filter fun e => !conflicts x e))
  else none

/-- The scan continues past a find made at step frequency f with its peak at x (R116). -/
def passFind (f x : Nat) (s : State) : State :=
  let next := Nat.max (x + 20) (f + 5)
  if Config.highestFrequency < next then endScanToDirect .complete none s else stepScan next s

/-- The peak search that began at f has read its whole window (R114 to R116). -/
def concludePeak (f : Nat) (best : Nat × Nat) (s : State) : State :=
  if best.2 < 6 then walkOn f s
  else match enterFind best.1 best.2 s.scan.found with
    | none => passFind f best.1 s
    | some found =>
      let grown := decide (s.scan.found.length < found.length)
      let s := postScan { s with scan.found := found, scan.finds := Nat.min 255 (s.scan.finds + 1) }
      if grown && found.length == 99 then endScanToDirect .full none s else passFind f best.1 s

/-- The end of a dwell in STEPPING: the strength is read once (R113). -/
def stepRead (s : State) : State :=
  match s.scan.step with
  | none => s
  | some f => if 6 ≤ s.pins.strength.toNat then beginPeak f s else walkOn f s

/-- A reading higher than the best becomes the best (R114). -/
def betterReading (best : Option (Nat × Nat)) (r : Nat × Nat) : Nat × Nat :=
  match best with
  | none => r
  | some b => if b.2 < r.2 then r else b

/-- The end of a dwell in PEAK_SEARCH (R114). -/
def peakRead (s : State) : State :=
  match s.scan.step, s.scan.current, s.scan.window with
  | some f, some x, some w =>
    let best := betterReading s.scan.best (x, s.pins.strength.toNat)
    let s := { s with scan.best := some best }
    if x < w.2 then loadScan (x + 1) s else concludePeak f best s
  | _, _, _ => s

/-- A scan starts at a step frequency (R112): the tuner is TUNING for the whole scan (R104). -/
def startScan (first : Nat) (found : List (Nat × Nat)) (s : State) : State :=
  let s := { s with
    tuner.state := .tuning, tuner.failSince := none
    scan := { s.scan with found := found, finds := 0, lastEnding := none, stoppedBy := none, resume := none } }
  postScan (stepScan first s)

/-- What an adoption has done so far: presets written, entries left (R120). -/
structure Adoption where
  state   : State
  written : List Nat
  left    : List (Nat × Nat)

/-- The record that an adopted entry becomes (R120). -/
def adoptedPreset (frequency : Nat) : Preset :=
  { frequency := frequency, fineTune := 0, aft := true, skip := false, lock := false, label := [] }

/-- A preset is writable by an adoption (R120). -/
def State.writable (s : State) (replace : Bool) (n : Nat) : Bool :=
  match s.preset n with
  | none => true
  | some p => replace && !p.lock && s.references n == 0

/-- The walk of an adoption reaches one preset (R120). -/
def adoptStep (replace : Bool) (a : Adoption) (n : Nat) : Adoption :=
  match a.left with
  | [] => a
  | e :: rest =>
    if a.state.writable replace n then
      { state := writePreset n (adoptedPreset e.1) a.state, written := a.written ++ [n], left := rest }
    else a

/-- The adoption walks the presets from p to 99 (R120). -/
def adopt (replace : Bool) (p : Nat) (s : State) : Adoption :=
  ((List.range (100 - p)).map (p + ·)).foldl (adoptStep replace) { state := s, written := [], left := s.scan.found }

end Sys2Proof.Machine
end

