-- ==== Sys2Proof/Machine/Marks.lean ====
section
/-! DEFINITION. The cue mark unit's operations (R48 to R63): the writer's pattern, the decoder's tables, the mark history. -/

namespace Sys2Proof.Machine

/-- The shape of pulse k of a mark of the given code, k = 1..17 (R48). -/
def markShape (code : Byte) (k : Nat) : Shape :=
  if k ≤ 6 then .wide
  else if 8 ≤ k ∧ k ≤ 11 then (if code.getLsbD (15 - k) then .wide else .narrow)
  else if 13 ≤ k ∧ k ≤ 16 then (if code.getLsbD (16 - k) then .wide else .narrow)
  else .narrow

/-- A record is added to the ring of sixteen, and the pass count rises (R59, R61). -/
def recordPass (r : MarkRecord) (s : State) : State :=
  let h := s.marks.history ++ [r]
  { s with
    marks.history := h.drop (h.length - 16)
    marks.passCount := Nat.min 255 (s.marks.passCount + 1) }

/-- The record of a mark that was written whole or cut (R51, R53). -/
def writtenRecord (position : Int) (kind : MarkKind) : MarkRecord :=
  { position := position, direction := .forward, origin := .written, kind := kind }

/-- The position of a mark that is cut: the free value of `Config` stands for one cut before its first pulse (R58, log 17). -/
def State.cutPosition (s : State) (w : Writing) : Int :=
  w.position.getD (clampTo (-s.counterBound) s.counterBound (Config.unwrittenMarkPosition s.tape.counter))

/-- RECORD is left while a mark is being written: a cut mark is recorded (R53). -/
def cutMark (s : State) : State :=
  match s.marks.writer with
  | none => s
  | some w =>
    let r := writtenRecord (s.cutPosition w) .damaged
    postMark r (recordPass r { s with marks.writer := none })

/-- The writer begins a mark (R50, R52). -/
def startMark (code : Byte) (s : State) : State :=
  { s with marks.writer := some { next := 1, code := code, position := none } }

/-- The decoder enters HUNT: bits and candidate are cleared (R54). -/
def Decoder.hunt (d : Decoder) (boundary : Bool) : Decoder :=
  { d with state := .hunt, boundary := boundary, bits := [], candidate := none }

/-- The decoder as a mode is reached (R54). -/
def Decoder.follow (d : Decoder) (m : Mode) (now : Nat) : Decoder :=
  if m.reading then
    match m.direction with
    | some dir =>
      if d.state = .off ∨ d.direction ≠ dir then { d.hunt true with direction := dir, gapStart := now } else d
    | none => d
  else { d.hunt true with state := .off }

/-- The code formed from eight bits, the first collected being bit 7 (R55). -/
def codeOf (bits : List Bool) : Byte := byteOf (bits.foldl (fun n b => 2 * n + (if b then 1 else 0)) 0)

/-- What a pulse makes of a partial mark. -/
inductive Decoded where
  | coded (code : Byte)
  | anonymous
  | damaged
  deriving DecidableEq, Repr

def Decoded.kind : Decoded → MarkKind
  | .coded c => .coded c
  | .anonymous => .anonymous
  | .damaged => .damaged

/-- The decoder state after the six wide pulses, as the next bit is collected. -/
def Decoder.collect (d : Decoder) (next : DecoderState) (wide : Bool) : Decoder :=
  { d with state := next, bits := d.bits ++ [wide] }

/-- A pulse read in FORWARD, by the table of R55. `counter` is the value that the pulse brings the counter to. -/
def Decoder.forward (d : Decoder) (wide : Bool) (counter : Int) : Decoder × Option Decoded :=
  match d.state with
  | .off => (d, none)
  | .hunt =>
    if wide then
      if d.boundary then ({ d with state := .preamble 1, candidate := some counter }, none) else (d, none)
    else (d.hunt true, none)
  | .preamble n =>
    if n < 6 then (if wide then { d with state := .preamble (n + 1) } else d.hunt true, none)
    else (if wide then d.hunt false else { d with state := .high 0 }, none)
  | .high n => (d.collect (if n < 3 then .high (n + 1) else .mid) wide, none)
  | .mid => if wide then (d.hunt false, some .damaged) else ({ d with state := .low 0 }, none)
  | .low n => (d.collect (if n < 3 then .low (n + 1) else .tail) wide, none)
  | .tail => if wide then (d.hunt false, some .damaged) else (d.hunt true, some (.coded (codeOf d.bits)))

/-- A pulse read in REVERSE, by the table of R57. `counter` is the value before the pulse was counted. -/
def Decoder.reverse (d : Decoder) (wide : Bool) (counter : Int) : Decoder × Option Decoded :=
  match d.state with
  | .hunt =>
    if wide then
      if d.boundary then ({ d with state := .preamble 1, candidate := some counter }, none) else (d, none)
    else (d.hunt true, none)
  | .preamble n =>
    if n < 6 then
      (if wide then { d with state := .preamble (n + 1), candidate := some counter } else d.hunt true, none)
    else if wide then (d.hunt false, none)
    else (d.hunt true, some .anonymous)
  | .off | .high _ | .mid | .low _ | .tail => (d, none)

/-- The mark that ends a decoding, with the candidate position (R58). -/
def Decoder.record (d : Decoder) (m : Decoded) : MarkRecord :=
  { position := d.candidate.getD 0, direction := d.direction, origin := .read, kind := m.kind }

/-- A pulse is read: the gap start is set, the decoder moves by its direction's table (R54, R55, R57). -/
def Decoder.pulse (d : Decoder) (shape : Shape) (before after : Int) (now : Nat) : Decoder × Option MarkRecord :=
  let wide := shape == .wide
  let r := match d.direction with
    | .forward => d.forward wide after
    | .reverse => d.reverse wide before
  ({ r.1 with gapStart := now }, r.2.map d.record)

/-- A gap expires (R56). -/
def Decoder.gap (d : Decoder) (now : Nat) : Decoder × Option MarkRecord :=
  let result : Option Decoded := match d.state with
    | .off | .hunt => none
    | .preamble n => if n < 6 then none else if d.direction = .forward then some .damaged else some .anonymous
    | .high _ | .mid | .low _ | .tail => some .damaged
  match d.state with
  | .off => (d, none)
  | _ => ({ d.hunt true with gapStart := now }, result.map d.record)

/-- Ten frame periods (R56). -/
def State.gapLimit (s : State) : Nat := 10 * Config.unitsPerSecond / s.settings.frameRate

end Sys2Proof.Machine
end

