-- ==== Sys2Proof/Machine/Tape.lean ====
section
/-! DEFINITION. The tape position unit's operations (R29 to R47): reel periods, class identification, the estimate, the tape
counter. -/

namespace Sys2Proof.Machine

/-- A reel's interval list is emptied; its 30 s go on from its last accepted pulse (R31, R32; log 26). -/
def ReelMeter.empty (m : ReelMeter) (st : PeriodState) : ReelMeter := .emptied st m.lastAccepted

/-- Both interval lists are emptied (R31). -/
def emptyLists (st : PeriodState) (s : State) : State :=
  { s with tape.supply := s.tape.supply.empty st, tape.takeUp := s.tape.takeUp.empty st }

/-- Both reels as the pulse timing starts, at a cold start and at a restore: the 30 s count from here (R46; log 26). -/
def startReels (st : PeriodState) (s : State) : State :=
  { s with tape.supply := .emptied st s.now, tape.takeUp := .emptied st s.now }

def State.reel (s : State) : Reel → ReelMeter
  | .supply => s.tape.supply
  | .takeUp => s.tape.takeUp

def State.withReel (s : State) (r : Reel) (m : ReelMeter) : State :=
  match r with
  | .supply => { s with tape.supply := m }
  | .takeUp => { s with tape.takeUp := m }

/-- The interval list after an interval: at most the four most recent (R30). -/
def ReelMeter.append (m : ReelMeter) (interval : Nat) : List Nat :=
  let l := m.intervals ++ [interval]
  l.drop (l.length - 4)

/-- The sum of four intervals, when the list holds four. -/
def periodOf (l : List Nat) : Option Nat := if l.length = 4 then some l.sum else none

/-- A pulse is noise: it would refresh the period below 40 ticks (R30). -/
def ReelMeter.noise (m : ReelMeter) (interval : Nat) : Bool :=
  m.opened && (periodOf (m.append interval)).any (· < 40)

/-- An accepted pulse (R30, R31): the first after the list has been emptied starts the first interval and ends none. -/
def ReelMeter.accept (m : ReelMeter) (interval now : Nat) : ReelMeter :=
  if m.opened then
    let l := m.append interval
    match periodOf l with
    | none => { m with intervals := l, lastAccepted := now }
    | some p =>
      if p ≤ 60000 then { m with intervals := l, period := p, state := .valid, lastAccepted := now }
      else { m with intervals := l, period := 60000, state := .slow, lastAccepted := now }
  else { m with opened := true, state := .collecting, lastAccepted := now }

/-- A pulse that refreshes the reel's period (R30). -/
def ReelMeter.refreshes (m : ReelMeter) (interval : Nat) : Bool := m.opened && (periodOf (m.append interval)).isSome

/-- The conditions of R33 no longer hold: the count and the candidate are cleared, and with them the time of the last computation, so
that the first refresh after they hold again makes one (DESIGN CHOICE, log 39). -/
def checkIdentifying (s : State) : State :=
  if s.identifying then s else { s with tape.idCount := 0, tape.candidate := none, tape.lastIdent := none }

/-- In a threaded motion a period that is not VALID holds the estimate (R38). -/
def checkHeld (s : State) : State :=
  if s.transport.mode.motion && s.tape.fraction.isSome && !s.bothValid && !s.tape.held then
    postTape { s with tape.held := true }
  else s

/-- The class becomes known at the fifth computation in one band, and a TAPE note is posted (R34; log 39). -/
def identify (c : CassetteClass) (s : State) : State :=
  postTape { s with tape := { s.tape with
    cls := some c, origin := .identified, idCount := 0, candidate := none, lastIdent := none } }

/-- An identification computation (R33, R34). -/
def identificationComputation (s : State) : State :=
  let sigma := (s.capstanClass.getD .standard).sigma
  let band := classBand (identificationSum s.tape.supply.period s.tape.takeUp.period sigma)
  let s := { s with tape.lastIdent := some s.now }
  match band with
  | none => { s with tape.candidate := none, tape.idCount := 0 }
  | some c =>
    let count := if s.tape.candidate = some c then s.tape.idCount + 1 else 1
    if count = 5 then identify c s else { s with tape.candidate := some c, tape.idCount := count }

/-- A time is absent, or lies at least one second before now. -/
def secondPassed (since : Option Nat) (now : Nat) : Bool := since.all fun t => decide (t + Config.unitsPerSecond ≤ now)

/-- A refresh makes an identification computation when it is due (R33). -/
def refreshIdentification (s : State) : State :=
  if s.identifying && secondPassed s.tape.lastIdent s.now then identificationComputation s else s

/-- An estimate computation is due at a refresh (R36). -/
def State.estimateDue (s : State) : Bool := s.estimating && secondPassed s.tape.lastEstimate s.now

/-- An estimate computation (R36, R37): a TAPE note is posted if it makes f present or clears the held flag. -/
def estimateComputation (s : State) : State :=
  match s.tape.cls with
  | none => s
  | some c =>
    let f := supplyFraction s.tape.supply.period s.tape.takeUp.period c.hubShare
    let noted := s.tape.fraction.isNone || s.tape.held
    let s := { s with tape := { s.tape with fraction := some f, held := false, lastEstimate := some s.now } }
    if noted then postTape s else s

/-- The counter quality becomes DRIFTED (R42, R43); a go-to in flight keeps its drifted flag (R71). -/
def drift (s : State) : State :=
  if s.tape.quality = .drifted then s
  else
    let g := s.nav.goto
    postTape { s with tape.quality := .drifted, nav.goto := { g with drifted := g.drifted || g.active } }

/-- The untracked time of a go-to in flight returns to 0 (R71). -/
def Goto.tracked (g : Goto) : Goto := if g.active then { g with untracked := 0 } else g

/-- The track time of a run in PLAYING returns to 0 (R83). -/
def Run.tracked (r : Run) : Run :=
  match r.state with
  | .playing _ => { r with track := 0 }
  | .idle | .seeking _ | .ending | .done => r

/-- A control pulse moves the counter, or finds it at its bound (R42); it starts the no-track span again (R43), and the track
times return to 0 (R71, R83). -/
def countPulse (d : Direction) (s : State) : State :=
  let s := { s with tape.spanStart := some s.now, nav.goto := s.nav.goto.tracked, nav.run := s.nav.run.tracked }
  let c := s.tape.counter
  match d with
  | .forward => if c < s.counterBound then { s with tape.counter := c + 1 } else drift s
  | .reverse => if -(s.counterBound : Int) < c then { s with tape.counter := c - 1 } else drift s

/-- A reel pulse in a threaded motion more than 2 s after the start of the no-track span (R43). -/
def driftByReel (s : State) : State :=
  match s.tape.spanStart with
  | none => s
  | some t => if s.transport.mode.motion && decide (t + seconds 2 < s.now) then drift s else s

/-- The cassette state is reset at a cassette load and at an eject (R45). -/
def resetCassette (st : PeriodState) (s : State) : State :=
  let s := emptyLists st s
  postTape { s with tape := { s.tape with
    cls := none, origin := .none, idCount := 0, candidate := none, lastIdent := none, fraction := none, held := false,
    counter := 0, quality := .exact, spanStart := none } }

end Sys2Proof.Machine
end

