-- ==== Sys2Proof/Machine/Transport.lean ====
section
/-! DEFINITION. The transport controller's operations (R3 to R28): reaching a mode, the steps of a path, taking a target. Every
step of a path begins here; steps end in the events of MechanismEvents.lean. -/

namespace Sys2Proof.Machine

/-- The recording class as a mode is reached (R17): set at an entry to RECORD from the setting or from the scheduler's target,
kept through REC_PAUSE, absent elsewhere. -/
def Transport.classAt (t : Transport) (m : Mode) : Option Speed :=
  match m with
  | .record =>
    match t.recordOrder with
    | .operator => some t.recordSpeed
    | .timer v _ => some v
  | .recPause => t.recordClass
  | _ => none

/-- The code of the entry mark of an entry to RECORD from the mode left (R50). -/
def State.entryMark (s : State) (left : Mode) : Option Byte :=
  match s.transport.recordOrder with
  | .operator => if left = .threading ∨ left = .recPause then s.settings.defaultMark else none
  | .timer _ mark => mark

/-- A threaded motion reached empties both interval lists and starts the no-track span; every other mode ends the span (R31,
R43). -/
def tapeAtMode (m : Mode) (s : State) : State :=
  if m.motion then { emptyLists .collecting s with tape.spanStart := some s.now } else { s with tape.spanStart := none }

/-- The writer as a mode is reached: an entry to RECORD may start a mark, and every other mode cuts one (R50, R53). -/
def writerAtMode (left m : Mode) (s : State) : State :=
  if m = .record then
    match s.entryMark left with
    | some code => startMark code s
    | none => s
  else if left = .record then cutMark s
  else s

/-- The mode reached event of R7: the mode takes its value, the target is cleared if the mode equals it (R4), a DECK_RESET
sequence ends in STOP, EMPTY and FAULT (R189), the position and cue mark units follow the mode, and the MODE note is posted before the note of a mark that is cut. -/
def enterMode (m : Mode) (change : Option Change) (s : State) : State :=
  let left := s.transport.mode
  let t := s.transport
  let s := { s with
    transport := { t with
      mode := m
      change := change
      target := if t.target = some m then none else t.target
      recordClass := t.classAt m
      leaderSeen := false
      relockPending := false
      lockLostAt := none
      resetInFlight := t.resetInFlight && m != .stop && m != .empty && m != .fault
      modeReachedAt := s.now
      detect := if m = .play then some { start := s.now, count := 0 } else none
      lastPlayPulse := if m = .play then s.now else t.lastPlayPulse }
    marks.decoder := s.marks.decoder.follow m s.now }
  writerAtMode left m (postMode (tapeAtMode m s))

/-- The mode of a mechanical step in flight (R7). -/
def MechStep.mode : MechStep → Mode
  | .loading => .loading
  | .ejecting => .ejecting
  | .threading => .threading
  | .unthreading => .unthreading

/-- A mechanical step begins, with its allowance of 4.0 s (R12). -/
def beginMech (step : MechStep) (s : State) : State :=
  enterMode step.mode (some (.mech step)) { s with transport.stepStart := s.now }

/-- An unthreading begins; `e` says what it does when STOP is reached. -/
def beginUnthreading (e : UnthreadEnd) (s : State) : State :=
  beginMech .unthreading { s with transport.unthreadEnd := e }

/-- A servo change begins or is redirected, with a fresh allowance of 1.0 s (R6, R14). -/
def beginServo (toward : Mode) (s : State) : State :=
  { s with transport := { s.transport with
    change := some (.servo toward), servoStart := s.now, lockLostAt := none, relockPending := false } }

/-- The target held is dropped, and a MODE note is posted (R4). -/
def dropTarget (s : State) : State := postMode { s with transport.target := none }

/-- A recording target without the record tab is refused PROTECTED (R5). -/
def State.tabForbids (s : State) (m : Mode) : Bool := (m == .record || m == .recPause) && !s.transport.recordTab

/-- A recording target is dropped where the path is chosen: without the record tab (R4), and with dew, under which RECORD and REC_PAUSE
are never entered (R16; log 11). -/
def State.recordForbidden (s : State) (m : Mode) : Bool := (m == .record || m == .recPause) && (!s.transport.recordTab || s.transport.dew)

/-- The next step from the mode now reached and the target now held, by the table of R4. No mechanical step is in flight. -/
def choosePath (s : State) : State :=
  match s.transport.target with
  | none => s
  | some m =>
    if s.transport.mode = .stop then
      if m = .empty then beginMech .ejecting s
      else if m = .stop then { s with transport.target := none }
      else if s.tabForbids m || s.transport.dew then dropTarget s
      else beginMech .threading s
    else if s.transport.mode.threaded || s.servoInFlight then
      if m = .stop ∨ m = .empty then beginUnthreading .plain s
      else if s.recordForbidden m then dropTarget s
      else if m = s.transport.mode ∧ s.transport.change = none then { s with transport.target := none }
      else if s.transport.change = some (.servo m) then s
      else beginServo m s
    else s

/-- The changes outside a mode reached event that post the MODE note (R7). -/
def Transport.notedChange (old new : Transport) : Bool :=
  old.target != new.target || old.cassettePresent != new.cassettePresent || old.recordTab != new.recordTab ||
    old.dew != new.dew || old.playSpeed != new.playSpeed || old.recordSpeed != new.recordSpeed ||
    old.stopCause != new.stopCause || old.faultCause != new.faultCause

/-- The MODE note of a change that no mode reached event and no drop has posted already: `old` is the record before (R7). -/
def noteChange (old : Transport) (s : State) : State :=
  if old.mode = s.transport.mode ∧ old.notedChange s.transport then postMode s else s

/-- The target now held would be dropped at once by R4. -/
def State.wouldDrop (s : State) (m : Mode) : Bool :=
  (s.transport.mode == .stop && m != .empty && m != .stop && (s.tabForbids m || s.transport.dew)) ||
    ((s.transport.mode.threaded || s.servoInFlight) && s.recordForbidden m)

/-- A target is given (R6): it replaces the target held, and takes effect at the end of a mechanical step in flight. In EMPTY,
EJECTING and FAULT no target is taken. `cause` is the stop cause that then stands (R20). -/
def setTarget (m : Mode) (cause : Option StopCause) (s : State) : State :=
  let t := s.transport
  if t.mode = .empty ∨ t.mode = .ejecting ∨ t.mode = .fault then s
  else
    let s := { s with transport := { t with target := some m, stopCause := cause } }
    if s.mechInFlight then noteChange t s
    else if s.wouldDrop m then choosePath s
    else noteChange t (choosePath s)

/-- A target from an activity: it also ends the stop cause of an earlier protection stop (R20). -/
def giveTarget (m : Mode) (s : State) : State := setTarget m none s

/-- A RECORD target carries who gave it, and the scheduler's speed and mark (R17, R50). -/
def giveRecord (o : RecordOrder) (s : State) : State := giveTarget .record { s with transport.recordOrder := o }

/-- The signal of a cassette load to the position, cue mark and navigation units (R8, R45, R62). R86 says that it finds the watch list
and the segment list empty; entries that it finds nevertheless, taken in the UNTHREADING of a cold start or in FAULT before the LOADING
of a recovery, stay (DESIGN CHOICE, log 59). The mark writer and the decoder are IDLE and OFF in STOP. -/
def cassetteLoad (s : State) : State := { resetCassette .collecting s with marks.history := [] }

end Sys2Proof.Machine
end

