-- ==== Sys2Proof/Machine/Navigation.lean ====
section
/-! DEFINITION. The navigation unit's operations (R64 to R87): go-tos, watches, segment runs. -/

namespace Sys2Proof.Machine

/-! ### Endings -/

/-- The landing point: the counter target, or the tail of the landing mark (R68). -/
def Goto.landingPoint (g : Goto) : Int :=
  match g.form with
  | .counter v => v
  | .markForward _ _ | .markBackward _ => g.landingMark.elim 0 fun r => r.position + 16

/-- A go-to ends: IDLE with its outcome, and the GOTO note (R72). -/
def closeGoto (o : GotoOutcome) (s : State) : State :=
  let g := s.nav.goto
  let c := s.tape.counter
  postGoto { s with nav.goto := { g with
    active := false
    outcome := some o
    landed := if o = .done then some c else none
    overshoot := if o = .done then some (c - g.landingPoint) else none } }

/-- A run ends: DONE with its result, and the RUN note (R85). -/
def closeRun (r : RunResult) (s : State) : State :=
  postRun { s with nav.run.state := .done, nav.run.result := some r }

/-- The go-to or run that holds the mechanism ends as its claim is preempted or replaced (R184); a run's go-to ends with it. -/
def endOperator (o : GotoOutcome) (r : RunResult) (s : State) : State :=
  match s.mech with
  | .operator .goTo => if s.nav.goto.active then closeGoto o s else s
  | .operator .run =>
    let s := if s.nav.goto.active then closeGoto o s else s
    if s.nav.run.state.active then closeRun r s else s
  | .free | .operator .direct | .timer _ | .protect _ => s

/-- A grant of the MECHANISM claim at OPERATOR class: the activity that held it ends REPLACED, and a DECK_RESET sequence in
flight ends (R183, R184, R189). -/
def grantOperator (a : OperatorActivity) (s : State) : State :=
  setMech (.operator a) { endOperator .replaced .replaced s with transport.resetInFlight := false }

/-- The target that the endings NO_TRACK, FAILED, CANCELLED and STOPPED give (R72, R85; log 18). -/
def giveRest (s : State) : State :=
  let m := s.transport.mode
  if m.threaded || m == .threading || s.servoInFlight then giveTarget .still s
  else if m == .stop || m == .unthreading then giveTarget .stop s
  else s

/-- The claim passes to the direct activity (R72, R85), and is released in STOP and EMPTY (R185). -/
def passToDirect (s : State) : State := releaseIfStill (setMech (.operator .direct) s)

/-- A go-to ends NO_TRACK, FAILED or CANCELLED (R72); one owned by a run ends the run (R83, R85). -/
def failGoto (o : GotoOutcome) (r : RunResult) (s : State) : State :=
  let owner := s.nav.goto.owner
  let s := giveRest (closeGoto o s)
  match owner with
  | .host => passToDirect s
  | .run _ => passToDirect (closeRun r s)

/-! ### Starting and landing -/

/-- The go-to record is filled at acceptance (R65). -/
def fillGoto (owner : Owner) (form : GotoForm) (final : FinalAction) (s : State) : State :=
  { s with nav.goto :=
    { Goto.idle with
      active := true, owner := owner, form := form, final := final, drifted := s.tape.quality == .drifted } }

/-- The go-to stands in LANDING with the transport settled in the final action's mode (R68). -/
def State.landedAtOnce (s : State) : Bool :=
  s.nav.goto.active && s.nav.goto.phase == .landing && s.transport.mode == s.nav.goto.final.mode && s.settled

/-- LANDING: the final action is given as the target, unless it is already reached (R68). -/
def landTarget (s : State) : State :=
  let s := { s with nav.goto.phase := .landing }
  if s.landedAtOnce then s else giveTarget s.nav.goto.final.mode s

/-- A phase with its approach direction, and the target that goes with it. -/
def pursue (phase : GotoPhase) (d : Direction) (m : Mode) (s : State) : State :=
  giveTarget m { s with nav.goto.phase := phase, nav.goto.approach := d }

/-- The direction toward a positive or negative distance (R66). -/
def directionToward (distance : Int) : Direction := if distance < 0 then .reverse else .forward

/-- The first target of a go-to (R66, R69, R70). A FORWARD mark go-to gives none when SEARCH_FWD already stands (log 18).
At distance 0 the approach direction stays FORWARD, as fillGoto leaves it (DESIGN CHOICE, log 18). -/
def aimGoto (s : State) : State :=
  match s.nav.goto.form with
  | .counter target =>
    let distance := target - s.tape.counter
    let d := directionToward distance
    if distance = 0 then landTarget s
    else if s.approach < distance.natAbs then pursue .wind d d.windMode s
    else pursue .search d d.searchMode s
  | .markForward _ _ =>
    if s.transport.mode = .searchFwd ∧ s.transport.change = none then
      { s with nav.goto.phase := .counting, nav.goto.approach := .forward }
    else pursue .counting .forward .searchFwd s
  | .markBackward _ => pursue .counting .reverse .windRev s

/-! ### Segment runs (R83, R84) -/

/-- Segment i of the list, counted from 1. -/
def Run.segment (r : Run) (i : Nat) : Option Segment := if i = 0 then none else r.segments[i - 1]?

/-- Each change of a run's state posts the RUN note (R83). -/
def setRunState (st : RunState) (s : State) : State := postRun { s with nav.run.state := st }

/-- The last segment has ended: ENDING, with the target of the end action (R84). -/
def beginEnding (s : State) : State :=
  giveTarget (s.nav.run.endAction.getD .stop).target (setRunState .ending s)

/-- SEEKING(i): a counter go-to toward the segment's start with the final action PLAY (R82, R83). -/
def openSegment (i : Nat) (s : State) : State :=
  let start := (s.nav.run.segment i).elim 0 (·.start)
  aimGoto (fillGoto (.run i) (.counter start) .play (setRunState (.seeking i) s))

/-- PLAYING(i): the go-to has ended DONE, the track time begins from 0 (R83). -/
def enterPlaying (i : Nat) (s : State) : State :=
  let s := closeGoto .done s
  setRunState (.playing i) { s with nav.run.track := 0 }

/-- The landing overshot the counter end of the segment (R83). -/
def State.segmentOver (s : State) (i : Nat) : Bool :=
  match s.nav.run.segment i with
  | none => false
  | some g =>
    match g.stop with
    | .counter v => decide (v ≤ s.tape.counter)
    | .nextMark => false

/-- SEEKING from segment i on. A go-to that lands at once leads straight on into PLAYING, and a segment that is over there to the
next one, within one event (R83). -/
def seekSegments : Nat → Nat → State → State
  | 0, _, s => s
  | fuel + 1, i, s =>
    let s := openSegment i s
    if s.landedAtOnce then
      let s := enterPlaying i s
      if s.segmentOver i then
        if i < s.nav.run.segments.length then seekSegments fuel (i + 1) s else beginEnding s
      else s
    else s

/-- Segment i ends (R83). -/
def endSegment (i : Nat) (s : State) : State :=
  if i < s.nav.run.segments.length then seekSegments (s.nav.run.segments.length - i) (i + 1) s else beginEnding s

/-- A go-to ends DONE (R68, R72, R83). -/
def gotoDone (s : State) : State :=
  match s.nav.goto.owner with
  | .host => passToDirect (closeGoto .done s)
  | .run i =>
    let s := enterPlaying i s
    if s.segmentOver i then endSegment i s else s

/-- A go-to enters LANDING in flight (R68). -/
def landGoto (s : State) : State :=
  let s := landTarget s
  if s.landedAtOnce then gotoDone s else s

/-- A go-to starts (R65). -/
def startGoto (owner : Owner) (form : GotoForm) (final : FinalAction) (s : State) : State :=
  let s := aimGoto (fillGoto owner form final s)
  if s.landedAtOnce then gotoDone s else s

/-! ### Counter steps, marks and modes (R66 to R70, R83) -/

/-- A step that reaches the counter target (R67). The direction from a counter that stands on the target toward it is the one
opposite to the step (log 18). -/
def crossTarget (step : Direction) (s : State) : State :=
  if s.transport.mode.wind then
    let n := s.nav.goto.reversals + 1
    let s := { s with nav.goto.reversals := n }
    if n = 4 then failGoto .failed .failed s else pursue .search step.opposite step.opposite.searchMode s
  else landGoto s

/-- A counter step meets the go-to in flight (R66, R67, R70). -/
def gotoStep (step : Direction) (s : State) : State :=
  let g := s.nav.goto
  if !g.active || g.phase == .landing then s
  else match g.form with
    | .counter target =>
      if s.tape.counter = target then crossTarget step s
      else if g.phase = .wind ∧ (target - s.tape.counter).natAbs ≤ s.approach then
        pursue .search g.approach g.approach.searchMode s
      else s
    | .markForward _ _ => s
    | .markBackward _ =>
      if g.phase = .returning ∧ step = .forward ∧ g.noted.any (fun p => p + 40 == s.tape.counter) then
        failGoto .failed .failed s
      else s

def MarkKind.isCoded : MarkKind → Bool
  | .coded _ => true
  | .anonymous | .damaged => false

/-- A mark is handed to the go-to in flight (R69, R70). -/
def gotoMark (r : MarkRecord) (s : State) : State :=
  let g := s.nav.goto
  if !g.active then s
  else match g.form, g.phase with
    | .markForward n filter, .counting =>
      if r.direction == .forward && r.kind.isCoded && filter.all (·.admits r) then
        let s := { s with nav.goto.counted := g.counted + 1 }
        if g.counted + 1 = n then landGoto { s with nav.goto.landingMark := some r } else s
      else s
    | .markBackward n, .counting =>
      if r.direction = .reverse ∧ r.kind ≠ .damaged then
        let s := { s with nav.goto.counted := g.counted + 1 }
        if g.counted + 1 = n then
          pursue .returning .forward .searchFwd { s with nav.goto.noted := some r.position, nav.goto.reversals := 1 }
        else s
      else s
    | .markBackward _, .returning =>
      if r.direction = .forward ∧ g.noted.any (fun p => decide ((r.position - p).natAbs ≤ 2)) then
        landGoto { s with nav.goto.landingMark := some r }
      else s
    | _, _ => s

/-- A mode reached event meets the go-to in flight (R66, R68). -/
def gotoAtMode (s : State) : State :=
  let g := s.nav.goto
  if !g.active then s
  else if g.phase = .landing then (if s.transport.mode = g.final.mode then gotoDone s else s)
  else match g.form, g.phase with
    | .counter target, .search =>
      let distance := target - s.tape.counter
      if s.transport.mode.search && decide (s.approach < distance.natAbs) then
        let d := directionToward distance
        pursue .wind d d.windMode s
      else s
    | _, _ => s

/-- A forward step onto the counter end of the segment in PLAYING (R83). -/
def runStep (step : Direction) (s : State) : State :=
  match s.nav.run.state with
  | .playing i =>
    if step = .forward ∧ (s.nav.run.segment i).map (·.stop) = some (.counter s.tape.counter) then endSegment i s else s
  | .idle | .seeking _ | .ending | .done => s

/-- A coded or anonymous mark at or after the start of a segment that ends at the next mark (R83). -/
def runMark (r : MarkRecord) (s : State) : State :=
  match s.nav.run.state with
  | .playing i =>
    match s.nav.run.segment i with
    | some g => if g.stop = .nextMark ∧ r.kind ≠ .damaged ∧ g.start ≤ r.position then endSegment i s else s
    | none => s
  | .idle | .seeking _ | .ending | .done => s

/-! ### Watches (R76 to R80) -/

def DirectionFilter.permits (f : DirectionFilter) (d : Direction) : Bool :=
  match f with
  | .both => true
  | .forward => d == .forward
  | .reverse => d == .reverse

/-- A watch entry matches a counter step or a mark (R76, R77). REMAIN entries match at their evaluation alone. -/
def Watch.matched (w : Watch) : Firing → Bool
  | .counter v d =>
    match w.kind with
    | .counter value f => value == v && f.permits d
    | .markAny | .markCoded _ | .remain _ => false
  | .mark r =>
    match w.kind with
    | .markAny => r.kind != .damaged
    | .markCoded f => f.admits r
    | .counter _ _ | .remain _ => false
  | .remain _ => false

/-- The action of a firing entry is taken and not suppressed (R80). -/
def State.actionsTaken (s : State) : Bool :=
  s.mech == .operator .direct && !s.nav.goto.active && !s.nav.run.state.active && !s.inStandby

/-- The more restrictive of two actions (R80). -/
def moreRestrictive (a b : WatchAction) : WatchAction :=
  if a = .stop ∨ b = .stop then .stop
  else if a = .still ∨ b = .still then .still
  else if a = .play ∨ b = .play then .play
  else .note

/-- What the firings of one event have done so far: the state, and the action to be given at the end. -/
structure Fired where
  state  : State
  action : WatchAction

/-- An entry whose count has reached 0 fires (R79, R80). -/
def fireWatch (place : Nat) (w : Watch) (f : Firing) (a : Fired) : Fired :=
  let s := a.state
  let taken := w.action == .note || s.actionsTaken
  let w := { w with fires := Nat.min 255 (w.fires + 1), count := if w.again then w.setCount else 0 }
  let s := s.withWatch place (if w.again then some w else none)
  { state := post (.watch place) (watchNoteBytes w place w.again taken f) s
    action := if taken then moreRestrictive a.action w.action else a.action }

/-- A match takes one from the entry's count (R79). -/
def matchWatch (place : Nat) (w : Watch) (f : Firing) (a : Fired) : Fired :=
  if w.count ≤ 1 then fireWatch place w f a
  else { a with state := a.state.withWatch place (some { w with count := w.count - 1 }) }

/-- A counter step or a mark is offered to a place. -/
def offerPlace (f : Firing) (a : Fired) (place : Nat) : Fired :=
  match a.state.watch place with
  | some w => if w.matched f then matchWatch place w f a else a
  | none => a

def watchPlaces : List Nat := [1, 2, 3, 4, 5, 6, 7, 8]

/-- A counter step or a mark is offered to every place. -/
def offerWatches (f : Firing) (a : Fired) : Fired := watchPlaces.foldl (offerPlace f) a

/-- A REMAIN entry is evaluated against R (R78). -/
def remainPlace (r : Nat) (a : Fired) (place : Nat) : Fired :=
  match a.state.watch place with
  | some w =>
    match w.kind with
    | .remain threshold =>
      if r < threshold then
        let below := { w with side := .below }
        if w.side = .above then matchWatch place below (.remain r) a
        else { a with state := a.state.withWatch place (some below) }
      else { a with state := a.state.withWatch place (some { w with side := .above }) }
    | .counter _ _ | .markAny | .markCoded _ => a
  | none => a

/-- The most restrictive action of an event's firings is given as a target under the direct activity (R80). -/
def giveAction (a : Fired) : State :=
  match a.action with
  | .note => a.state
  | .stop => releaseIfStill (giveTarget .stop a.state)
  | .still => giveTarget .still a.state
  | .play => giveTarget .play a.state

/-- Every REMAIN entry is evaluated at R at the record-speed setting, while there is an estimate (R78). -/
def evaluateRemain (s : State) : State :=
  match s.remaining s.transport.recordSpeed with
  | some r => giveAction (watchPlaces.foldl (remainPlace r) { state := s, action := .note })
  | none => s

/-- The fraction becomes absent: the remaining side of every REMAIN entry becomes UNKNOWN (R78). -/
def forgetSides (s : State) : State :=
  { s with nav.watches := s.nav.watches.map fun w => w.map fun w =>
      match w.kind with
      | .remain _ => { w with side := .unknown }
      | .counter _ _ | .markAny | .markCoded _ => w }

/-- What one control pulse or gap hands to the navigation unit: a counter step, a mark, or both. The watches are offered them
first, then the go-to and the run; an action of a watch is given at the end (R79, R80; log 19). -/
def navigate (step : Option Direction) (mark : Option MarkRecord) (s : State) : State :=
  let a : Fired := { state := s, action := .note }
  let a := step.elim a fun d => offerWatches (.counter s.tape.counter d) a
  let a := mark.elim a fun r => offerWatches (.mark r) a
  let s := a.state
  let s := step.elim s fun d => runStep d (gotoStep d s)
  let s := mark.elim s fun r => runMark r (gotoMark r s)
  giveAction { a with state := s }

/-- The signal of an eject (R86): a go-to or run still in flight ends with it, and the records are cleared, the run's end action with
them; the clearing of a DONE run posts no RUN note (DESIGN CHOICE, log 43). -/
def ejectNavigation (s : State) : State :=
  let s := if s.nav.goto.active then closeGoto .replaced s else s
  let s := if s.nav.run.state.active then closeRun .replaced s else s
  { s with nav := Navigation.cold }

end Sys2Proof.Machine
end

