-- ==== Sys2Proof/Machine/Power.lean ====
section
/-! DEFINITION. The power manager's operations within OPERATING and STANDBY (R190 to R193): STOPPING, the entry to STANDBY,
WAKING, the arrival at OPERATING. -/

namespace Sys2Proof.Machine

/-- The transition becomes none, and the POWER note is posted (R190). -/
def endTransition (s : State) : State := postPower { s with power.transition := .none }

/-- The OPERATOR class gives up the TUNER claim (R186). -/
def dropOperatorTuner (s : State) : State := if s.tunerOf.isTimer then s else setTunerClaim .free s

/-- The entry to STANDBY for a reason: a scan ends, the tuner goes IDLE, the OPERATOR class gives up the TUNER claim (R107, R118,
R192). -/
def enterStandby (r : PowerCause) (s : State) : State :=
  let s := dropOperatorTuner (tunerOff (cutScan .stopped (some .standby) s))
  postPower { s with power := { s.power with state := .standby, transition := .none, lastChange := r } }

/-- The transport stands where STOPPING may end (R192). -/
def State.quietForStandby (s : State) : Bool :=
  (s.transport.mode == .stop || s.transport.mode == .empty || s.transport.mode == .loading || s.transport.mode == .ejecting ||
    s.transport.mode == .fault) && !s.transport.target.any (·.threaded)

/-- The MECHANISM claim does not hold up the entry to STANDBY (R192). -/
def State.mechReleased (s : State) : Bool :=
  match s.mech with
  | .free | .operator _ | .protect .mech => true
  | .timer _ | .protect _ => false

/-- STOPPING ends at the first event at which the transport is quiet and the mechanism released (R192). -/
def checkStandby (s : State) : State :=
  match s.power.state, s.power.transition with
  | .operating, .stopping r => if s.quietForStandby && s.mechReleased then enterStandby r s else s
  | _, _ => s

/-- STOPPING begins: a free mechanism, or one held at OPERATOR class, is taken for the direct activity and given STOP (R192). -/
def beginStopping (r : PowerCause) (s : State) : State :=
  let s := { s with power.transition := .stopping r }
  let s := match s.mech with
    | .free | .operator _ => releaseIfStill (giveTarget .stop (grantOperator .direct s))
    | .timer _ | .protect _ => s
  checkStandby (postPower s)

/-- STANDBY is asked for, by the host, a run or an end action (R191). -/
def requestStandby (r : PowerCause) (s : State) : State × Status :=
  if s.programActive then (s, .busyTimer)
  else match s.power.state, s.power.transition with
    | .standby, .waking _ => (endTransition s, .ok)
    | .operating, .none => (beginStopping r s, .accepted)
    | _, _ => (s, .ok)

/-- OPERATE is asked for by the host (R191). -/
def requestOperate (s : State) : State × Status :=
  match s.power.state, s.power.transition with
  | .operating, .stopping _ => (endTransition s, .ok)
  | .standby, .none =>
    (postPower { s with power.transition := .waking .host, power.wakeStart := s.now }, .accepted)
  | _, _ => (s, .ok)

/-- The scheduler asks for OPERATING (R163, R192, R193). A change of the reason of a wake under way posts no note. -/
def wakeForTimer (s : State) : State :=
  match s.power.state, s.power.transition with
  | .standby, .none => postPower { s with power.transition := .waking .timer, power.wakeStart := s.now }
  | .standby, .waking _ => { s with power.transition := .waking .timer }
  | .operating, .stopping _ => endTransition s
  | _, _ => s

/-- The arrival at OPERATING: the tuner is powered and the selection tuned with the claim as it is (R107, R193). -/
def arriveOperating (r : PowerCause) (s : State) : State :=
  retune (postPower { s with power := { s.power with state := .operating, transition := .none, lastChange := r } })

end Sys2Proof.Machine
end

