-- ==== Sys2Proof/Machine/Scheduler.lean ====
section
/-! DEFINITION. The program scheduler's operations (R137 to R181): the pending list and the deferred set, cue-up, start, speed
choice, meetings, hand-over, selection, endings, the minute event, clock jumps. -/

namespace Sys2Proof.Machine

/-! ### The table's collections -/

def slotNumbers : List Nat := (List.range 16).map (· + 1)

/-- The place of a program in the pending order: next start ascending, one carried past the end of the calendar behind every
other, then priority descending, then slot ascending (R148). -/
def Program.pendingRank (p : Program) (slot : Nat) : Nat :=
  (((if p.carried then 1 else 0) * 100000000 + p.next) * 4 + (3 - p.priority)) * 17 + slot

/-- The order of the selection: priority descending, then next start, then slot (R174). -/
def Program.pickRank (p : Program) (slot : Nat) : Nat := ((3 - p.priority) * 100000000 + p.next) * 17 + slot

/-- A slot is put in its place by rank. -/
def insertByRank (rank : Nat → Nat) (n : Nat) : List Nat → List Nat
  | [] => [n]
  | h :: t => if rank n < rank h then n :: h :: t else h :: insertByRank rank n t

def sortByRank (rank : Nat → Nat) (l : List Nat) : List Nat := l.foldr (insertByRank rank) []

/-- The slots in a state, in slot order. -/
def State.slotsIn (s : State) (st : SlotState) : List Nat := slotNumbers.filter fun n => (s.program n).any fun p => p.state == st

/-- The pending list (R148). -/
def State.pendingList (s : State) : List Nat :=
  sortByRank (fun n => (s.program n).elim 0 fun p => p.pendingRank n) (s.slotsIn .armed)

/-- The deferred set in the order of the selection (R150, R174). -/
def State.deferredByPick (s : State) : List Nat :=
  sortByRank (fun n => (s.program n).elim 0 fun p => p.pickRank n) (s.slotsIn .deferred)

/-- The active program with its record (R160). -/
def State.activeProgram (s : State) : Option (Active × Program) :=
  s.sched.active.bind fun a => (s.program a.slot).map fun p => (a, p)

/-! ### Outcomes, deferrals, reload (R150 to R152) -/

def RunRecord.cleared : RunRecord :=
  { recorded := 0, stretches := 0, signalLoss := 0, firstSpeed := none, currentSpeed := none, shortTape := false, deferrals := 0 }

/-- TRUNCATED when something was recorded, MISSED otherwise (R151). -/
def Program.shortOutcome (p : Program) : Outcome := if 0 < p.run.recorded then .truncated else .missed

def DeferralCause.outcomeCause : DeferralCause → OutcomeCause
  | .overlap => .overlap
  | .preempted => .preempted
  | .power => .power
  | .dew => .dew
  | .fault => .fault
  | .clockSet => .clockSet

/-- A program enters the deferred set (R150). -/
def Program.deferredWith (p : Program) (c : DeferralCause) : Program :=
  { p with state := .deferred, deferral := some c, run.deferrals := Nat.min 255 (p.run.deferrals + 1) }

/-- An occurrence finishes at T: DONE for ONCE, and a reload for the other patterns (R152). -/
def Program.finished (p : Program) (o : Outcome) (c : Option OutcomeCause) (t : Nat) : Program :=
  let p := { p with deferral := none, outcome := some o, cause := c }
  if p.pattern = .once then { p with state := .done }
  else
    let r := occurrenceSearch p.pattern p.start p.duration t (some { at_ := p.windowEnd, carried := p.carried })
    { p with state := .armed, run := .cleared, next := r.1, carried := r.2 }

def finishSlot (n : Nat) (o : Outcome) (c : Option OutcomeCause) (s : State) : State :=
  match s.program n with
  | some p => putProgram n (p.finished o c s.clock.time) s
  | none => s

/-- The occurrence of a slot finishes short (R151). -/
def finishShort (n : Nat) (c : OutcomeCause) (s : State) : State :=
  match s.program n with
  | some p => finishSlot n p.shortOutcome (some c) s
  | none => s

def deferSlot (n : Nat) (c : DeferralCause) (s : State) : State :=
  match s.program n with
  | some p => putProgram n (p.deferredWith c) s
  | none => s

def deferSlots (c : DeferralCause) (l : List Nat) (s : State) : State := l.foldl (fun s n => deferSlot n c s) s

def dropActive (s : State) : State := { s with sched.active := none }

/-- The active program becomes DEFERRED, and the active slot none. -/
def deferActive (c : DeferralCause) (s : State) : State :=
  match s.sched.active with
  | some a => deferSlot a.slot c (dropActive s)
  | none => s

/-- The active program's occurrence finishes short, and the active slot becomes none. -/
def finishActive (c : OutcomeCause) (s : State) : State :=
  match s.sched.active with
  | some a => finishShort a.slot c (dropActive s)
  | none => s

/-! ### Claims of the TIMER class (R162, R188) -/

def releaseTimerMech (s : State) : State := if s.mech.isTimer then setMech .free s else s

/-- The TIMER class releases the claims it holds. -/
def releaseTimer (s : State) : State := releaseTimerTuner (releaseTimerMech s)

/-- The MECHANISM claim is asked for at TIMER class for a slot (R162, R183): a PROTECT holder refuses it, and the mechanism wait
becomes yes; a grant ends a DECK_RESET sequence in flight (R189). -/
def askMech (n : Nat) (s : State) : State :=
  match s.mech with
  | .protect _ => { s with sched.active := s.sched.active.map fun a => { a with mechWait := true } }
  | .free | .operator _ | .timer _ =>
    let s := endOperator .preempted .preempted s
    setMech (.timer (.program n))
      { s with
        transport.resetInFlight := false
        sched.active := s.sched.active.map fun a => { a with mechWait := false } }

/-- The TUNER claim is asked for at TIMER class for a slot; a scan ends PREEMPTED (R117, R162). -/
def askTuner (n : Nat) (s : State) : State :=
  setTunerClaim (.timer (.program n)) (if s.tunerOf = .scan then cutScan .preempted none s else s)

/-! ### Bringing up the deck (R163) -/

/-- The tuning of a program's preset, unless the tuner stands on it already; a tuner taken from a scan is always tuned. -/
def tuneFor (preset : Nat) (fromScan : Bool) (s : State) : State :=
  if s.tuner.selection = .preset preset ∧ s.tuner.state ≠ .idle ∧ !fromScan then s else beginTuning (.preset preset) s

/-- REC_PAUSE is given under the slot's MECHANISM claim. -/
def holdDeck (n : Nat) (s : State) : State := if s.mech = .timer (.program n) then giveTarget .recPause s else s

/-- The bring-up of the active program: wake, tuning, transport (R163). While the mechanism wait is yes the wake and the tuning are
made all the same, and only REC_PAUSE waits for the grant (DESIGN CHOICE, log 63). -/
def bringUp (fromScan : Bool) (s : State) : State :=
  match s.activeProgram with
  | none => s
  | some (a, p) =>
    let s := wakeForTimer s
    if s.inStandby then s else holdDeck a.slot (tuneFor p.preset fromScan s)

/-- The active-program record as a slot becomes the active slot (R160). -/
def Active.fresh (n : Nat) (phase : ActivePhase) (late pointCome : Bool) (latest : Option DeferralCause) : Active :=
  { slot := n, phase := phase, reason := none, speedToEnter := none, choicePending := false, lastFit := none, latest := latest,
    mechWait := false, late := late, pointCome := pointCome }

/-- A slot becomes the active slot in CUEING with its claims; an end action or the stop of a PROG_ABORT is abandoned (R161, R162,
R178). -/
def makeActive (n : Nat) (a : Active) (s : State) : State :=
  match s.program n with
  | none => s
  | some p =>
    let s := { s with sched := { s.sched with active := some a, endAction := none, abortStop := none, rewindTail := false } }
    askMech n (askTuner n (putProgram n { p with state := .cueing, deferral := none } s))

/-- A slot becomes CUEING, and the deck is brought up for it (R161 to R163). -/
def makeCueing (n : Nat) (late : Bool) (latest : Option DeferralCause) (s : State) : State :=
  let fromScan := s.tunerOf == .scan
  bringUp fromScan (makeActive n (.fresh n .preparing late false latest) s)

/-! ### Speed (R165, R167, R168) -/

/-- The seconds needed at the present time (R167). -/
def Program.needed (p : Program) (t : Nat) : Nat := p.windowEnd - t + 30

/-- R at a class is at least the seconds needed. -/
def State.fits (s : State) (needed : Nat) (v : Speed) : Bool := (s.remaining v).any fun r => decide (needed ≤ r)

/-- The smallest class at or above one that holds the seconds needed, or 3 with the short-tape flag (R167, R168). -/
def State.fitFrom (s : State) (least : Speed) (needed : Nat) : Speed × Bool :=
  match ([Speed.standard, .long, .extended].filter fun v => decide (least.sigma ≤ v.sigma)).find? (s.fits needed) with
  | some v => (v, false)
  | none => (.extended, true)

/-- A choice of the speed class: the class, whether the tape is short, whether the choice is pending (R165, R167). -/
structure SpeedChoice where
  speed   : Speed
  short   : Bool
  pending : Bool
  deriving DecidableEq, Repr

def State.chooseSpeed (s : State) (p : Program) : SpeedChoice :=
  match p.speedMode with
  | .standard => { speed := .standard, short := false, pending := false }
  | .long => { speed := .long, short := false, pending := false }
  | .extended => { speed := .extended, short := false, pending := false }
  | .fit =>
    if s.estimate.isNone then { speed := .standard, short := false, pending := true }
    else
      let c := s.fitFrom .standard (p.needed s.clock.time)
      { speed := c.1, short := c.2, pending := false }

/-- RECORD is given for the active program from REC_PAUSE, with its speed class and its mark code: the entry that makes it
RECORDING (R165, R167, R172, R173). -/
def beginRecord (s : State) : State :=
  match s.activeProgram with
  | none => s
  | some (a, p) =>
    let c := s.chooseSpeed p
    let a := { a with
      phase := .running, reason := none, speedToEnter := none, choicePending := c.pending, lastFit := none }
    let p := { p with state := .recording, run.shortTape := p.run.shortTape || c.short }
    giveRecord (.timer c.speed p.mark) (putProgram a.slot p { s with sched.active := some a })

/-- The transport stands in REC_PAUSE. -/
def State.inRecPause (s : State) : Bool := s.transport.mode == .recPause && s.transport.change == none

/-- The re-entry after a FIT speed change carries "no mark" (R165, R168). -/
def reenterRecord (s : State) : State :=
  match s.sched.active with
  | none => s
  | some a =>
    let speed := a.speedToEnter.getD .extended
    giveRecord (.timer speed none)
      { s with sched.active := some { a with phase := .running, reason := none, speedToEnter := none } }

/-- REC_PAUSE is reached (R165, R168, R172, R173). -/
def programAtRecPause (s : State) : State :=
  match s.sched.active with
  | none => s
  | some a =>
    match a.phase, a.reason with
    | .starting, _ => beginRecord s
    | .changing, some .fit => reenterRecord s
    | .changing, _ => beginRecord s
    | .preparing, _ | .running, _ => s

/-- RECORD is reached for the active program (R166). -/
def programAtRecord (s : State) : State :=
  match s.activeProgram, s.transport.recordOrder with
  | some (a, p), .timer v _ =>
    if p.state = .recording then
      let run := { p.run with
        stretches := Nat.min 255 (p.run.stretches + 1)
        currentSpeed := some v
        firstSpeed := p.run.firstSpeed.orElse fun _ => some v }
      putProgram a.slot { p with run := run } s
    else s
  | _, _ => s

/-- A FIT speed change begins (R168). -/
def changeSpeed (v : Speed) (s : State) : State :=
  giveTarget .recPause { s with sched.active := s.sched.active.map fun a => { a with
    phase := .changing, reason := some .fit, speedToEnter := some v, lastFit := some s.clock.time } }

def setShortTape (n : Nat) (s : State) : State :=
  match s.program n with
  | some p => putProgram n { p with run.shortTape := true } s
  | none => s

def Speed.next : Speed → Speed
  | .standard => .long
  | .long | .extended => .extended

/-- The FIT evaluation at an estimate computation (R168). -/
def evaluateFit (s : State) : State :=
  match s.activeProgram, s.transport.recordClass with
  | some (a, p), some v =>
    if p.speedMode = .fit ∧ a.phase = .running ∧ s.transport.mode = .record then
      let needed := p.needed s.clock.time
      if a.choicePending then
        let c := s.fitFrom v needed
        let s := { s with sched.active := some { a with choicePending := false } }
        let s := if c.2 then setShortTape a.slot s else s
        if c.1 = v then s else changeSpeed c.1 s
      else if s.fits needed v then s
      else if v = .extended then setShortTape a.slot s
      else if a.lastFit.all fun t => decide (t + 60 ≤ s.clock.time) then changeSpeed v.next s
      else s
    else s
  | _, _ => s

/-! ### Start checks (R164) -/

inductive StartVerdict where
  | pass
  | finish (c : OutcomeCause)
  | defer (c : DeferralCause)
  deriving DecidableEq, Repr

/-- The start checks in their order. -/
def State.startVerdict (s : State) : StartVerdict :=
  if s.transport.mode = .empty ∨ s.transport.mode = .ejecting then .finish .noCassette
  else if !s.transport.recordTab then .finish .tabAbsent
  else if s.transport.dew then .defer .dew
  else if s.mech.isProtect then .defer .fault
  else .pass

/-- The checks pass: STARTING, and RECORD at once if the transport is in REC_PAUSE (R164, R165). -/
def passChecks (s : State) : State :=
  let s := { s with sched.active := s.sched.active.map fun a => { a with phase := .starting, pointCome := true } }
  if s.inRecPause then beginRecord s else s

/-- The active program meets its start checks. A failed program leaves the active slot and its claims; the rules that follow are
the caller's. -/
def meetChecks (onPass : State → State) (s : State) : State :=
  match s.startVerdict with
  | .pass => onPass s
  | .finish c => releaseTimer (finishActive c s)
  | .defer c => releaseTimer (deferActive c s)

/-- The start point has come; in LOADING the checks are held until the cassette load (R164). -/
def startPoint (onPass : State → State) (s : State) : State :=
  if s.transport.mode = .loading then
    { s with sched.active := s.sched.active.map fun a => { a with pointCome := true } }
  else meetChecks onPass s

/-! ### Selection and cue-up (R161, R174, R175) -/

/-- The cue-up rule (R161). -/
def cueUp (s : State) : State :=
  if s.sched.active.isSome then s
  else match s.pendingList.head? with
    | none => s
    | some n =>
      match s.program n with
      | some p => if !p.carried && decide (p.windowStart ≤ s.clock.time + 120) then makeCueing n false none s else s
      | none => s

/-- The deck is free (R174). -/
def State.deckFree (s : State) : Bool :=
  s.sched.active.isNone && !s.mech.isProtect && !s.transport.dew && !s.transport.resetInFlight && s.power.state != .backup

/-- A member of the deferred set with fewer than 60 s of window left finishes with the deferral cause it holds (R175). -/
def expireSlot (s : State) (n : Nat) : State :=
  match s.program n with
  | some p => if p.minuteLeft s.clock.time then s else finishShort n ((p.deferral.getD .overlap).outcomeCause) s
  | none => s

def expireDeferred (s : State) : State := (s.slotsIn .deferred).foldl expireSlot s

/-- A picked member becomes CUEING as a late start, with the cause it held as the latest deferral cause (R174). Its start point is
this event in OPERATING, and the arrival at OPERATING in STANDBY (R164). -/
def lateStart (n : Nat) (latest : Option DeferralCause) (s : State) : State :=
  let s := makeCueing n true latest s
  if s.inStandby then s else startPoint passChecks s

def pick (n : Nat) (s : State) : State := lateStart n ((s.program n).bind (·.deferral)) s

/-- The cue-up rule, and the selection when it has made no slot active. A picked member that fails its checks at once leaves the
deck to the next one; each round takes a member out of the deferred set, so seventeen rounds are enough. -/
def applyRulesFor : Nat → State → State
  | 0, s => s
  | fuel + 1, s =>
    if s.power.state = .backup then s
    else
      let s := cueUp s
      if !s.deckFree then s
      else
        let s := expireDeferred s
        match s.deferredByPick.head? with
        | none => s
        | some n =>
          let s := pick n s
          if s.sched.active.isSome then s else applyRulesFor fuel s

def applyRules (s : State) : State := applyRulesFor 17 s

/-- The rules are applied at an event that has left the active slot none. -/
def rulesIfFree (s : State) : State := if s.sched.active.isNone then applyRules s else s

/-! ### Programs that meet (R171 to R173) -/

/-- A passed takeover or hand-over: the slot is RECORDING in CHANGING, REC_PAUSE is given, its preset is tuned if it differs, and in
REC_PAUSE RECORD is given at once (R172, R173). The speed to enter is the choice as it stands here, and is made afresh at REC_PAUSE
(R160, R167; log 44). -/
def changeOver (reason : ChangeReason) (s : State) : State :=
  match s.activeProgram with
  | none => s
  | some (a, p) =>
    let a := { a with
      phase := .changing, reason := some reason, speedToEnter := some (s.chooseSpeed p).speed, pointCome := true }
    let s := putProgram a.slot { p with state := .recording } { s with sched.active := some a }
    let held := s.inRecPause
    let s := if held then s else giveTarget .recPause s
    let s := if s.tuner.selection = .preset p.preset then s else beginTuning (.preset p.preset) s
    if held then beginRecord s else s

/-- A takeover by a starting program from the active one (R172). In LOADING the new program takes the active slot with its checks
held (R164, log 22). From a RECORDING program the new slot passes through CUEING into RECORDING within the event, and posts PROG for
each of the two changes (R153; DESIGN CHOICE, log 62). -/
def takeOver (n : Nat) (s : State) : State :=
  let recording := s.activeProgram.any fun ap => ap.2.state == .recording
  if s.transport.mode = .loading then
    startPoint passChecks (bringUp false (makeActive n (.fresh n .preparing false false none) (deferActive .preempted s)))
  else match s.startVerdict with
    | .finish c => finishShort n c s
    | .defer c => deferSlot n c s
    | .pass =>
      let s := makeActive n (.fresh n .starting false true none) (deferActive .preempted s)
      if recording then changeOver .takeover s else passChecks (bringUp false s)

/-- A program starting earlier than the one being cued up takes the active slot; the old one returns to ARMED (R171). -/
def displace (n : Nat) (s : State) : State :=
  let s := match s.activeProgram with
    | some (a, p) => putProgram a.slot { p with state := .armed } (dropActive s)
    | none => s
  startPoint passChecks (makeCueing n false none s)

/-- The active program is being cued up for a start that has not come. -/
def Active.preparingAhead (a : Active) : Bool := a.phase == .preparing && !a.late && !a.pointCome

/-- The first of the starting programs meets the active one (R171). -/
def meetActive (a : Active) (p : Program) (n : Nat) (s : State) : State :=
  if ((s.program n).elim 0 (·.priority)) ≤ p.priority then deferSlot n .overlap s
  else if a.preparingAhead then displace n s
  else takeOver n s

/-- The ARMED programs whose next start is the present minute, and the start checks of a head cued up for it (R171). -/
def meetStarters (s : State) : State :=
  let starters := s.pendingList.filter fun n => (s.program n).any fun p => !p.carried && p.windowStart == s.clock.time
  match s.activeProgram with
  | none =>
    match starters with
    | [] => s
    | n :: rest => deferSlots .overlap rest (startPoint passChecks (makeCueing n false none s))
  | some (a, p) =>
    if a.preparingAhead && p.windowStart == s.clock.time then deferSlots .overlap starters (startPoint passChecks s)
    else match starters with
      | [] => s
      | n :: rest => deferSlots .overlap rest (meetActive a p n s)

/-- A hand-over to a slot that starts at once, or is picked (R173). -/
def handOver (n : Nat) (late : Bool) (latest : Option DeferralCause) (s : State) : State :=
  startPoint (changeOver .handOver) (makeActive n (.fresh n .preparing late false latest) s)

/-! ### Endings (R176 to R178) -/

/-- Completion of an end action: both TIMER claims are released, and STANDBY is asked for (R177). -/
def completeEndAction (a : EndAction) (s : State) : State :=
  let s := releaseTimer { s with sched.endAction := none }
  if a = .standby then (requestStandby .endAction s).1 else s

/-- The end action already stands in its final mode. -/
def State.endActionReached (s : State) (a : EndAction) : Bool := a != .rewind && s.settled && s.transport.mode == a.target

/-- The end action of a finished program begins (R177). -/
def beginEndAction (n : Nat) (a : EndAction) (s : State) : State :=
  let s := setTunerClaim (.timer (.endAction n)) (setMech (.timer (.endAction n)) { s with sched.endAction := some (n, a) })
  if s.endActionReached a then completeEndAction a s else giveTarget a.target s

/-- A program whose window has ended RECORDING hands the deck on, or its end action begins (R173). -/
def handOn (n : Nat) (a : EndAction) (s : State) : State :=
  let t := s.clock.time
  let head := s.pendingList.head?.filter fun n =>
    (s.program n).any fun p => !p.carried && (p.windowStart == t || p.windowStart == t + 60 || p.windowStart == t + 120)
  match head with
  | some h =>
    if (s.program h).any (fun p => p.windowStart == t) then handOver h false none s else makeCueing h false none s
  | none =>
    let s := if s.deckFree then expireDeferred s else s
    match if s.deckFree then s.deferredByPick.head? else none with
    | some m => handOver m true ((s.program m).bind (·.deferral)) s
    | none => beginEndAction n a s

/-- The active program's window ends at the present minute (R176). -/
def endOccurrence (s : State) : State :=
  match s.activeProgram with
  | none => s
  | some (a, p) =>
    if p.windowEnd = s.clock.time then
      if p.state = .recording then
        let s := dropActive s
        let s :=
          if p.run.deferrals = 0 then finishSlot a.slot .complete none s
          else finishSlot a.slot .truncated (some ((a.latest.map (·.outcomeCause)).getD .clockSet)) s
        rulesIfFree (handOn a.slot p.endAction s)
      else rulesIfFree (releaseTimer (finishActive ((a.latest.map (·.outcomeCause)).getD .fault) s))
    else s

/-- The mode STOP or EMPTY reached ends an end action, or the stop of a PROG_ABORT (R177, R178). -/
def timerAtRest (s : State) : State :=
  match s.sched.endAction with
  | some (_, a) => if s.endActionReached a then completeEndAction a s else s
  | none => if s.sched.abortStop.isSome && s.standsStill then releaseTimer { s with sched.abortStop := none } else s

/-! ### The minute and the second (R166, R179) -/

/-- The counting of the second that ends (R166). -/
def countSecond (s : State) : State :=
  match s.activeProgram with
  | some (a, p) =>
    if p.state = .recording ∧ s.transport.mode = .record then
      let loss := if s.tuner.state = .noSignal then 1 else 0
      putProgram a.slot
        { p with run := { p.run with
          recorded := Nat.min 36000 (p.run.recorded + 1), signalLoss := Nat.min 36000 (p.run.signalLoss + loss) } } s
    else s
  | none => s

/-- The minute event, in the order of R179. -/
def minuteEvent (s : State) : State := applyRules (expireDeferred (meetStarters (endOccurrence s)))

/-! ### Clock jumps (R154 to R157) -/

/-- What a jump makes of one program (R155, R156). One carried past the end of the calendar has neither begun nor run out, so it is
searched again from the new time (R158). -/
def Program.judged (p : Program) (c : DeferralCause) (t : Nat) : Program :=
  if p.state = .armed ∨ p.state = .deferred then
    if !p.minuteLeft t then
      let f := p.finished p.shortOutcome (some c.outcomeCause) t
      if f.state = .armed ∧ f.running t then f.deferredWith c else f
    else if p.begun t then (if p.state = .armed then p.deferredWith c else p)
    else
      let p := { p with state := .armed, deferral := none }
      if p.pattern = .once then p
      else
        let r := occurrenceSearch p.pattern p.start p.duration t none
        let p := { p with next := r.1, carried := r.2 }
        if p.running t then p.deferredWith c else p
  else p

def judgeSlot (c : DeferralCause) (s : State) (n : Nat) : State :=
  match s.program n with
  | some p => putProgram n (p.judged c s.clock.time) s
  | none => s

/-- The evaluation of a clock jump with its jump cause at the new time (R154 to R157). The slots are judged, and the PROG notes of those
changed posted, in ascending slot order: R157 gives the notes none (DESIGN CHOICE, log 56). -/
def clockJump (c : DeferralCause) (s : State) : State := applyRules (slotNumbers.foldl (judgeSlot c) s)

/-! ### Protections, releases, loads (R163, R164, R169, R170, R177, R178) -/

/-- The deferral cause of a program that a protection defers (R170). R170 names no cause for a leader stop (log 25) nor for a TIGHT_END
stop of a servo change that leaves a wind mode for the program's REC_PAUSE or RECORD: FAULT for both (DESIGN CHOICE, log 52). -/
def Protection.deferralCause : Protection → DeferralCause
  | .dew => .dew
  | .leaderEnd | .leaderStart | .stall | .tightEnd | .pauseLimit | .servo | .mech => .fault

/-- A CUEING program that a protection or dew defers: in STARTING, or as a late start after its start point, or with its checks held
in a loading that ends in FAULT (R164, R170). -/
def Active.deferrable (a : Active) (c : Protection) : Bool :=
  a.phase != .preparing || (a.late && a.pointCome) || (a.pointCome && c == .mech)

/-- PROTECT has taken the mechanism from a TIMER activity (R169, R170, R177, R178; log 25). -/
def timerPreempted (act : TimerActivity) (c : Protection) (s : State) : State :=
  match act with
  | .program _ =>
    match s.activeProgram with
    | none => releaseTimerTuner { s with sched.abortStop := none }
    | some (a, p) =>
      if p.state = .recording ∧ c = .leaderEnd then applyRules (releaseTimerTuner (finishActive .tapeEnd s))
      else if p.state = .recording ∨ a.deferrable c then
        applyRules (releaseTimerTuner (deferActive c.deferralCause s))
      else { s with sched.active := some { a with mechWait := true } }
  | .endAction _ =>
    if s.sched.endAction.any (fun e => e.2 == .rewind) ∧ c = .leaderStart then
      { s with sched.endAction := none, sched.rewindTail := true }
    else releaseTimerTuner { s with sched.endAction := none }

/-- Dew that took no claim defers a program in STARTING, or a late start after its start point (R170). -/
def programAtDew (s : State) : State :=
  match s.sched.active with
  | some a => if a.deferrable .dew then applyRules (releaseTimer (deferActive .dew s)) else s
  | none => s

/-- The PROTECT claim is released: a leader stop that completed a REWIND gives up the TUNER claim, a program that waits takes the
mechanism, and the rules are applied (R162, R174, R177, R187). A leader stop of a completed REWIND whose UNTHREADING fails never reaches
STOP by itself: its TUNER claim is kept, here and in rewindTail, until a recovery from the FAULT ends in STOP or EMPTY and releases the
PROTECT claim (DESIGN CHOICE, log 51). -/
def protectReleased (s : State) : State :=
  let s := if s.sched.rewindTail then releaseTimerTuner { s with sched.rewindTail := false } else s
  match s.sched.active with
  | some a => if a.mechWait then bringUp false (askMech a.slot s) else s
  | none => applyRules s

/-- REC_PAUSE is given again to a program that is CUEING (R163). -/
def holdAgain (s : State) : State :=
  match s.activeProgram with
  | some (a, p) => if p.state = .cueing ∧ !s.inStandby then holdDeck a.slot s else s
  | none => s

/-- A cassette load: held start checks are made, and REC_PAUSE is given again while the slot is CUEING (R163, R164). -/
def programAtLoad (s : State) : State :=
  match s.activeProgram with
  | some (a, p) =>
    if p.state = .cueing ∧ a.phase = .preparing ∧ a.pointCome then holdAgain (rulesIfFree (meetChecks passChecks s))
    else holdAgain s
  | none => s

/-- The dew flag clears (R163, R174). The cue-up rule is applied before the selection, also inside a DECK_RESET sequence: R174 has the
selection follow it at this event, R161's list does not name the event (DESIGN CHOICE, log 57). -/
def programAtDry (s : State) : State := rulesIfFree (holdAgain s)

/-- The arrival at OPERATING: the bring-up goes on, and a late start meets its start point (R163, R164). -/
def programAtArrival (s : State) : State :=
  match s.activeProgram with
  | some (a, p) =>
    let s := if p.state = .cueing then bringUp false s else s
    if a.late && !a.pointCome then rulesIfFree (startPoint passChecks s) else s
  | none => s

/-! ### Mains loss and DECK_RESET (R180, R181) -/

/-- The active program becomes DEFERRED when it is RECORDING or its window has begun, and returns to ARMED otherwise. -/
def standDown (c : DeferralCause) (s : State) : State :=
  match s.activeProgram with
  | some (a, p) =>
    if p.state = .recording ∨ p.begun s.clock.time then deferActive c s
    else putProgram a.slot { p with state := .armed } (dropActive s)
  | none => s

/-- The scheduler's part of DECK_RESET and of a mains loss. -/
def abandonTimer (c : DeferralCause) (s : State) : State :=
  let s := standDown c s
  { s with sched := { s.sched with active := none, endAction := none, abortStop := none, rewindTail := false } }

/-- The DECK_RESET sequence has ended: the rules are applied, and a TUNER claim that no program uses is released (R181). -/
def resumeAfterReset (s : State) : State :=
  let s := rulesIfFree s
  if s.sched.active.isNone && s.sched.endAction.isNone then releaseTimerTuner s else s

end Sys2Proof.Machine
end

