-- ==== Sys2Proof/Machine/Protection.lean ====
section
/-! DEFINITION. Protection stops, FAULT and its recoveries (R12, R13, R20 to R24, R187), and the events at which the transport
comes to rest in STOP and EMPTY. -/

namespace Sys2Proof.Machine

/-! ### The PROTECT claim -/

/-- The run that a leader protection ends: FINISHED in ENDING with REWIND, TAPE_END otherwise (R84, R85). -/
def Run.leaderResult (r : Run) : RunResult :=
  if r.state = .ending ∧ r.endAction = some .rewind then .finished else .tapeEnd

/-- The MECHANISM claim is taken at PROTECT class; the activity of lower class that held it ends (R20, R184, R187). -/
def takeProtect (c : Protection) (s : State) : State :=
  let old := s.mech
  let s :=
    if c.isLeader then endOperator .tapeEnd s.nav.run.leaderResult s else endOperator .preempted .preempted s
  let s := setMech (.protect c) s
  match old with
  | .timer act => timerPreempted act c s
  | .free | .operator _ | .protect _ => s

def StopCause.protection : StopCause → Protection
  | .dew => .dew
  | .leaderEnd => .leaderEnd
  | .leaderStart => .leaderStart
  | .stall => .stall
  | .tightEnd => .tightEnd
  | .pauseLimit => .pauseLimit
  | .servo => .servo

/-- A protection stop (R20): the claim, the stop cause, the target STOP. A LEADER_END stop that starts is due an auto-rewind at its
first STOP (R22). -/
def protectionStop (c : StopCause) (s : State) : State :=
  let s := takeProtect c.protection s
  setTarget .stop (some c) { s with transport.rewindDue := c == .leaderEnd }

/-- A further cause found while a stop sequence is in flight replaces the stop cause (R20, R23). -/
def replaceCause (c : StopCause) (s : State) : State :=
  postMode { setMech (.protect c.protection) s with transport.stopCause := some c }

/-- Start checks held in a loading that ends in FAULT under another PROTECT claim defer the program (R164). -/
def heldAtFault (s : State) : State :=
  match s.sched.active with
  | some a =>
    if a.phase = .preparing ∧ a.pointCome then applyRules (releaseTimer (deferActive .fault s)) else s
  | none => s

/-- A mechanical step has failed: FAULT, with the PROTECT claim and the cause MECH (R12). -/
def enterFault (step : MechStep) (s : State) : State :=
  let s := { s with transport := { s.transport with
    target := none, faultCause := some step, recovering := false, rewindDue := false } }
  heldAtFault (takeProtect .mech (enterMode .fault none s))

/-! ### Rest in STOP and EMPTY -/

/-- The PROTECT claim is released and the release handed to the scheduler (R187). -/
def releaseProtect (s : State) : State := if s.mech.isProtect then protectReleased (setMech .free s) else s

/-- A recovery from FAULT has succeeded: the fault cause is cleared (R13). -/
def endRecovery (s : State) : State :=
  { s with transport.recovering := false, transport.faultCause := if s.transport.recovering then none else s.transport.faultCause }

/-- A run in ENDING has reached STOP with STOP or STANDBY, or EMPTY with EJECT: FINISHED, and its claim is released; STANDBY is then
asked for (R84, R185). -/
def finishRun (s : State) : State :=
  let a := s.nav.run.endAction.getD .stop
  if s.nav.run.state = .ending ∧ s.transport.mode = a.target ∧ a ≠ .rewind then
    let s := closeRun .finished s
    let s := if s.mech = .operator .run then setMech .free s else s
    if a = .standby then (requestStandby .run s).1 else s
  else s

/-- STOP or EMPTY is reached with no target left: the endings and the releases of this event (R68, R84, R177, R178, R185, R187). -/
def comeToRest (s : State) : State :=
  releaseProtect (timerAtRest (finishRun (releaseIfStill (gotoAtMode s))))

/-- The auto-rewind of a LEADER_END stop goes on under the same claim, unless the setting is off or dew is set (R22). -/
def autoRewind (s : State) : State := setTarget .windRev s.transport.stopCause { s with transport.rewindDue := false }

/-- The first STOP of a LEADER_END stop continues into the rewind (R22). -/
def State.rewinds (s : State) : Bool :=
  s.transport.rewindDue && s.mech.isProtect && s.settings.autoRewind && !s.transport.dew && s.transport.target == none

/-- STOP has been entered: the rewind of a LEADER_END stop, the path to the target still held (R4), or rest. -/
def atStop (s : State) : State :=
  if s.rewinds then autoRewind s
  else
    let s := { s with transport.rewindDue := false }
    if s.transport.target.isSome then choosePath s else comeToRest s

/-- STOP is entered (R7); a recovery whose end is STOP has then succeeded (R13). -/
def enterStop (s : State) : State :=
  atStop (enterMode .stop none (if s.transport.target.all (· == .stop) then endRecovery s else s))

/-- EMPTY is entered, with the eject signalled to the position, cue mark and navigation units (R11, R45, R62, R86). The endings that
the eject completes are noted before the clearing. -/
def enterEmpty (s : State) : State :=
  let s := endRecovery { s with transport := { s.transport with
    target := none, cassettePresent := false, recordTab := false, faultCause := none, rewindDue := false } }
  let s := enterMode .empty none s
  let s := finishRun s
  let s := ejectNavigation { resetCassette .stalled s with marks.history := [], marks.writer := none }
  comeToRest s

/-! ### Recovery from FAULT (R13) -/

/-- LOADING begins for a cassette that is in the deck (R8). -/
def beginLoading (s : State) : State :=
  beginMech .loading { s with transport.cassettePresent := true, transport.target := some .stop }

def beginEjecting (s : State) : State := beginMech .ejecting { s with transport.target := some .empty }

/-- A recovery from FAULT by the position switches as they now read, for EJECT and for DECK_RESET (R13). Its UNTHREADING reads no tab
and signals no load, also where the step that failed was a cold start's or a restore's, and neither does a DECK_RESET that finds the
loaded position and stands in STOP at once, also where the step that failed was LOADING (DESIGN CHOICE, log 12). It is no target taken
from another activity as R20 means it: the stop cause stands (DESIGN CHOICE, log 45), until DECK_RESET clears it by its own rule (R28). -/
def recover (eject : Bool) (s : State) : State :=
  let s := { s with transport.recovering := true }
  match s.pins.position with
  | .threaded | .betweenLoadedAndThreaded =>
    beginUnthreading .plain { s with transport.target := some (if eject then .empty else .stop) }
  | .loaded => if eject then beginEjecting s else enterStop s
  | .betweenOutAndLoaded => if eject then beginEjecting s else beginLoading s
  | .out => if s.pins.cassetteIn && !eject then beginLoading s else enterEmpty s

/-- A second EJECT or DECK_RESET replaces the end of a recovery in flight (R13). The stop cause stands through a turn by EJECT, as through
a recovery (DESIGN CHOICE, log 45). -/
def turnRecovery (eject : Bool) (s : State) : State :=
  if s.transport.mode = .ejecting then s
  else
    let t := s.transport
    noteChange t { s with transport.target := some (if eject then .empty else .stop) }

/-! ### What every event does at its end -/

/-- The rules that watch for a condition rather than an event: the end of a DECK_RESET sequence (R181, R189), a held estimate (R38),
the conditions of identification (R33), the entry to STANDBY (R192). The entry to STANDBY is tested last: where the scheduler acts at
the same event, on the release of a PROTECT claim or at the end of a DECK_RESET sequence, it acts first, and a program it makes CUEING
ends STOPPING (DESIGN CHOICE, log 58). -/
def settleUnits (before : State) (s : State) : State :=
  let s := if before.transport.resetInFlight && !s.transport.resetInFlight then resumeAfterReset s else s
  checkStandby (checkIdentifying (checkHeld s))

end Sys2Proof.Machine
end

