-- ==== Sys2Proof/Machine/ClockUnit.lean ====
section
/-! DEFINITION. The clock's operations (R123 to R136): second boundaries, the wrap, detection windows, the source in use; and the
mains loss and the cold and restored states of every unit (R26, R27, R194 to R196). -/

namespace Sys2Proof.Machine

/-! ### Seconds (R124, R126, R128) -/

/-- The calendar time moves forward by one second (R124): the second is counted for a recording (R166), a new minute hands the minute
event, and the last second of the calendar wraps (R126). In BACKUP no minute event, note or jump is made (R135): a program carried past
the end of the calendar keeps its mark through the wrap, and the WRAP or RESTORE jump searches it again (R158). -/
def secondBoundary (s : State) : State :=
  let backup := s.power.state == .backup
  let s := if backup then s else countSecond s
  let t := s.clock.time + 1
  if Config.calendarSeconds ≤ t then
    let s := { s with clock.time := 0 }
    if backup then s else clockJump .clockSet (postClock s)
  else
    let s := { s with clock.time := t }
    if t % 60 = 0 ∧ !backup then minuteEvent s else s

/-- One second of crystal phase, in units of time. -/
def secondUnits : Nat := Config.unitsPerSecond

/-- A second boundary made by the crystal: the phase becomes the phase less 32,768 ticks (R128). -/
def crystalBoundary (s : State) : State :=
  secondBoundary { s with clock.sinceBoundary := s.clock.sinceBoundary - secondUnits }

/-- A second boundary made by the mains: the cycle count and the crystal phase become 0 (R128). -/
def mainsBoundary (s : State) : State :=
  secondBoundary { s with clock.cycleCount := some 0, clock.sinceBoundary := 0 }

/-- The crystal phase in crystal ticks. -/
def Clock.phase (c : Clock) : Nat := c.sinceBoundary / Config.crystalTick

/-! ### The mains reading and the source in use (R129 to R131) -/

/-- The mains cycles that make a second at a usable reading. -/
def MainsReading.cycles : MainsReading → Option Nat
  | .hz50 => some 50
  | .hz60 => some 60
  | .out | .absent => none

/-- The class of a detection window (R129). -/
def windowClass (n : Nat) : WindowClass :=
  if 47 ≤ n ∧ n ≤ 53 then .hz50 else if 57 ≤ n ∧ n ≤ 63 then .hz60 else .out

def WindowClass.reading : WindowClass → MainsReading
  | .hz50 => .hz50
  | .hz60 => .hz60
  | .out => .out

/-- The mains reading after a window, by the table of R130. -/
def nextReading (reading : MainsReading) (c : WindowClass) (previous : Option WindowClass) : MainsReading :=
  match reading with
  | .hz50 => if c = .hz50 then .hz50 else .out
  | .hz60 => if c = .hz60 then .hz60 else .out
  | .out | .absent => if c ≠ .out ∧ previous = some c then c.reading else .out

/-- The source in use as R131 gives it. -/
def State.sourceDue (s : State) : TimeSource :=
  if s.clock.setting = .auto ∧ s.power.state ≠ .backup ∧ s.clock.reading.cycles.isSome then .mains else .crystal

/-- The source in use is recomputed, and the current second is handed over when it changes (R131). The boundary made inside a handover
to the crystal is one like any other: it hands the minute event when it brings the seconds to 0, by R124, although R131 says that no
minute event arises from a handover (DESIGN CHOICE, log 49). -/
def recomputeSource (s : State) : State :=
  let due := s.sourceDue
  if due = s.clock.source then s
  else match due with
    | .crystal =>
      let s := { s with clock.source := .crystal, clock.cycleCount := none }
      if secondUnits ≤ s.clock.sinceBoundary then crystalBoundary s else s
    | .mains =>
      let n := s.clock.reading.cycles.getD 50
      { s with
        clock.source := .mains
        clock.cycleCount := some (Nat.min (n - 1) (s.clock.phase * n / Config.ticksPerSecond)) }

/-- A detection window closes: its class is applied to the reading, and the next window opens (R129, R130). -/
def closeWindow (s : State) : State :=
  let old := s.clock
  let c := windowClass old.windowCount
  let s := recomputeSource { s with clock := { s.clock with
    reading := nextReading old.reading c old.previous, previous := some c, windowCount := 0, windowStart := some s.now } }
  if s.clock.reading = old.reading ∧ s.clock.source = old.source then s else postClock s

/-! ### Mains loss (R194 and the units' chapters) -/

/-- R27: the two facts kept through BACKUP. -/
def Transport.atLoss (t : Transport) : Transport :=
  { Transport.cold with
    keptThreaded := t.mode.threaded || t.mode == .threading || t.mode == .unthreading
    keptCassette := t.cassettePresent }

/-- R46: class, origin, counter and quality are kept. -/
def TapePosition.atLoss (t : TapePosition) : TapePosition :=
  { TapePosition.cold with cls := t.cls, origin := t.origin, counter := t.counter, quality := t.quality }

/-- R108: the preset table and the output setting are kept. -/
def Tuner.atLoss (t : Tuner) : Tuner := { Tuner.cold with presets := t.presets, output := t.output }

/-- Every unit deals with the mains loss (R27, R46, R62, R87, R108, R122, R135, R180, R189, R194, R208). The scheduler judges the
active program first; what is not in the backup domain stands at its cold start values until the restore (log 13). -/
def loseMains (s : State) : State :=
  let s := abandonTimer .power s
  let s := { s with
    transport := s.transport.atLoss
    tape := s.tape.atLoss
    marks := .cold
    nav := .cold
    tuner := s.tuner.atLoss
    scan := .cold
    mech := .free
    tunerOf := .free
    link := .cold
    power := { s.power with
      state := .backup, transition := .none, mains := false, qualSince := none, lastChange := .mainsLoss, domainKept := true }
    clock := { s.clock with reading := .absent, previous := none, windowStart := none, windowCount := 0 } }
  recomputeSource s

/-! ### The reading of the mechanism (R26, R27) -/

def readSwitches (w : Switches) (s : State) : State :=
  { s with pins.position := w.position, pins.cassetteIn := w.cassetteIn, pins.recordTab := w.recordTab }

/-- A cassette was found in the deck. -/
def withCassette (s : State) : State := { s with transport.cassettePresent := true }

def beginRestoreUnthreading (e : UnthreadEnd) (s : State) : State :=
  beginUnthreading e { withCassette s with transport.target := some .stop }

/-- The cold start reading (R26, log 9): at a position other than out a cassette is taken as present, whatever the cassette-in switch
reads. -/
def coldMechanism (w : Switches) (s : State) : State :=
  match w.position with
  | .threaded => startReels .collecting (beginRestoreUnthreading .load s)
  | .loaded | .betweenOutAndLoaded | .betweenLoadedAndThreaded => startReels .collecting (beginLoading s)
  | .out => if w.cassetteIn then startReels .collecting (beginLoading s) else startReels .stalled s

/-- The restore reading (R27); the interval lists are COLLECTING with a cassette and STALLED with none (R31, R46). At a position other
than out a cassette is taken as present, whatever the cassette-in switch reads (log 10). -/
def restoreMechanism (threaded cassette : Bool) (w : Switches) (s : State) : State :=
  if threaded || w.position == .threaded || w.position == .betweenLoadedAndThreaded then
    startReels .collecting (beginRestoreUnthreading .readTab s)
  else match w.position with
    | .loaded => startReels .collecting (enterMode .stop none { withCassette s with transport.recordTab := w.recordTab })
    | .betweenOutAndLoaded => startReels .collecting (beginEjecting (withCassette s))
    | .out | .threaded | .betweenLoadedAndThreaded =>
      if w.cassetteIn && !cassette then startReels .collecting (beginLoading s)
      else if cassette then enterEmpty (startReels .stalled s)
      else enterMode .empty none (startReels .stalled s)

/-- The lowest-numbered used preset whose skip flag is no, or preset 0 (R108). -/
def State.restoreSelection (s : State) : Selection :=
  .preset (((List.range 99).map (· + 1)).find? s.eligible |>.getD 0)

/-- The mains restore (R195): STANDBY, the units rebuilt, the RESTORE jump, and the notes in the order of R208. The AFT in use and the
base frequency wait for the first tuning (DESIGN CHOICE, log 13). The gap of R194 goes on from the last mains cycle. -/
def restoreMains (w : Switches) (s : State) : State :=
  let t := s.transport
  let s := { readSwitches w s with
    transport := { Transport.cold with dew := s.pins.dew }
    tuner := { s.tuner with selection := s.restoreSelection }
    link := .cold
    clock.windowStart := some s.now
    clock.windowCount := 0
    power := { s.power with
      state := .standby, transition := .none, mains := true, qualSince := none, lastChange := .restore } }
  let s := restoreMechanism t.keptThreaded t.keptCassette w s
  postPower (clockJump .power (postClock (postTape s)))

/-- The cold start (R196): every unit at its cold start values, then STANDBY with its actions, or BACKUP, by the supply. The sensors
that no unit keeps stand as they were last reported. -/
def startCold (level : Supply) (w : Switches) (dew : Bool) (s : State) : State :=
  let cold := readSwitches w { State.cold s.now s.pending with
    pins := { s.pins with supply := level, dew := dew, written := none } }
  match level with
  | .normal => postPower (coldMechanism w { cold with transport.dew := dew })
  | .low => { cold with
      clock.windowStart := none
      power := { Power.cold s.now with state := .backup, mains := false } }

end Sys2Proof.Machine
end

