-- ==== Sys2Proof/Machine/RequestsDeck.lean ====
section
/-! DEFINITION. The owners' answers to the requests of the link, the power manager, the clock, the transport controller, the
position unit and the cue mark unit (R5, R11, R17, R35, R40, R44, R52, R60, R132 to R134, R191, R204 to R206). -/

namespace Sys2Proof.Machine

/-- A reply with a status and no fields. -/
def answer (st : Status) (s : State) : State × Reply := (s, { status := st })

/-- A reply OK with fields and no change. -/
def report (fields : List Byte) (s : State) : State × Reply := (s, { status := .ok, fields := fields })

/-! ### Link -/

/-- IDENT (R205). -/
def identRequest (s : State) : State × Reply :=
  report (bytesOf 2 Config.vendorCode ++ bytesOf 2 Config.partNumber ++ bytesOf 1 Config.maskRevision) s

/-- NOTE_FLOW (R204). -/
def noteFlowRequest (flow period : Byte) (s : State) : State × Reply :=
  match flagOf flow with
  | none => answer .range s
  | some on =>
    answer (if 60 < period.toNat then .clamped else .ok)
      { s with link.flow := on, link.period := Nat.min 60 period.toNat }

/-- SYSTEM_SET (R205). -/
def systemSetRequest (frameSystem autoRewind markPresent markCode : Byte) (s : State) : State × Reply :=
  match flagOf autoRewind, flagOf markPresent with
  | some rewind, some present =>
    let fr := frameSystem.toNat
    if fr ≠ 25 ∧ fr ≠ 30 then answer .range s
    else if fr ≠ s.settings.frameRate ∧ s.transport.mode ≠ .empty then answer .notReady s
    else answer .ok { s with settings :=
      { frameRate := fr, autoRewind := rewind, defaultMark := if present then some markCode else none } }
  | _, _ => answer .range s

/-- The navigation unit's part of DECK_RESET (R87). -/
def resetNavigation (s : State) : State :=
  let s := if s.nav.goto.active then closeGoto .cancelled s else s
  let s := if s.nav.run.state.active then closeRun .stopped s else s
  { s with nav.watches := List.replicate 8 none }

/-- The scan unit's and the tuner controller's part of DECK_RESET (R109, R118). In STOPPING the part is OPERATING and the tuner is
powered, and the tuning begins there too (DESIGN CHOICE, log 61). -/
def resetTuner (s : State) : State :=
  let s := dropOperatorTuner (cutScan .stopped (some .deckReset) s)
  if s.tunerOf = .free ∧ s.power.state = .operating then retune s else s

/-- The transport's part of DECK_RESET (R13, R28): the recovery in FAULT, the target STOP elsewhere; the stop cause is cleared. -/
def resetTransport (s : State) : State :=
  let s :=
    if s.transport.mode = .fault then recover false s
    else if s.transport.recovering then turnRecovery false s
    else setTarget .stop none s
  noteChange s.transport { s with transport.stopCause := none }

/-- The DECK_RESET sequence ends at once where the transport stands in STOP, EMPTY or FAULT, or a program has been granted the
mechanism (R181, R189). -/
def endResetAtRest (s : State) : State :=
  let m := s.transport.mode
  if !s.transport.resetInFlight || m == .stop || m == .empty || m == .fault then
    resumeAfterReset { s with transport.resetInFlight := false }
  else s

/-- DECK_RESET (R28, R63, R87, R109, R181, R189, R206): the port first, then every unit. A PROTECT claim with cause MECH is kept. -/
def deckResetRequest (s : State) : State × Reply :=
  let s := { s with
    link.input := [], link.replies := [], link.outbox := [], link.assembly := none, marks.passCount := 0
    transport.resetInFlight := true, transport.rewindDue := false }
  let s := resetTuner (resetNavigation (abandonTimer .preempted s))
  let s := if s.mech = .protect .mech then s else setMech .free s
  answer .accepted (endResetAtRest (resetTransport s))

/-! ### Power and clock -/

/-- POWER (R191). -/
def powerRequest (target : Byte) (s : State) : State × Reply :=
  if target = 1 then let r := requestStandby .host s; answer r.2 r.1
  else if target = 2 then let r := requestOperate s; answer r.2 r.1
  else answer .range s

/-- CLOCK_SET (R133). -/
def clockSetRequest (t : StampBytes) (s : State) : State × Reply :=
  match secondsOf t with
  | none => answer .range s
  | some time =>
    if s.programActive then answer .busyTimer s
    else
      let c := s.clock
      let c := { c with time := time, sinceBoundary := 0, cycleCount := c.cycleCount.map fun _ => 0, set := true }
      answer .ok (clockJump .clockSet (postClock { s with clock := c }))

/-- CLOCK_READ (R134). -/
def clockReadRequest (s : State) : State × Reply := report s.clockBytes s

/-- CLOCK_SOURCE (R132). -/
def clockSourceRequest (setting : Byte) (s : State) : State × Reply :=
  match valueAt SourceSetting.all setting with
  | none => answer .range s
  | some v =>
    if v = s.clock.setting then answer .ok s
    else answer .ok (postClock (recomputeSource { s with clock.setting := v }))

/-! ### Transport -/

/-- MOTION (R5). An answer OK by check 7 gives no target, and leaves the stop cause (DESIGN CHOICE, log 41). -/
def motionRequest (target : Byte) (s : State) : State × Reply :=
  match motionTarget target with
  | none => answer .range s
  | some m =>
    let mode := s.transport.mode
    if s.inStandby then answer .notReady s
    else if mode = .empty ∨ mode = .ejecting ∨ mode = .fault then answer .notReady s
    else match s.mech.refusal with
      | some st => answer st s
      | none =>
        if mode ≠ .loading ∧ s.tabForbids m then answer .tabAbsent s
        else if m.threaded ∧ mode = .stop ∧ s.transport.dew then answer .notReady s
        else if mode = m ∧ s.transport.change = none then answer .ok (releaseIfStill (grantOperator .direct s))
        else
          let s := grantOperator .direct s
          answer .accepted (if m = .record then giveRecord .operator s else giveTarget m s)

/-- REC_SPEED (R17); a change while f is present posts TAPE and evaluates the REMAIN watches (R39, R78). It evaluates them with the held
flag set too: R78 evaluates each change of the setting with the fraction present, and also says of a held estimate that it is not
evaluated again before its next computation (DESIGN CHOICE, log 47). -/
def recSpeedRequest (speed : Byte) (s : State) : State × Reply :=
  match Speed.ofByte speed with
  | none => answer .range s
  | some v =>
    let changed := v != s.transport.recordSpeed
    let s := postMode { s with transport.recordSpeed := v }
    answer .ok (if changed && s.tape.fraction.isSome then evaluateRemain (postTape s) else s)

/-- EJECT (R11, R13; log 12). -/
def ejectRequest (s : State) : State × Reply :=
  match s.transport.mode with
  | .empty => answer .notReady s
  | .ejecting => answer .ok s
  | .fault => answer .accepted (recover true s)
  | _ =>
    if s.transport.recovering then answer .accepted (turnRecovery true s)
    else match s.mech.refusal with
      | some st => answer st s
      | none => answer .accepted (giveTarget .empty (grantOperator .direct s))

/-! ### Position and cue marks -/

/-- No cassette stands in the deck for the requests that belong to it (R35, R44, R75, R81). -/
def State.noCassetteYet (s : State) : Bool :=
  s.transport.mode == .empty || s.transport.mode == .loading || s.transport.mode == .ejecting

/-- COUNTER_ZERO (R44): NOT_READY comes before BUSY where both exceptions are met (DESIGN CHOICE, log 42). -/
def counterZeroRequest (s : State) : State × Reply :=
  if s.noCassetteYet then answer .notReady s
  else if s.nav.goto.active || s.nav.run.state.active then answer .busy s
  else answer .ok (postTape { s with tape.counter := 0, tape.quality := .exact })

/-- TAPE_READ (R40). -/
def tapeReadRequest (s : State) : State × Reply := report s.tapeBytes s

/-- The class is set, or made unknown, and the estimate discarded (R35, R78). -/
def declareClass (c : Option CassetteClass) (s : State) : State :=
  let origin := if c.isSome then ClassOrigin.declared else .none
  forgetSides { s with tape := { s.tape with cls := c, origin := origin, fraction := none, held := false } }

/-- CLASS_SET (R35). -/
def classSetRequest (cls : Byte) (s : State) : State × Reply :=
  let named := valueAt CassetteClass.all cls
  if cls ≠ 0 ∧ named = none then answer .range s
  else if s.noCassetteYet then answer .notReady s
  else
    let s := { s with tape.idCount := 0, tape.candidate := none }
    let s := if named.isSome ∧ named = s.tape.cls then { s with tape.origin := .declared } else declareClass named s
    answer .ok (postTape s)

/-- MARK_NOW (R52). -/
def markNowRequest (code : Byte) (s : State) : State × Reply :=
  if s.transport.mode ≠ .record ∨ s.transport.target.any (· != .record) then answer .notReady s
  else if s.marks.writer.isSome then answer .busy s
  else answer .accepted (startMark code s)

/-- MARK_LIST (R60). -/
def markListRequest (first : Byte) (s : State) : State × Reply :=
  if 15 < first.toNat then answer .range s
  else
    let h := s.marks.history
    report ([byteOf h.length, first] ++ ((h.drop first.toNat).take 10).flatMap (·.bytes)) s

end Sys2Proof.Machine
end

