-- ==== Sys2Proof/Machine/RequestsNavigation.lean ====
section
/-! DEFINITION. The navigation unit's answers to its requests, with the port's assembly of RUN_LOAD (R65, R73, R75, R81, R82, R85,
R207). -/

namespace Sys2Proof.Machine

/-! ### Go-to -/

/-- The form of a GOTO request, when its fields are in range (R65 check 1). Fields that a form does not use are not checked
(R200). -/
def gotoForm (form : Byte) (target : Word24) (count direction present code mask : Byte) (s : State) : Option GotoForm :=
  if form = 1 then (if s.inCounterRange target.toInt then some (.counter target.toInt) else none)
  else if form = 2 then
    if count.toNat < 1 ∨ 99 < count.toNat then none
    else match flagOf present with
      | none => none
      | some filtered =>
        if direction = 1 then
          some (.markForward count.toNat (if filtered then some { code := code, mask := mask } else none))
        else if direction = 2 ∧ !filtered then some (.markBackward count.toNat)
        else none
  else none

/-- Checks 2 to 5 of R65, which RUN_START shares (R82). -/
def State.gotoRefusal (s : State) : Option Status :=
  let mode := s.transport.mode
  if s.inStandby then some .notReady
  else if mode = .empty ∨ mode = .loading ∨ mode = .ejecting ∨ mode = .fault then some .notReady
  else match s.mech.refusal with
    | some st => some st
    | none => if mode = .stop ∧ s.transport.dew then some .notReady else none

/-- GOTO (R65). -/
def gotoRequest (form final : Byte) (target : Word24) (count direction present code mask : Byte) (s : State) : State × Reply :=
  match gotoForm form target count direction present code mask s, valueAt FinalAction.all final with
  | some f, some a =>
    match s.gotoRefusal with
    | some st => answer st s
    | none =>
      (startGoto .host f a (grantOperator .goTo s),
        { status := .accepted, fields := [flagByte (s.tape.quality == .drifted)] })
  | _, _ => answer .range s

/-- GOTO_CANCEL (R73). -/
def gotoCancelRequest (s : State) : State × Reply :=
  if s.nav.goto.active then answer .ok (failGoto .cancelled .cancelled s) else answer .noSuch s

/-! ### Watches -/

/-- What a WATCH_SET entry watches, with whether a field was clamped (R75). -/
def watchKind (kind : Byte) (value : Word24) (choice code mask : Byte) (s : State) : Option (WatchKind × Bool) :=
  if kind = 1 then
    match valueAt DirectionFilter.all choice with
    | some f => if s.inCounterRange value.toInt then some (.counter value.toInt f, false) else none
    | none => none
  else if kind = 2 then
    if choice = 1 then some (.markAny, false)
    else if choice = 2 then some (.markCoded { code := code, mask := mask }, false)
    else none
  else if kind = 3 then
    if value.toInt < 0 then none
    else
      let t := value.toNat
      some (.remain (Nat.min 36000 (Nat.max 1 t)), decide (t < 1) || decide (36000 < t))
  else none

/-- A place number of the watch list. -/
def placeOf (place : Byte) : Option Nat := if 1 ≤ place.toNat ∧ place.toNat ≤ 8 then some place.toNat else none

/-- WATCH_SET (R75). A repeat flag above 1 and a negative REMAIN threshold are refused RANGE (R200) with R75's first check, ahead of
NOT_READY: R75 gives those refusals no place in its list (DESIGN CHOICE, log 53). -/
def watchSetRequest (place kind : Byte) (value : Word24) (choice code mask action again setCount : Byte) (s : State) :
    State × Reply :=
  match placeOf place, watchKind kind value choice code mask s, valueAt WatchAction.all action, flagOf again with
  | some n, some (k, clamped), some a, some rep =>
    if setCount = 0 then answer .range s
    else if s.noCassetteYet then answer .notReady s
    else
      let count := Nat.min 99 setCount.toNat
      let w : Watch :=
        { kind := k, side := .unknown, action := a, setCount := count, count := count, again := rep, fires := 0 }
      answer (if clamped || decide (99 < setCount.toNat) then .clamped else .ok) (s.withWatch n (some w))
  | _, _, _, _ => answer .range s

/-- WATCH_CLEAR (R75). -/
def watchClearRequest (place : Byte) (s : State) : State × Reply :=
  match placeOf place with
  | none => answer .range s
  | some n => if (s.watch n).isSome then answer .ok (s.withWatch n none) else answer .noSuch s

/-- WATCH_READ (R75). -/
def watchReadRequest (place : Byte) (s : State) : State × Reply :=
  match placeOf place with
  | none => answer .range s
  | some n => report ((s.watch n).elim (emptyWatchBytes n) fun w => w.bytes n true) s

/-! ### Segment runs -/

/-- The end of a segment as the link carries it: 0x800000 is NEXT_MARK (R207). -/
def segmentOf (w : SegmentWord) : Segment :=
  { start := w.start.toInt, stop := if w.stop = 0x800000 then .nextMark else .counter w.stop.toInt }

/-- A segment passes R81's first check. -/
def State.segmentValid (s : State) (g : Segment) : Bool :=
  s.inCounterRange g.start &&
    match g.stop with
    | .nextMark => true
    | .counter v => s.inCounterRange v && decide (g.start < v)

/-- R81's first check of the fields carried. -/
def State.runFieldsValid (s : State) (endAction : Byte) (segments : List SegmentWord) : Bool :=
  (valueAt EndAction.all endAction).isSome && segments.all fun w => s.segmentValid (segmentOf w)

/-- A whole list is handed to the navigation unit as the RUN_LOAD of R81. -/
def loadRun (endAction : Byte) (segments : List SegmentWord) (s : State) : State × Reply :=
  if segments.length < 1 ∨ 12 < segments.length ∨ !s.runFieldsValid endAction segments then answer .range s
  else if s.noCassetteYet then answer .notReady s
  else if s.nav.run.state.active then answer .busy s
  else
    let old := s.nav.run.state
    let s := { s with nav.run :=
      { s.nav.run with
        segments := segments.map segmentOf, endAction := valueAt EndAction.all endAction, state := .idle, result := none } }
    answer .ok (if old = .idle then s else postRun s)

/-- The assembly buffer is emptied. -/
def clearAssembly (s : State) : State := { s with link.assembly := none }

/-- RUN_LOAD through the port's assembly (R207). -/
def runLoadRequest (endAction total first : Byte) (segments : List SegmentWord) (s : State) : State × Reply :=
  let n := total.toNat
  let k := segments.length
  if n < 1 ∨ 12 < n then answer .range (clearAssembly s)
  else if first = 1 then
    if k = n then loadRun endAction segments (clearAssembly s)
    else if k < n then
      if s.runFieldsValid endAction segments then
        answer .ok { s with link.assembly := some { endAction := endAction, total := n, segments := segments } }
      else answer .range (clearAssembly s)
    else answer .range (clearAssembly s)
  else match s.link.assembly with
    | none => answer .range (clearAssembly s)
    | some a =>
      if first.toNat = a.segments.length + 1 ∧ a.endAction = endAction ∧ a.total = n ∧ a.segments.length + k = n then
        loadRun endAction (a.segments ++ segments) (clearAssembly s)
      else answer .range (clearAssembly s)

/-- RUN_START (R82). -/
def runStartRequest (s : State) : State × Reply :=
  match s.gotoRefusal with
  | some st => answer st s
  | none =>
    if s.nav.run.segments = [] then answer .notReady s
    else if s.nav.run.state.active then answer .busy s
    else
      let s := grantOperator .run s
      answer .accepted (seekSegments s.nav.run.segments.length 1 { s with nav.run.result := none })

/-- RUN_STOP (R85). -/
def runStopRequest (s : State) : State × Reply :=
  if s.nav.run.state.active then
    let s := if s.nav.goto.active then closeGoto .cancelled s else s
    answer .ok (passToDirect (giveRest (closeRun .stopped s)))
  else answer .noSuch s

/-- The part of the segment list that a RUN_READ carries: up to 8 segments in play order from segment `first`, and none where the
index is equal to the number of segments or above it, as the last sentence of R207 has it. -/
def Run.part (r : Run) (first : Nat) : List Segment :=
  if r.segments.length ≤ first then [] else (r.segments.drop (first - 1)).take 8

/-- RUN_READ (R207). -/
def runReadRequest (first : Byte) (s : State) : State × Reply :=
  let r := s.nav.run
  if first.toNat < 1 ∨ 12 < first.toNat then answer .range s
  else
    report ([r.state.byte, byteOf r.state.segment, optionByte EndAction.byte r.endAction, optionByte RunResult.byte r.result,
      byteOf r.segments.length, first] ++ (r.part first.toNat).flatMap (·.bytes)) s

end Sys2Proof.Machine
end

