-- ==== Sys2Proof/Machine/RequestsTuner.lean ====
section
/-! DEFINITION. The tuner controller's and the scan unit's answers to their requests (R90 to R92, R94, R98, R101, R106, R112,
R118 to R121). -/

namespace Sys2Proof.Machine

/-! ### Tuning -/

/-- What a TUNE request names. -/
inductive TuneForm where
  | preset (n : Nat)
  | up
  | down
  | direct (frequency : Nat)
  deriving DecidableEq, Repr

/-- R94 check 1. -/
def tuneForm (form preset : Byte) (frequency : Word16) : Option TuneForm :=
  let f := frequency.toNat
  if form = 1 then (if preset.toNat ≤ 99 then some (.preset preset.toNat) else none)
  else if form = 2 then some .up
  else if form = 3 then some .down
  else if form = 4 then
    if Config.lowestFrequency ≤ f ∧ f ≤ Config.highestFrequency then some (.direct f) else none
  else none

/-- The selection that a form resolves to; none for an EMPTY preset, and for a step with no eligible preset (R94 check 4, R98). -/
def State.resolve (s : State) : TuneForm → Option Selection
  | .preset n => if n = 0 ∨ (s.preset n).isSome then some (.preset n) else none
  | .up => s.stepUp.map .preset
  | .down => s.stepDown.map .preset
  | .direct f => some (.direct f)

/-- TUNE (R94). -/
def tuneRequest (form preset : Byte) (frequency : Word16) (s : State) : State × Reply :=
  match tuneForm form preset frequency with
  | none => answer .range s
  | some f =>
    if s.inStandby then answer .notReady s
    else if s.tunerOf.isTimer then answer .busyTimer s
    else match s.resolve f with
      | none => answer .noSuch s
      | some sel =>
        if sel = s.tuner.selection ∧ s.tuner.state ≠ .idle ∧ s.tunerOf ≠ .scan then answer .ok (setTunerClaim .direct s)
        else answer .accepted (beginTuning sel (setTunerClaim .direct (cutScan .replaced none s)))

/-- TUNER_READ (R101): the latch is reported as it stood, and cleared. -/
def tunerReadRequest (s : State) : State × Reply :=
  ({ s with tuner.latch := false }, { status := .ok, fields := s.tuningBytes ++ [byteOf s.pins.strength.toNat] })

/-! ### Presets -/

/-- A preset number 1..99. -/
def presetOf (preset : Byte) : Option Nat := if 1 ≤ preset.toNat ∧ preset.toNat ≤ 99 then some preset.toNat else none

/-- PRESET_WRITE (R90). -/
def presetWriteRequest (preset : Byte) (frequency : Word16) (fineTune flags labelLength : Byte) (chars : List Byte) (s : State) :
    State × Reply :=
  let f := frequency.toNat
  let fine := clampTo (-15) 15 fineTune.toInt
  let label := chars.take labelLength.toNat
  match presetOf preset with
  | none => answer .range s
  | some n =>
    if f < Config.lowestFrequency ∨ Config.highestFrequency < f ∨ 7 < flags.toNat ∨ 6 < labelLength.toNat ∨
        label.any (fun c => decide (63 < c.toNat)) then answer .range s
    else
      let p : Preset :=
        { frequency := f, fineTune := fine, aft := flags.getLsbD 0, skip := flags.getLsbD 1, lock := flags.getLsbD 2,
          label := label }
      answer (if fine = fineTune.toInt then .ok else .clamped) (writePreset n p s)

/-- PRESET_READ (R92). -/
def presetReadRequest (preset : Byte) (s : State) : State × Reply :=
  let n := preset.toNat
  if 99 < n then answer .range s else report (presetBytes n (s.preset n) (s.references n)) s

/-- The direct frequency that the cleared selection leaves: the tuned frequency less the AFT correction (R91; logs 16, 30). -/
def State.directAfterClear (s : State) (n : Nat) : Nat :=
  match s.tuner.base, s.tuner.tuned with
  | some base, some tuned =>
    if s.scan.inFlight then base else saturateFrequency (tuned - s.tuner.correction)
  | _, _ => saturateFrequency (Config.untunedDirectFrequency n)

/-- PRESET_CLEAR (R91). -/
def presetClearRequest (preset : Byte) (s : State) : State × Reply :=
  match presetOf preset with
  | none => answer .range s
  | some n =>
    if s.preset n = none then answer .noSuch s
    else if s.references n ≠ 0 then answer .inUse s
    else
      let direct := s.directAfterClear n
      let selected := s.tuner.selection = .preset n
      let s := s.withPreset n none
      answer .ok (if selected then postTune { s with tuner.selection := .direct direct } else s)

/-- OUTPUT_SELECT (R106). -/
def outputSelectRequest (setting : Byte) (s : State) : State × Reply :=
  match valueAt OutputSetting.all setting with
  | none => answer .range s
  | some v => answer .ok (postTune { s with tuner.output := v })

/-! ### Scan -/

/-- SCAN_START (R112). The change of the claim holder and an entry to TUNING from LOCKED or NO_SIGNAL fall in one event here: TUNE is
posted once, for the claim. An accepted TUNE that changes the holder posts for the claim and for its tuning (DESIGN CHOICE, log 54). -/
def scanStartRequest (form : Byte) (s : State) : State × Reply :=
  if form ≠ 1 ∧ form ≠ 2 then answer .range s
  else if s.inStandby then answer .notReady s
  else if s.tunerOf.isTimer then answer .busyTimer s
  else if s.scan.inFlight then answer .busy s
  else if form = 1 then answer .accepted (setTunerClaim .scan (startScan Config.lowestFrequency [] s))
  else match s.scan.resume with
    | none => answer .noSuch s
    | some f => answer .accepted (setTunerClaim .scan (startScan f s.scan.found s))

/-- SCAN_STOP (R118). -/
def scanStopRequest (s : State) : State × Reply :=
  if s.scan.inFlight then answer .ok (endScanToDirect .stopped (some .scanStop) s) else answer .noSuch s

/-- SCAN_READ (R119). -/
def scanReadRequest (first : Byte) (s : State) : State × Reply :=
  if 98 < first.toNat then answer .range s
  else
    report (s.scanBytes ++ first ::
      ((s.scan.found.drop first.toNat).take 12).flatMap fun e => bytesOf 2 e.1 ++ [byteOf e.2]) s

/-- SCAN_ADOPT (R120). -/
def scanAdoptRequest (first mode : Byte) (s : State) : State × Reply :=
  match presetOf first with
  | none => answer .range s
  | some p =>
    if mode ≠ 1 ∧ mode ≠ 2 then answer .range s
    else if s.scan.inFlight then answer .busy s
    else if s.scan.found = [] then answer .noSuch s
    else
      let a := adopt (mode == 1) p s
      (a.state,
        { status := .ok
          fields := [byteOf a.written.length, byteOf a.left.length, byteOf (a.written.head?.getD 0),
            byteOf (a.written.getLast?.getD 0)] })

end Sys2Proof.Machine
end

