-- ==== Sys2Proof/Machine/RequestsProgram.lean ====
section
/-! DEFINITION. The program scheduler's answers to its requests (R143 to R149, R178, R207). -/

namespace Sys2Proof.Machine

/-- A slot number 1..16. -/
def slotOf (slot : Byte) : Option Nat := if 1 ≤ slot.toNat ∧ slot.toNat ≤ 16 then some slot.toNat else none

/-- The slot is in CUEING, RECORDING or DEFERRED (R143, R146). -/
def State.slotBusy (s : State) (n : Nat) : Bool :=
  (s.program n).any fun p => p.state == .cueing || p.state == .recording || p.state == .deferred

/-- The fields of a PROG_WRITE payload after the slot, as the link carries them. -/
structure ProgramFields where
  year        : Byte
  month       : Byte
  day         : Byte
  hour        : Byte
  minute      : Byte
  duration    : Word16
  preset      : Byte
  speedMode   : Byte
  pattern     : Byte
  priority    : Byte
  endAction   : Byte
  markPresent : Byte
  markCode    : Byte
  deriving DecidableEq, Repr

/-- The start in minutes, when it is a valid date and time (R143 check 5). -/
def ProgramFields.start (f : ProgramFields) : Option Nat :=
  (secondsOf
    { year := f.year, month := f.month, day := f.day, hour := f.hour, minute := f.minute, second := 0 }).map (· / 60)

/-- A duration with its clamps (R144). -/
def ProgramFields.minutes (f : ProgramFields) : Nat := Nat.min 600 (Nat.max 1 f.duration.toNat)

/-- A duration or a priority is clamped (R144). -/
def ProgramFields.clamped (f : ProgramFields) : Bool :=
  decide (f.duration.toNat ≠ f.minutes) || decide (3 < f.priority.toNat)

/-- The record that a PROG_WRITE gives an ARMED program (R144). -/
def ProgramFields.program (f : ProgramFields) (v : SpeedMode) (k : Pattern) (a : EndAction) (marked : Bool) (start now : Nat) :
    Program :=
  let next := if k = .once then (start, false)
    else occurrenceSearch k start f.minutes now (some { at_ := start * 60, carried := false })
  { state := .armed, start := start, duration := f.minutes, preset := f.preset.toNat, speedMode := v, pattern := k,
    priority := Nat.min 3 f.priority.toNat, endAction := a, mark := if marked then some f.markCode else none, next := next.1,
    carried := next.2, deferral := none, run := .cleared, outcome := none, cause := none }

/-- A ONCE program whose window is past, has fewer than 60 s left, or would end after the calendar (R143 check 6). -/
def Program.tooLate (p : Program) (now : Nat) : Bool :=
  p.pattern == .once && (decide (p.windowEnd < now + 60) || decide (Config.calendarSeconds ≤ p.windowEnd))

/-- An accepted program is placed by the window of its current occurrence (R145). -/
def placeProgram (n : Nat) (p : Program) (s : State) : State :=
  if !p.begun s.clock.time then cueUp (postProg n (s.withSlot n (some p)))
  else if s.sched.active.isNone then rulesIfFree (lateStart n none (s.withSlot n (some p)))
  else postProg n (s.withSlot n (some (p.deferredWith .overlap)))

/-- PROG_WRITE (R143 to R145). A mark-present byte above 1 is refused RANGE (R200) with R143's first check, ahead of NOT_READY, BUSY_TIMER
and NO_SUCH: R143 gives that refusal no place in its list (DESIGN CHOICE, log 50). -/
def progWriteRequest (slot : Byte) (f : ProgramFields) (s : State) : State × Reply :=
  match slotOf slot, valueAt SpeedMode.all f.speedMode, valueAt Pattern.all f.pattern, valueAt EndAction.all f.endAction,
    flagOf f.markPresent with
  | some n, some v, some k, some a, some marked =>
    if 99 < f.preset.toNat then answer .range s
    else if !s.clock.set then answer .notReady s
    else if s.slotBusy n then answer .busyTimer s
    else if f.preset ≠ 0 ∧ s.preset f.preset.toNat = none then answer .noSuch s
    else match f.start with
      | none => answer .range s
      | some start =>
        let p := f.program v k a marked start s.clock.time
        if p.tooLate s.clock.time then answer .range s
        else answer (if f.clamped then .clamped else .ok) (placeProgram n p s)
  | _, _, _, _, _ => answer .range s

/-- The window left of a program, 0xFFFF when the window is not running (R210). -/
def Program.leftBytes (p : Program) (t : Nat) : List Byte :=
  wideBytes (if p.running t then some (p.windowEnd - t) else none)

/-- PROG_READ (R147, R210). -/
def progReadRequest (slot : Byte) (s : State) : State × Reply :=
  match slotOf slot with
  | none => answer .range s
  | some n =>
    let tail := match s.program n with
      | some p => minuteBytes (p.next + p.duration) ++ p.leftBytes s.clock.time
      | none => [0, 0, 0, 0, 0] ++ wideBytes none
    report (programBytes n (s.program n) ++ tail) s

/-- PROG_CLEAR (R146). -/
def progClearRequest (slot : Byte) (s : State) : State × Reply :=
  match slotOf slot with
  | none => answer .range s
  | some n =>
    if s.program n = none then answer .noSuch s
    else if s.slotBusy n then answer .busyTimer s
    else answer .ok (postProg n (s.withSlot n none))

/-- PROG_ABORT of the active program: STOP is given under the TIMER claims, which are released at once in STOP and EMPTY (R178). With
the mechanism under PROTECT there is no TIMER stop to wait for, and the TUNER claim is released (log 31). -/
def abortActive (n : Nat) (s : State) : State :=
  let s := finishActive .aborted s
  if !s.mech.isTimer || s.transport.mode == .stop || s.transport.mode == .empty then releaseTimer s
  else giveTarget .stop { s with sched.abortStop := some n }

/-- PROG_ABORT (R178). -/
def progAbortRequest (slot : Byte) (s : State) : State × Reply :=
  match slotOf slot with
  | none => answer .range s
  | some n =>
    match s.program n with
    | none => answer .noSuch s
    | some p =>
      match p.state with
      | .done => answer .noSuch s
      | .cueing | .recording => answer .ok (rulesIfFree (abortActive n s))
      | .deferred => answer .ok (rulesIfFree (finishShort n .aborted s))
      | .armed => answer .ok (rulesIfFree (finishSlot n .missed (some .aborted) s))

/-- An entry of PROG_ORDER's pending list: slot, next start, priority (R207). -/
def pendingEntry (s : State) (n : Nat) : List Byte :=
  byteOf n :: (s.program n).elim [] fun p => bytesOf 4 p.next ++ [byteOf p.priority]

/-- An entry of PROG_ORDER's deferred set: slot, deferral cause, window left (R207). -/
def deferredEntry (s : State) (n : Nat) : List Byte :=
  byteOf n :: (s.program n).elim [] fun p => optionByte DeferralCause.byte p.deferral :: p.leftBytes s.clock.time

/-- PROG_ORDER (R149, R207). -/
def progOrderRequest (part first : Byte) (s : State) : State × Reply :=
  if (part ≠ 1 ∧ part ≠ 2) ∨ 15 < first.toNat then answer .range s
  else
    let pending := s.pendingList
    let deferred := s.slotsIn .deferred
    let active : List Byte := s.activeProgram.elim [0, 0] fun ap => [byteOf ap.1.slot, ap.2.state.byte]
    let items :=
      if part = 1 then ((pending.drop first.toNat).take 8).flatMap (pendingEntry s)
      else ((deferred.drop first.toNat).take 8).flatMap (deferredEntry s)
    report (active ++ [byteOf pending.length, byteOf deferred.length, part, first] ++ items) s

end Sys2Proof.Machine
end

