-- ==== Sys2Proof/Machine/Link.lean ====
section
/-! DEFINITION. The deck link port (R197 to R203): the receiver, the input queue, dispatch, the reply list, the transmit line. -/

namespace Sys2Proof.Machine

/-! ### Dispatch (R199, R200) -/

/-- A byte of a payload. -/
def byteAt (payload : List Byte) (i : Nat) : Byte := payload.getD i 0

/-- The segments of a RUN_LOAD payload after its first three bytes: six bytes each (R207). -/
def segmentWords : List Byte → List SegmentWord
  | a :: b :: c :: d :: e :: f :: rest => { start := word24 a b c, stop := word24 d e f } :: segmentWords rest
  | _ => []

/-- The owner deals with a request of the right length (R199 step 4, R200). -/
def serve (k : RequestKind) (payload : List Byte) (s : State) : State × Reply :=
  let b := byteAt payload
  match k with
  | .ident => identRequest s
  | .noteFlow => noteFlowRequest (b 0) (b 1) s
  | .deckReset => deckResetRequest s
  | .power => powerRequest (b 0) s
  | .systemSet => systemSetRequest (b 0) (b 1) (b 2) (b 3) s
  | .clockSet =>
    clockSetRequest { year := b 0, month := b 1, day := b 2, hour := b 3, minute := b 4, second := b 5 } s
  | .clockRead => clockReadRequest s
  | .clockSource => clockSourceRequest (b 0) s
  | .motion => motionRequest (b 0) s
  | .recSpeed => recSpeedRequest (b 0) s
  | .eject => ejectRequest s
  | .counterZero => counterZeroRequest s
  | .tapeRead => tapeReadRequest s
  | .classSet => classSetRequest (b 0) s
  | .markNow => markNowRequest (b 0) s
  | .goto => gotoRequest (b 0) (b 1) (word24 (b 2) (b 3) (b 4)) (b 5) (b 6) (b 7) (b 8) (b 9) s
  | .gotoCancel => gotoCancelRequest s
  | .watchSet => watchSetRequest (b 0) (b 1) (word24 (b 2) (b 3) (b 4)) (b 5) (b 6) (b 7) (b 8) (b 9) (b 10) s
  | .watchClear => watchClearRequest (b 0) s
  | .watchRead => watchReadRequest (b 0) s
  | .runLoad => runLoadRequest (b 0) (b 1) (b 2) (segmentWords (payload.drop 3)) s
  | .runStart => runStartRequest s
  | .runStop => runStopRequest s
  | .runRead => runReadRequest (b 0) s
  | .markList => markListRequest (b 0) s
  | .tune => tuneRequest (b 0) (b 1) (word16 (b 2) (b 3)) s
  | .tunerRead => tunerReadRequest s
  | .presetWrite =>
    presetWriteRequest (b 0) (word16 (b 1) (b 2)) (b 3) (b 4) (b 5) [b 6, b 7, b 8, b 9, b 10, b 11] s
  | .presetRead => presetReadRequest (b 0) s
  | .presetClear => presetClearRequest (b 0) s
  | .scanStart => scanStartRequest (b 0) s
  | .scanStop => scanStopRequest s
  | .scanRead => scanReadRequest (b 0) s
  | .scanAdopt => scanAdoptRequest (b 0) (b 1) s
  | .outputSelect => outputSelectRequest (b 0) s
  | .progWrite =>
    progWriteRequest (b 0)
      { year := b 1, month := b 2, day := b 3, hour := b 4, minute := b 5, duration := word16 (b 6) (b 7), preset := b 8,
        speedMode := b 9, pattern := b 10, priority := b 11, endAction := b 12, markPresent := b 13, markCode := b 14 } s
  | .progRead => progReadRequest (b 0) s
  | .progClear => progClearRequest (b 0) s
  | .progAbort => progAbortRequest (b 0) s
  | .progOrder => progOrderRequest (b 0) (b 1) s

/-- The requests whose work can end a DECK_RESET sequence, a condition of the position unit, or a wait of STOPPING (R33, R38, R189,
R192). -/
def RequestKind.settles : RequestKind → Bool
  | .deckReset | .power | .clockSet | .clockSource | .motion | .recSpeed | .eject | .classSet | .goto | .gotoCancel | .runStart
  | .runStop | .progWrite | .progAbort => true
  | .ident | .noteFlow | .systemSet | .clockRead | .counterZero | .tapeRead | .markNow | .watchSet | .watchClear | .watchRead
  | .runLoad | .runRead | .markList | .tune | .tunerRead | .presetWrite | .presetRead | .presetClear | .scanStart | .scanStop
  | .scanRead | .scanAdopt | .outputSelect | .progRead | .progClear | .progOrder => false

/-- A reply frame: the kind of its request plus 0x40 (R201). -/
def replyFrame (k : RequestKind) (r : Reply) : Frame := { origin := .dispatched, kind := k.code + 0x40, payload := r.payload }

/-- A link-error reply: kind 0x7F, the status, the echoed byte (R201). -/
def errorFrame (origin : FrameOrigin) (st : Status) (echo : Byte) : Frame :=
  { origin := origin, kind := 0x7F, payload := [st.byte, echo] }

/-- A reply joins the reply list (R201). -/
def putReply (f : Frame) (s : State) : State := { s with link.replies := s.link.replies ++ [f] }

/-- The reply to an entry, by the steps of R199. -/
def dispatchEntry (e : Entry) (s : State) : State :=
  let first := byteAt e.body 0
  if !e.good then putReply (errorFrame .dispatched .badCheck first) s
  else match RequestKind.ofByte first with
    | none => putReply (errorFrame .dispatched .badKind first) s
    | some k =>
      if k.admitsLength (e.body.length - 1) then
        let r := serve k e.body.tail s
        putReply (replyFrame k r.2) (if k.settles then settleUnits s r.1 else r.1)
      else putReply (errorFrame .dispatched .badLength first) s

/-- The entry at the head of the input queue is dispatched when no dispatched reply is in the reply list or on the line (R199). -/
def dispatch (s : State) : State :=
  if s.link.replyOutstanding then s
  else match s.link.input with
    | [] => s
    | e :: rest => dispatchEntry e { s with link.input := rest }

/-! ### Reception (R197, R198) -/

/-- OVERRUN replies waiting in the reply list. -/
def Link.overruns (l : Link) : Nat := l.replies.countP fun f => f.origin == .overrun

/-- A frame has been completed (R198): it joins the input queue, and is dispatched at once if the queue was empty with no dispatched
reply outstanding; with four entries queued it is answered OVERRUN, unless four such replies wait. -/
def frameArrives (e : Entry) (s : State) : State :=
  if s.link.input.length < 4 then
    let s' := { s with link.input := s.link.input ++ [e] }
    if s.link.input = [] then dispatch s' else s'
  else if s.link.overruns < 4 then putReply (errorFrame .overrun .overrun (byteAt e.body 0)) s
  else s

/-- The check is good when the length, the body and the check byte add to a multiple of 256 (R198). -/
def checkGood (length : Nat) (body : List Byte) (check : Byte) : Bool :=
  (length + (body.map (·.toNat)).sum + check.toNat) % 256 == 0

/-- A byte reaches the receiver (R197). -/
def receiveByte (b : Byte) (s : State) : State :=
  let s := { s with link.lastByte := s.now }
  match s.link.receiver with
  | .hunt => if b = 0xC3 then { s with link.receiver := .length } else s
  | .length =>
    if b = 0xC3 then s
    else if 1 ≤ b.toNat ∧ b.toNat ≤ 60 then { s with link.receiver := .body b.toNat [] }
    else { s with link.receiver := .hunt }
  | .body n taken =>
    let taken := taken ++ [b]
    { s with link.receiver := if taken.length < n then .body n taken else .check n taken }
  | .check n taken => frameArrives { body := taken, good := checkGood n taken b } { s with link.receiver := .hunt }

/-- A gap of more than 20 ms abandons a frame in reception (R197). -/
def gapPassed (s : State) : Bool := decide (s.link.lastByte + milliseconds 20 < s.now)

/-- A byte on the receive line: a gap before it or a missing stop bit abandons the frame, and a byte with a missing stop bit is
discarded (R197). -/
def receive (b : Byte) (stopBit : Bool) (s : State) : State :=
  let s := if gapPassed s then { s with link.receiver := .hunt } else s
  if stopBit then receiveByte b s else { s with link.receiver := .hunt }

/-! ### Transmission (R202, R203) -/

/-- The code of a note (R204). -/
def NoteKey.kind : NoteKey → Byte
  | .mode => 0x80
  | .tape => 0x81
  | .mark => 0x82
  | .watch _ => 0x83
  | .goto => 0x84
  | .run => 0x85
  | .tune => 0x86
  | .scan => 0x87
  | .prog _ => 0x88
  | .clock => 0x89
  | .power => 0x8A

/-- The key byte: place, slot, or 0 (R209). -/
def NoteKey.byte : NoteKey → Byte
  | .watch n | .prog n => byteOf n
  | .mode | .tape | .mark | .goto | .run | .tune | .scan | .clock | .power => 0

/-- A note as it is sent; the TAPE note is formed from the position record at that moment (R40, R203). -/
def noteFrame (n : Note) (s : State) : Frame :=
  { origin := .note
    kind := n.key.kind
    payload := n.key.byte :: byteOf n.count :: (if n.key = .tape then s.tapeBytes else n.content) }

/-- The fires pending of a place return to 0. -/
def clearFires (n : Nat) (l : List (Option Watch)) : List (Option Watch) :=
  if n = 0 then l else l.modify (n - 1) fun w => w.map fun w => { w with fires := 0 }

/-- The sending of a MARK note returns the pass count to 0, and of a WATCH note the fires pending of its place (R61, R74, R203). -/
def noteSent (k : NoteKey) (s : State) : State :=
  match k with
  | .mark => { s with marks.passCount := 0 }
  | .watch n => { s with nav.watches := clearFires n s.nav.watches }
  | .mode | .tape | .goto | .run | .tune | .scan | .prog _ | .clock | .power => s

/-- The next frame when the line is idle: the oldest reply, or with flow enabled the first note (R202). In BACKUP the line is held
idle (R208). -/
def chooseFrame (s : State) : State :=
  if s.power.state = .backup ∨ s.link.line.isSome then s
  else match s.link.replies with
    | r :: rest => { s with link.line := some r, link.replies := rest }
    | [] =>
      if s.link.flow then
        match s.link.outbox with
        | [] => s
        | n :: rest => noteSent n.key { s with link.line := some (noteFrame n s), link.outbox := rest }
      else s

/-- The bytes of a frame on the line: lead byte, length, kind, payload, check (R202, R209). -/
def Frame.bytes (f : Frame) : List Byte :=
  let body := f.kind :: f.payload
  let sum := body.length + (body.map (·.toNat)).sum
  0xC3 :: byteOf body.length :: (body ++ [byteOf (256 - sum % 256)])

/-- The frame on the line ends; the end of a dispatched reply lets the next entry be dispatched (R199, R202). -/
def lineEnds (s : State) : State :=
  match s.link.line with
  | none => s
  | some f =>
    let s := { s with link.line := none }
    if f.origin = .dispatched then dispatch s else s

/-! ### The end of an event -/

/-- An event that works on the link alone: the next frame is chosen if the line is idle. -/
def endLinkEvent (s : State) : State := chooseFrame s

/-- An event of the deck: the conditions that other units watch are settled, and the next frame is chosen. -/
def endDeckEvent (before s : State) : State := chooseFrame (settleUnits before s)

end Sys2Proof.Machine
end

