-- ==== Sys2Proof/Machine/LinkCommands.lean ====
section
/-! DEFINITION. The meanings of the request rows: each is the arrival of a complete good frame with the code and the payload that
R200 gives its kind (R197 to R199; log 3). The owner's answer is in Requests*.lean. -/

namespace Sys2Proof.Machine

/-- A frame with a good check arrives whole; in BACKUP the link does not receive (R194, R208). -/
def requestFrame (k : RequestKind) (payload : List Byte) (s : State) : State :=
  if s.power.state = .backup then s else endLinkEvent (frameArrives { body := k.code :: payload, good := true } s)

/-- The segments of a RUN_LOAD as the frame carries them (R207). -/
def segmentField (w : SegmentWord) : List Byte := bytesOf 3 w.start.toNat ++ bytesOf 3 w.stop.toNat

/-- IDENT (R205). -/
def execIdent (s : State) : Host.Outcome State Fault Refusal := .next (requestFrame .ident [] s)

/-- NOTE_FLOW (R204). -/
def execNoteFlow (flow period : Byte) (s : State) : Host.Outcome State Fault Refusal :=
  .next (requestFrame .noteFlow [flow, period] s)

/-- DECK_RESET (R206). -/
def execDeckReset (s : State) : Host.Outcome State Fault Refusal := .next (requestFrame .deckReset [] s)

/-- POWER naming STANDBY (R191). -/
def execPowerStandby (s : State) : Host.Outcome State Fault Refusal := .next (requestFrame .power [1] s)

/-- POWER naming OPERATE (R191). -/
def execPowerOperate (s : State) : Host.Outcome State Fault Refusal := .next (requestFrame .power [2] s)

/-- SYSTEM_SET (R205). -/
def execSystemSet (frameSystem autoRewind markPresent markCode : Byte) (s : State) : Host.Outcome State Fault Refusal :=
  .next (requestFrame .systemSet [frameSystem, autoRewind, markPresent, markCode] s)

/-- CLOCK_SET (R133). -/
def execClockSet (t : StampBytes) (s : State) : Host.Outcome State Fault Refusal :=
  .next (requestFrame .clockSet [t.year, t.month, t.day, t.hour, t.minute, t.second] s)

/-- CLOCK_READ (R134). -/
def execClockRead (s : State) : Host.Outcome State Fault Refusal := .next (requestFrame .clockRead [] s)

/-- CLOCK_SOURCE (R132). -/
def execClockSource (setting : Byte) (s : State) : Host.Outcome State Fault Refusal :=
  .next (requestFrame .clockSource [setting] s)

/-- MOTION (R5). -/
def execMotion (target : Byte) (s : State) : Host.Outcome State Fault Refusal := .next (requestFrame .motion [target] s)

/-- REC_SPEED (R17). -/
def execRecSpeed (speed : Byte) (s : State) : Host.Outcome State Fault Refusal := .next (requestFrame .recSpeed [speed] s)

/-- EJECT (R11). -/
def execEject (s : State) : Host.Outcome State Fault Refusal := .next (requestFrame .eject [] s)

/-- COUNTER_ZERO (R44). -/
def execCounterZero (s : State) : Host.Outcome State Fault Refusal := .next (requestFrame .counterZero [] s)

/-- TAPE_READ (R40). -/
def execTapeRead (s : State) : Host.Outcome State Fault Refusal := .next (requestFrame .tapeRead [] s)

/-- CLASS_SET (R35). -/
def execClassSet (cls : Byte) (s : State) : Host.Outcome State Fault Refusal := .next (requestFrame .classSet [cls] s)

/-- MARK_NOW (R52). -/
def execMarkNow (code : Byte) (s : State) : Host.Outcome State Fault Refusal := .next (requestFrame .markNow [code] s)

/-- GOTO of the counter form; the fields of the mark form are carried as 0 (R66, R200). -/
def execGotoCounter (finalAction : Byte) (target : Word24) (s : State) : Host.Outcome State Fault Refusal :=
  .next (requestFrame .goto ([1, finalAction] ++ bytesOf 3 target.toNat ++ [0, 0, 0, 0, 0]) s)

/-- GOTO of the mark form, FORWARD (R69). -/
def execGotoMarkForward (finalAction count present code mask : Byte) (s : State) : Host.Outcome State Fault Refusal :=
  .next (requestFrame .goto [2, finalAction, 0, 0, 0, count, 1, present, code, mask] s)

/-- GOTO of the mark form, BACKWARD (R70). -/
def execGotoMarkBackward (finalAction count present code mask : Byte) (s : State) : Host.Outcome State Fault Refusal :=
  .next (requestFrame .goto [2, finalAction, 0, 0, 0, count, 2, present, code, mask] s)

/-- GOTO_CANCEL (R73). -/
def execGotoCancel (s : State) : Host.Outcome State Fault Refusal := .next (requestFrame .gotoCancel [] s)

/-- WATCH_SET (R75). -/
def execWatchSet (place kind : Byte) (value : Word24) (choice code mask action again setCount : Byte)
    (s : State) : Host.Outcome State Fault Refusal :=
  .next (requestFrame .watchSet ([place, kind] ++ bytesOf 3 value.toNat ++ [choice, code, mask, action, again, setCount]) s)

/-- WATCH_CLEAR (R75). -/
def execWatchClear (place : Byte) (s : State) : Host.Outcome State Fault Refusal := .next (requestFrame .watchClear [place] s)

/-- WATCH_READ (R75). -/
def execWatchRead (place : Byte) (s : State) : Host.Outcome State Fault Refusal := .next (requestFrame .watchRead [place] s)

/-- RUN_LOAD (R207): a frame of at most 60 bytes holds nine segments; one with a number of segments that R200 does not admit is
answered BAD_LENGTH, and one that no frame can carry is refused (R197; log 4). -/
def execRunLoad (endAction total first : Byte) (segments : List SegmentWord) (s : State) : Host.Outcome State Fault Refusal :=
  if 9 < segments.length then .refused .notAFrame
  else .next (requestFrame .runLoad ([endAction, total, first] ++ segments.flatMap segmentField) s)

/-- RUN_START (R82). -/
def execRunStart (s : State) : Host.Outcome State Fault Refusal := .next (requestFrame .runStart [] s)

/-- RUN_STOP (R85). -/
def execRunStop (s : State) : Host.Outcome State Fault Refusal := .next (requestFrame .runStop [] s)

/-- RUN_READ (R207). -/
def execRunRead (first : Byte) (s : State) : Host.Outcome State Fault Refusal := .next (requestFrame .runRead [first] s)

/-- MARK_LIST (R60). -/
def execMarkList (first : Byte) (s : State) : Host.Outcome State Fault Refusal := .next (requestFrame .markList [first] s)

/-- TUNE of the preset form (R94). -/
def execTunePreset (preset : Byte) (s : State) : Host.Outcome State Fault Refusal :=
  .next (requestFrame .tune [1, preset, 0, 0] s)

/-- TUNE of the form STEP_UP (R98). -/
def execTuneStepUp (s : State) : Host.Outcome State Fault Refusal := .next (requestFrame .tune [2, 0, 0, 0] s)

/-- TUNE of the form STEP_DOWN (R98). -/
def execTuneStepDown (s : State) : Host.Outcome State Fault Refusal := .next (requestFrame .tune [3, 0, 0, 0] s)

/-- TUNE of the direct form (R94). -/
def execTuneDirect (frequency : Word16) (s : State) : Host.Outcome State Fault Refusal :=
  .next (requestFrame .tune ([4, 0] ++ bytesOf 2 frequency.toNat) s)

/-- TUNER_READ (R101). -/
def execTunerRead (s : State) : Host.Outcome State Fault Refusal := .next (requestFrame .tunerRead [] s)

/-- PRESET_WRITE (R90). -/
def execPresetWrite (preset : Byte) (frequency : Word16) (fineTune flags labelLength c1 c2 c3 c4 c5 c6 : Byte)
    (s : State) : Host.Outcome State Fault Refusal :=
  .next (requestFrame .presetWrite (preset :: (bytesOf 2 frequency.toNat ++ [fineTune, flags, labelLength, c1, c2, c3, c4, c5, c6])) s)

/-- PRESET_READ (R92). -/
def execPresetRead (preset : Byte) (s : State) : Host.Outcome State Fault Refusal := .next (requestFrame .presetRead [preset] s)

/-- PRESET_CLEAR (R91). -/
def execPresetClear (preset : Byte) (s : State) : Host.Outcome State Fault Refusal := .next (requestFrame .presetClear [preset] s)

/-- SCAN_START of the form FRESH (R112). -/
def execScanStartFresh (s : State) : Host.Outcome State Fault Refusal := .next (requestFrame .scanStart [1] s)

/-- SCAN_START of the form RESUME (R112). -/
def execScanStartResume (s : State) : Host.Outcome State Fault Refusal := .next (requestFrame .scanStart [2] s)

/-- SCAN_STOP (R118). -/
def execScanStop (s : State) : Host.Outcome State Fault Refusal := .next (requestFrame .scanStop [] s)

/-- SCAN_READ (R119). -/
def execScanRead (first : Byte) (s : State) : Host.Outcome State Fault Refusal := .next (requestFrame .scanRead [first] s)

/-- SCAN_ADOPT in REPLACE mode (R120). -/
def execScanAdoptReplace (first : Byte) (s : State) : Host.Outcome State Fault Refusal :=
  .next (requestFrame .scanAdopt [first, 1] s)

/-- SCAN_ADOPT in APPEND mode (R120). -/
def execScanAdoptAppend (first : Byte) (s : State) : Host.Outcome State Fault Refusal :=
  .next (requestFrame .scanAdopt [first, 2] s)

/-- OUTPUT_SELECT (R106). -/
def execOutputSelect (setting : Byte) (s : State) : Host.Outcome State Fault Refusal :=
  .next (requestFrame .outputSelect [setting] s)

/-- PROG_WRITE (R143). -/
def execProgWrite (slot year month day hour minute : Byte) (duration : Word16)
    (preset speedMode pattern priority endAction markPresent markCode : Byte)
    (s : State) : Host.Outcome State Fault Refusal :=
  .next (requestFrame .progWrite ([slot, year, month, day, hour, minute] ++ bytesOf 2 duration.toNat ++
    [preset, speedMode, pattern, priority, endAction, markPresent, markCode]) s)

/-- PROG_READ (R147). -/
def execProgRead (slot : Byte) (s : State) : Host.Outcome State Fault Refusal := .next (requestFrame .progRead [slot] s)

/-- PROG_CLEAR (R146). -/
def execProgClear (slot : Byte) (s : State) : Host.Outcome State Fault Refusal := .next (requestFrame .progClear [slot] s)

/-- PROG_ABORT (R178). -/
def execProgAbort (slot : Byte) (s : State) : Host.Outcome State Fault Refusal := .next (requestFrame .progAbort [slot] s)

/-- PROG_ORDER (R149). -/
def execProgOrder (part first : Byte) (s : State) : Host.Outcome State Fault Refusal :=
  .next (requestFrame .progOrder [part, first] s)

/-! ### Frames in error, bytes, gaps, the end of a frame -/

/-- A body that a frame can carry (R197). -/
def carried (body : List Byte) : Bool := decide (1 ≤ body.length) && decide (body.length ≤ 60)

/-- BAD_CHECK (R198, R199 step 1). -/
def execBadCheck (body : List Byte) (s : State) : Host.Outcome State Fault Refusal :=
  if !carried body then .refused .notAFrame
  else .next (if s.power.state = .backup then s else endLinkEvent (frameArrives { body := body, good := false } s))

/-- A frame with any body arrives whole with a good check. -/
def bodyFrame (body : List Byte) (s : State) : Host.Outcome State Fault Refusal :=
  if !carried body then .refused .notAFrame
  else .next (if s.power.state = .backup then s else endLinkEvent (frameArrives { body := body, good := true } s))

/-- BAD_KIND (R199 step 2). -/
def execBadKind (kind : Byte) (payload : List Byte) (s : State) : Host.Outcome State Fault Refusal := bodyFrame (kind :: payload) s

/-- BAD_LENGTH (R199 step 3). -/
def execBadLength (kind : Byte) (payload : List Byte) (s : State) : Host.Outcome State Fault Refusal := bodyFrame (kind :: payload) s

/-- BYTE_RECEIVED (R197, R198). -/
def execByteReceived (byte : Byte) (stopBit : Bool) (s : State) : Host.Outcome State Fault Refusal :=
  .next (if s.power.state = .backup then s else endLinkEvent (receive byte stopBit s))

/-- RECEIVE_GAP_TIMEOUT (R197): time goes on past the 20 ms, and the frame in reception is abandoned (log 2). -/
def execReceiveGapTimeout (s : State) : Host.Outcome State Fault Refusal :=
  .next (if s.power.state = .backup ∨ s.link.receiver = .hunt then s
    else { leapTo (s.link.lastByte + milliseconds 20 + 1) s with link.receiver := .hunt })

/-- TRANSMIT_END (R202). -/
def execTransmitEnd (s : State) : Host.Outcome State Fault Refusal :=
  .next (if s.power.state = .backup then s else endLinkEvent (lineEnds s))

end Sys2Proof.Machine
end

