-- ==== Sys2Proof/Machine/MechanismEvents.lean ====
section
/-! DEFINITION. The meanings of the transport's events: switches, sensors, servo, protections (R8 to R24). An event that the state
does not admit changes nothing but what its sensor reports (log 2). -/

namespace Sys2Proof.Machine

/-- An event that the deck acts on outside BACKUP (R194). -/
def deckEvent (act : State → State) (s : State) : State := if s.power.state = .backup then s else endDeckEvent s (act s)

/-- A timer runs out: time goes on to its limit, and the event is taken; with no limit running nothing happens (log 2). -/
def timerEvent (limit : Option Nat) (act : State → State) (s : State) : State :=
  match limit with
  | none => s
  | some t => deckEvent (fun s => act (leapTo t s)) s

/-- A limit that runs while a condition holds. -/
def limitWhile (running : Bool) (limit : Nat) : Option Nat := if running then some limit else none

/-- A mechanical step is in flight. -/
def State.stepping (s : State) (step : MechStep) : Bool := s.transport.change == some (.mech step)

/-! ### Mechanical steps (R8 to R12) -/

/-- The cassette-in switch closes (R8). -/
def cassetteIn (s : State) : State :=
  let s := { s with pins.cassetteIn := true }
  if s.transport.mode = .empty then deckEvent beginLoading s else s

/-- CASSETTE_INSERT (R8). -/
def execCassetteInsert (s : State) : Host.Outcome State Fault Refusal := .next (cassetteIn s)

/-- STOP is entered with a cassette load: the tab is read, the play speed class becomes 1, the stop cause is cleared, and the load is
signalled before the path is chosen (R8, R26). -/
def enterLoaded (s : State) : State :=
  let s := if s.transport.target.all (· == .stop) then endRecovery s else s
  let s := { s with
    transport.recordTab := s.pins.recordTab, transport.playSpeed := .standard, transport.stopCause := none }
  programAtLoad (atStop (cassetteLoad (enterMode .stop none s)))

/-- The loaded position is reported (R8); in FAULT it is kept as a reading (R12). -/
def loaded (recordTab : Bool) (s : State) : State :=
  let s := { s with pins.position := .loaded, pins.recordTab := recordTab }
  if s.stepping .loading then deckEvent enterLoaded s else s

/-- LOADING_COMPLETE (R8). -/
def execLoadingComplete (recordTab : Bool) (s : State) : Host.Outcome State Fault Refusal := .next (loaded recordTab s)

/-- The threaded tape goes back to STOP: there is no threaded target to go to (R9; log 11). -/
def threadBack (s : State) : State :=
  beginUnthreading .plain { s with transport.target := some (s.transport.target.getD .stop) }

/-- Threading is confirmed: the servo change toward the newest target begins, or UNTHREADING follows (R9, R4; log 11). -/
def enterThreaded (s : State) : State :=
  match s.transport.target with
  | none | some .stop | some .empty => threadBack s
  | some m => if s.recordForbidden m then threadBack (dropTarget s) else beginServo m s

/-- The threaded position is reported (R9). -/
def threaded (s : State) : State :=
  let s := { s with pins.position := .threaded }
  if s.stepping .threading then deckEvent enterThreaded s else s

/-- THREADING_COMPLETE (R9). -/
def execThreadingComplete (s : State) : Host.Outcome State Fault Refusal := .next (threaded s)

/-- Unthreading is confirmed (R10); after a cold start or a restore the tab is read at STOP (R26, R27). -/
def enterUnthreaded (s : State) : State :=
  match s.transport.unthreadEnd with
  | .plain => enterStop s
  | .readTab => enterStop { s with transport.recordTab := s.pins.recordTab, transport.unthreadEnd := .plain }
  | .load => enterLoaded { s with transport.unthreadEnd := .plain }

/-- The unthreaded position, which is the loaded one, is reported (R10). -/
def unthreaded (s : State) : State :=
  let s := { s with pins.position := .loaded }
  if s.stepping .unthreading then deckEvent enterUnthreaded s else s

/-- UNTHREADING_COMPLETE (R10). -/
def execUnthreadingComplete (s : State) : Host.Outcome State Fault Refusal := .next (unthreaded s)

/-- The out position is reported (R11). -/
def ejected (cassetteIn : Bool) (s : State) : State :=
  let s := { s with pins.position := .out, pins.cassetteIn := cassetteIn }
  if s.stepping .ejecting then deckEvent enterEmpty s else s

/-- EJECT_COMPLETE (R11). -/
def execEjectComplete (cassetteIn : Bool) (s : State) : Host.Outcome State Fault Refusal := .next (ejected cassetteIn s)

/-- A mechanical step has not been confirmed within 4.0 s of its start (R12). -/
def stepExpired (position : Position) (s : State) : State :=
  match s.transport.change with
  | some (.mech step) =>
    timerEvent (some (s.transport.stepStart + seconds 4)) (enterFault step) { s with pins.position := position }
  | some (.servo _) | none => s

/-- MECH_TIMEOUT (R12). -/
def execMechTimeout (position : Position) (s : State) : Host.Outcome State Fault Refusal := .next (stepExpired position s)

/-! ### Servo (R14, R15, R18) -/

/-- A mode is reached on a leader of its direction (R22). -/
def leaderAtMode (w : Leaders) (s : State) : State :=
  match s.transport.mode.direction with
  | some .forward => if w.atEnd then protectionStop .leaderEnd s else s
  | some .reverse => if w.atStart then protectionStop .leaderStart s else s
  | none => s

/-- What the other units do as a threaded mode is reached (R66, R68, R165, R166). -/
def unitsAtMode (m : Mode) (s : State) : State :=
  let s := gotoAtMode s
  match m with
  | .recPause => programAtRecPause s
  | .record => programAtRecord s
  | _ => s

/-- A servo change completes (R14): the mode reached event holds the estimate whose lists it empties (R38), the other units follow, and
then a leader that already reports (R22). A go-to in LANDING has ended DONE by then (log 35). -/
def enterThreadedMode (m : Mode) (w : Leaders) (s : State) : State :=
  leaderAtMode w (unitsAtMode m (checkHeld
    (enterMode m none { s with pins.startLeader := w.atStart, pins.endLeader := w.atEnd })))

/-- The lock of a settled threaded mode is regained (R14). -/
def regainLock (s : State) : State := { s with transport.lockLostAt := none, transport.relockPending := false }

/-- The servo condition is met (R14). -/
def servoLocked (w : Leaders) (s : State) : State :=
  match s.transport.change with
  | some (.servo m) => deckEvent (enterThreadedMode m w) s
  | some (.mech _) => s
  | none => if s.transport.lockLostAt.isSome then deckEvent regainLock s else s

/-- SERVO_LOCK (R14). -/
def execServoLock (leaders : Leaders) (s : State) : Host.Outcome State Fault Refusal := .next (servoLocked leaders s)

/-- The end of the 1.0 s of a servo change, or of a lost lock (R14). -/
def State.servoLimit (s : State) : Option Nat :=
  match s.transport.change with
  | some (.servo _) => some (s.transport.servoStart + seconds 1)
  | some (.mech _) => none
  | none => s.transport.lockLostAt.map (· + seconds 1)

/-- SERVO_TIMEOUT (R14, R20). -/
def execServoTimeout (s : State) : Host.Outcome State Fault Refusal :=
  .next (timerEvent s.servoLimit (protectionStop .servo) s)

/-- The supervision of a settled threaded mode starts, unless it runs already (R14). -/
def loseLock (s : State) : State :=
  if s.transport.mode.threaded && s.transport.change == none && s.transport.lockLostAt.isNone then
    { s with transport.lockLostAt := some s.now }
  else s

/-- SERVO_LOCK_LOST (R14). -/
def execServoLockLost (s : State) : Host.Outcome State Fault Refusal := .next (deckEvent loseLock s)

/-- The sync detector's report changes: the drum relocks to the other reference, and the tuner's lock condition is tested (R15, R95,
R100). -/
def syncChanged (present : Bool) (s : State) : State :=
  if present = s.pins.sync then s
  else
    let s := { s with pins.sync := present }
    deckEvent (fun s => lockTest (loseLock s)) s

/-- SYNC_DETECTOR_CHANGE (R15). -/
def execSyncDetectorChange (present : Bool) (s : State) : Host.Outcome State Fault Refusal := .next (syncChanged present s)

/-- The count of a detection window lies within one tenth of the pulses that a tape recorded at class r gives at class c (R18). -/
def countMatches (frameRate count : Nat) (c r : Speed) : Bool :=
  decide (9 * frameRate * r.sigma ≤ 10 * c.sigma * count) && decide (10 * c.sigma * count ≤ 11 * frameRate * r.sigma)

/-- The play speed class that a detection window gives (R18): 1 when nothing was read. -/
def detectedClass (frameRate count : Nat) (c : Speed) : Option Speed :=
  if count = 0 then some .standard else [Speed.standard, .long, .extended].find? (countMatches frameRate count c)

/-- The capstan is changed to another class: the interval lists are emptied, and in a settled PLAY its relock is supervised (R18,
R31, R33). -/
def changePlaySpeed (v : Speed) (s : State) : State :=
  let settled := s.transport.change == none
  let s := emptyLists .collecting { s with transport := { s.transport with
    playSpeed := v
    relockPending := settled
    lockLostAt := if settled then s.transport.lockLostAt.orElse fun _ => some s.now else none } }
  postMode s

/-- The detection window closes (R18). -/
def closeDetection (s : State) : State :=
  match s.transport.detect with
  | none => s
  | some w =>
    let s := { s with transport.detect := none }
    match detectedClass s.settings.frameRate w.count s.transport.playSpeed with
    | some v => if v = s.transport.playSpeed then s else changePlaySpeed v s
    | none => s

/-- The end of the detection window now open (R18). -/
def State.detectLimit (s : State) : Option Nat := s.transport.detect.map fun w => w.start + seconds 1

/-- SPEED_DETECT_WINDOW_END (R18). -/
def execSpeedDetectWindowEnd (s : State) : Host.Outcome State Fault Refusal := .next (timerEvent s.detectLimit closeDetection s)

/-! ### Dew (R21) -/

/-- The dew flag is set, with its effect by the mode. In THREADING it is a protection stop too, the stop cause DEW included (DEDUCED,
log 40). -/
def setDew (s : State) : State :=
  let s := postMode { s with transport.dew := true }
  if s.transport.mode.threaded || s.servoInFlight || s.transport.mode == .threading then protectionStop .dew s else programAtDew s

/-- The dew sensor's report acts on the flag and its 60 s. -/
def dewReported (dew : Bool) (s : State) : State :=
  if dew then
    let s := { s with transport.drySince := none }
    if s.transport.dew then s else setDew s
  else if s.transport.dew && s.transport.drySince.isNone then { s with transport.drySince := some s.now }
  else s

/-- DEW_SENSOR_CHANGE (R21). -/
def execDewSensorChange (dew : Bool) (s : State) : Host.Outcome State Fault Refusal :=
  .next (deckEvent (dewReported dew) { s with pins.dew := dew })

/-- The flag is cleared (R21); a program that waits for it goes on (R163, R174). -/
def clearDew (s : State) : State := programAtDry (postMode { s with transport.dew := false, transport.drySince := none })

/-- The end of the 60 s of dry reports. -/
def State.dryLimit (s : State) : Option Nat := s.transport.drySince.map (· + seconds 60)

/-- DEW_DRY_TIMEOUT (R21). -/
def execDewDryTimeout (s : State) : Host.Outcome State Fault Refusal := .next (timerEvent s.dryLimit clearDew s)

/-! ### Leaders, reels and pauses (R22 to R24) -/

/-- The direction whose motions a leader stops (R22). -/
def leaderStops : Leader → Direction × StopCause
  | .endLeader => (.forward, .leaderEnd)
  | .startLeader => (.reverse, .leaderStart)

/-- A leader is reported in a mode (R22, R23). -/
def leaderActed (l : Leader) (s : State) : State :=
  if s.transport.mode.motion then
    let s := { s with transport.leaderSeen := true }
    if s.transport.mode.direction = some (leaderStops l).1 then protectionStop (leaderStops l).2 s else s
  else s

/-- A leader sensor reports leader. -/
def leaderReported (l : Leader) (s : State) : State :=
  match l with
  | .startLeader => { s with pins.startLeader := true }
  | .endLeader => { s with pins.endLeader := true }

/-- LEADER_SEEN (R22). -/
def execLeaderSeen (leader : Leader) (s : State) : Host.Outcome State Fault Refusal :=
  .next (deckEvent (leaderActed leader) (leaderReported leader s))

/-- The end of the 8 s without a take-up reel pulse (R23). -/
def State.stallLimit (s : State) : Option Nat :=
  limitWhile s.transport.mode.capstanMotion (Nat.max s.transport.modeReachedAt s.transport.lastTakeUpPulse + seconds 8)

/-- REEL_STALL (R23). -/
def execReelStall (s : State) : Host.Outcome State Fault Refusal := .next (timerEvent s.stallLimit (protectionStop .stall) s)

/-- The end of the 2 s without a reel pulse in a wind mode with no leader seen (R23). -/
def State.tightLimit (s : State) : Option Nat :=
  limitWhile (s.transport.mode.wind && !s.transport.leaderSeen)
    (Nat.max s.transport.modeReachedAt s.transport.lastReelPulse + seconds 2)

/-- The leader that came together with the expiry has been taken first: its stop is in UNTHREADING since this moment (R23). -/
def State.leaderJustStopped (s : State) : Bool :=
  s.stepping .unthreading && decide (s.transport.stepStart = s.now) &&
    (s.mech == .protect .leaderEnd || s.mech == .protect .leaderStart)

/-- TIGHT_END (R23). -/
def execTightEnd (s : State) : Host.Outcome State Fault Refusal :=
  .next (if s.leaderJustStopped then deckEvent (replaceCause .tightEnd) s
    else timerEvent s.tightLimit (protectionStop .tightEnd) s)

/-- The end of the 300 s of a pause (R24). -/
def State.pauseLimit (s : State) : Option Nat :=
  limitWhile (s.transport.mode == .still || s.transport.mode == .recPause) (s.transport.modeReachedAt + seconds 300)

/-- PAUSE_LIMIT (R24). -/
def execPauseLimit (s : State) : Host.Outcome State Fault Refusal :=
  .next (timerEvent s.pauseLimit (protectionStop .pauseLimit) s)

end Sys2Proof.Machine
end

