-- ==== Sys2Proof/Machine/PowerEvents.lean ====
section
/-! DEFINITION. The meanings of the events of the mains, the clock and the power states (R124 to R131, R193 to R196). -/

namespace Sys2Proof.Machine

/-! ### Mains cycles, seconds, detection windows (R128 to R131) -/

/-- A mains cycle is counted in the window and, under MAINS, toward the second, which it may complete (R128, R129; log 8). -/
def cycleCounted (s : State) : State :=
  let s := { s with power.lastCycle := s.now, clock.windowCount := s.clock.windowCount + 1 }
  match s.clock.source with
  | .crystal => s
  | .mains =>
    let count := s.clock.cycleCount.getD 0 + 1
    if s.clock.reading.cycles.getD 50 ≤ count then mainsBoundary s else { s with clock.cycleCount := some count }

/-- The qualification time starts to rise: the supply monitor reports NORMAL, the backup domain stands, and it is not rising yet
(R195). -/
def beginQualification (s : State) : State :=
  if s.pins.supply = .normal ∧ s.power.domainKept ∧ s.power.qualSince = none then { s with power.qualSince := some s.now } else s

/-- A mains cycle in BACKUP: the first good one starts the qualification (R195). -/
def cycleQualified (s : State) : State := beginQualification { s with power.lastCycle := s.now }

/-- MAINS_CYCLE (R128, R129, R195). -/
def execMainsCycle (s : State) : Host.Outcome State Fault Refusal :=
  .next (if s.power.state = .backup then cycleQualified s else deckEvent cycleCounted s)

/-- The crystal ticks on to the end of its second (R128). -/
def crystalSecond (s : State) : State := crystalBoundary (elapse (secondUnits - s.clock.sinceBoundary) s)

/-- The mains cycles that the second still lacks arrive in their time, and the last completes it (R128; log 8). -/
def mainsSecond (s : State) : State :=
  let n := s.clock.reading.cycles.getD 50
  let missing := n - s.clock.cycleCount.getD 0
  let s := elapse (missing * Config.unitsPerSecond / n) s
  mainsBoundary { s with power.lastCycle := s.now, clock.windowCount := s.clock.windowCount + missing }

/-- The second of the source in use is completed. -/
def secondCompleted (s : State) : State :=
  match s.clock.source with
  | .crystal => crystalSecond s
  | .mains => mainsSecond s

/-- SECOND_BOUNDARY (R124, R128). In BACKUP the clock counts on, as long as the backup supply stands (R135, R194). -/
def execSecondBoundary (s : State) : Host.Outcome State Fault Refusal :=
  .next (if s.power.state = .backup then (if s.power.domainKept then secondCompleted s else s) else deckEvent secondCompleted s)

/-- The end of the detection window now open (R129). -/
def State.windowLimit (s : State) : Option Nat := s.clock.windowStart.map (· + seconds 1)

/-- DETECTION_WINDOW_CLOSE (R129 to R131). -/
def execDetectionWindowClose (s : State) : Host.Outcome State Fault Refusal := .next (timerEvent s.windowLimit closeWindow s)

/-! ### Power states (R193 to R196) -/

/-- The wake is over (R193). -/
def wakeOver (r : PowerCause) (s : State) : State := programAtArrival (arriveOperating r s)

/-- WAKE_COMPLETE (R193). -/
def execWakeComplete (s : State) : Host.Outcome State Fault Refusal :=
  .next (match s.power.transition with
    | .waking r => timerEvent (some (s.power.wakeStart + seconds 3)) (wakeOver r) s
    | .none | .stopping _ => s)

/-- Mains cycles are arriving: the gap since the last one, or since the cold start, has not reached 60 ms (R195, R196; DEDUCED,
log 60). -/
def State.cyclesArrive (s : State) : Bool := decide (s.now < s.power.lastCycle + milliseconds 60)

/-- The supply monitor reports in BACKUP (R195): LOW ends a qualification; NORMAL after LOW starts one while mains cycles are
arriving. -/
def supplyQualified (level : Supply) (changed : Bool) (s : State) : State :=
  match level with
  | .low => { s with power.qualSince := none }
  | .normal => if changed && s.cyclesArrive then beginQualification s else s

/-- The supply monitor reports (R190, R194, R195): LOW is a mains loss; in BACKUP the report acts on the qualification. -/
def supplyReported (level : Supply) (s : State) : State :=
  let changed := level != s.pins.supply
  let s := { s with pins.supply := level }
  if s.power.state = .backup then supplyQualified level changed s
  else match level with
    | .low => loseMains s
    | .normal => if changed then endLinkEvent (postPower s) else s

/-- SUPPLY_MONITOR_CHANGE (R194). -/
def execSupplyMonitorChange (level : Supply) (s : State) : Host.Outcome State Fault Refusal := .next (supplyReported level s)

/-- The loss limit: three cycle periods of the mains reading (R194). -/
def State.lossGap (s : State) : Nat := if s.clock.reading = .hz60 then milliseconds 50 else milliseconds 60

/-- The gap since the last mains cycle reaches the loss limit (R194). -/
def gapLost (s : State) : State := loseMains (leapTo (s.power.lastCycle + s.lossGap) s)

/-- MAINS_LOSS (R194). -/
def execMainsLoss (s : State) : Host.Outcome State Fault Refusal := .next (if s.power.state = .backup then s else gapLost s)

/-- The end of the 2 s of qualification, while the supply monitor reports NORMAL and the backup domain stands (R195). -/
def State.qualificationLimit (s : State) : Option Nat :=
  if s.power.state = .backup ∧ s.pins.supply = .normal ∧ s.power.domainKept then s.power.qualSince.map (· + seconds 2) else none

/-- The 2 s of qualification are over: the mains restore (R195). -/
def qualified (w : Switches) (s : State) : State :=
  match s.qualificationLimit with
  | none => s
  | some t => endDeckEvent s (restoreMains w (leapTo t s))

/-- MAINS_RESTORE (R195). -/
def execMainsRestore (switches : Switches) (s : State) : Host.Outcome State Fault Refusal := .next (qualified switches s)

/-- COLD_START (R196). -/
def execColdStart (level : Supply) (switches : Switches) (dew : Bool) (s : State) : Host.Outcome State Fault Refusal :=
  .next (endLinkEvent (startCold level switches dew s))

/-- The backup domain is lost: nothing is kept for the next application of power (R194, R196). -/
def loseDomain (s : State) : State :=
  { State.cold s.now s.pending with
    pins := s.pins
    clock := { Clock.cold s.now with windowStart := none }
    power := { Power.cold s.now with state := .backup, mains := false, lastChange := s.power.lastChange, domainKept := false } }

/-- BACKUP_SUPPLY_FAIL (R194). -/
def execBackupSupplyFail (s : State) : Host.Outcome State Fault Refusal :=
  .next (if s.power.state = .backup then loseDomain s else s)

/-- A gap of 60 ms ends a qualification (R195). -/
def qualificationLost (s : State) : State :=
  { leapTo (s.power.lastCycle + milliseconds 60) s with power.qualSince := none }

/-- QUALIFICATION_GAP (R195). -/
def execQualificationGap (s : State) : Host.Outcome State Fault Refusal :=
  .next (if s.power.state = .backup ∧ s.power.qualSince.isSome then qualificationLost s else s)

end Sys2Proof.Machine
end

