-- ==== Sys2Proof/Machine/TapeEvents.lean ====
section
/-! DEFINITION. The meanings of the events of the tape: control pulses, reel pulses, gaps, and the limits that count them (R18, R19,
R30 to R43, R51 to R58, R71, R83). -/

namespace Sys2Proof.Machine

/-! ### Control pulses (R19) -/

/-- A control pulse read in PLAY is counted in the detection window, or opens one after 1 s without any (R18; log 21). -/
def countDetection (s : State) : State :=
  if s.transport.mode = .play then
    let t := s.transport
    let detect := match t.detect with
      | some w => some { w with count := w.count + 1 }
      | none => if t.lastPlayPulse + seconds 1 ≤ s.now then some { start := s.now, count := 1 } else none
    { s with transport := { t with detect := detect, lastPlayPulse := s.now } }
  else s

/-- The counter step that a pulse has made: none at the counter's bound (R42). -/
def stepFrom (before : Int) (d : Direction) (s : State) : Option Direction := if s.tape.counter = before then none else some d

/-- A decoded mark is recorded (R58). -/
def recordRead (r : Option MarkRecord) (s : State) : State := r.elim s fun r => recordPass r s

/-- A decoded mark is noted (R58, R61). -/
def noteRead (r : Option MarkRecord) (s : State) : State := r.elim s fun r => postMark r s

/-- A control pulse read in a reading mode of a direction: counted, decoded, handed to the navigation unit (R18, R19, R42, R54 to
R58). -/
def pulseRead (shape : Shape) (d : Direction) (s : State) : State :=
  let before := s.tape.counter
  let s := countPulse d (countDetection s)
  let r := s.marks.decoder.pulse shape before s.tape.counter s.now
  let s := recordRead r.2 { s with marks.decoder := r.1 }
  noteRead r.2 (navigate (stepFrom before d s) r.2 s)

/-- No pulse is read outside the reading modes (R19). -/
def readActed (shape : Shape) (s : State) : State :=
  match s.transport.mode.direction with
  | some d => if s.transport.mode.reading then deckEvent (pulseRead shape d) s else s
  | none => s

/-- CONTROL_PULSE_READ (R19). -/
def execControlPulseRead (shape : Shape) (s : State) : Host.Outcome State Fault Refusal := .next (readActed shape s)

/-- The shape of the pulse that the writer asks for (R19, R51). -/
def State.writtenShape (s : State) : Shape := s.marks.writer.elim .narrow fun w => markShape w.code w.next

/-- The writer goes on by one pulse: the first fixes the mark's position, the seventeenth completes the mark (R51, R58). -/
def advanceWriter (s : State) : State :=
  match s.marks.writer with
  | none => s
  | some w =>
    let position := if w.next = 1 then some s.tape.counter else w.position
    if w.next < 17 then { s with marks.writer := some { w with next := w.next + 1, position := position } }
    else
      let r := writtenRecord (position.getD s.tape.counter) (.coded w.code)
      postMark r (recordPass r { s with marks.writer := none })

/-- A control pulse is written in RECORD: shaped, counted, offered to the counter watches (R19, R42, R51, R76). -/
def pulseWritten (s : State) : State :=
  let before := s.tape.counter
  let s := advanceWriter (countPulse .forward { s with pins.written := some s.writtenShape })
  navigate (stepFrom before .forward s) none s

/-- CONTROL_PULSE_WRITE (R19). -/
def execControlPulseWrite (s : State) : Host.Outcome State Fault Refusal :=
  .next (if s.transport.mode = .record then deckEvent pulseWritten s else s)

/-! ### Reel pulses (R30 to R43) -/

/-- When a reel pulse comes: an interval after the last accepted pulse, or now when it ends none. -/
def State.pulseTime (s : State) (reel : Reel) (interval : Nat) : Nat :=
  let m := s.reel reel
  if m.opened then m.lastAccepted + interval * Config.reelTick else s.now

/-- The pulse as the reel protections see it (R23). -/
def pulseSeen (reel : Reel) (s : State) : State :=
  { s with transport := { s.transport with
    lastReelPulse := s.now
    lastTakeUpPulse := if reel = .takeUp then s.now else s.transport.lastTakeUpPulse } }

/-- The computations that a refresh makes (R33, R36): the estimate is handed to the navigation unit and the scheduler. A class that
becomes known and its first estimate post TAPE each (log 39). -/
def refreshed (s : State) : State :=
  let s := refreshIdentification s
  if s.estimateDue then evaluateFit (evaluateRemain (estimateComputation s)) else s

/-- An accepted reel pulse (R23, R30, R43). -/
def acceptPulse (reel : Reel) (interval : Nat) (s : State) : State :=
  let m := s.reel reel
  let s := driftByReel (pulseSeen reel (s.withReel reel (m.accept interval s.now)))
  if m.refreshes interval then refreshed s else s

/-- A reel pulse; noise leaves everything as though it had not arrived (R30, log 21). -/
def reelPulsed (reel : Reel) (interval : Nat) (s : State) : State :=
  let s := leapTo (s.pulseTime reel interval) s
  if (s.reel reel).noise interval then s else acceptPulse reel interval s

/-- REEL_PULSE (R30): intervals are counted while a cassette is present. -/
def execReelPulse (reel : Reel) (interval : Nat) (s : State) : Host.Outcome State Fault Refusal :=
  .next (if s.transport.cassettePresent then deckEvent (reelPulsed reel interval) s else s)

/-- The end of the 30 s without an accepted pulse (R32). -/
def State.reelLimit (s : State) (reel : Reel) : Option Nat :=
  limitWhile ((s.reel reel).state != .stalled) ((s.reel reel).lastAccepted + seconds 30)

/-- The reel becomes STALLED (R32). -/
def stallReel (reel : Reel) (s : State) : State := s.withReel reel ((s.reel reel).empty .stalled)

/-- REEL_PERIOD_STALL (R32). -/
def execReelPeriodStall (reel : Reel) (s : State) : Host.Outcome State Fault Refusal :=
  .next (timerEvent (s.reelLimit reel) (stallReel reel) s)

/-- The end of the TAPE report period in a threaded motion (R41, log 26). -/
def State.reportLimit (s : State) : Option Nat :=
  limitWhile (s.transport.mode.motion && decide (0 < s.tape.reportPeriod))
    (Nat.max s.transport.modeReachedAt s.tape.lastReport + seconds s.tape.reportPeriod)

/-- TAPE_REPORT_TIMER (R41). -/
def execTapeReportTimer (s : State) : Host.Outcome State Fault Refusal := .next (timerEvent s.reportLimit postTape s)

/-! ### Gaps and lost tracks (R56, R71, R83) -/

/-- The end of the ten frame periods without a pulse (R56). -/
def State.gapEnd (s : State) : Option Nat :=
  limitWhile (s.marks.decoder.state != .off) (s.marks.decoder.gapStart + s.gapLimit)

/-- A gap expires: the decoder acts on it, and a mark it ends is handed on (R56, R58). -/
def gapExpired (s : State) : State :=
  let r := s.marks.decoder.gap s.now
  let s := recordRead r.2 { s with marks.decoder := r.1 }
  noteRead r.2 (navigate none r.2 s)

/-- DECODER_GAP (R56). -/
def execDecoderGap (s : State) : Host.Outcome State Fault Refusal := .next (timerEvent s.gapEnd gapExpired s)

/-- The end of a go-to's 10 s of untracked time (R71). -/
def State.gotoLimit (s : State) : Option Nat :=
  limitWhile (s.nav.goto.active && s.transport.mode.motion) (s.now + (trackLimit - s.nav.goto.untracked))

/-- GOTO_NO_TRACK (R71, R72). -/
def execGotoNoTrack (s : State) : Host.Outcome State Fault Refusal :=
  .next (timerEvent s.gotoLimit (failGoto .noTrack .noTrack) s)

/-- The end of a run's 10 s of track time in PLAYING (R83). -/
def State.runLimit (s : State) : Option Nat :=
  match s.nav.run.state with
  | .playing _ => limitWhile s.transport.mode.motion (s.now + (trackLimit - s.nav.run.track))
  | .idle | .seeking _ | .ending | .done => none

/-- The run ends NO_TRACK (R83, R85). -/
def runLostTrack (s : State) : State := passToDirect (giveRest (closeRun .noTrack s))

/-- RUN_NO_TRACK (R83). -/
def execRunNoTrack (s : State) : Host.Outcome State Fault Refusal := .next (timerEvent s.runLimit runLostTrack s)

end Sys2Proof.Machine
end

