-- ==== Sys2Proof/Machine/TunerEvents.lean ====
section
/-! DEFINITION. The meanings of the events of the tuner and of the scan: strength, settling, allowances, AFT readings, dwells (R95,
R99, R100, R113, R114). While a scan has the synthesiser the tuner's own tests do not run (R104). -/

namespace Sys2Proof.Machine

/-- SIGNAL_STRENGTH_CHANGE (R95, R100). -/
def execSignalStrengthChange (strength : BitVec 4) (s : State) : Host.Outcome State Fault Refusal :=
  .next (deckEvent lockTest { s with pins.strength := strength })

/-- The tuner is in a state of its own, no scan having the synthesiser (R104). -/
def State.tunerIn (s : State) (t : TunerState) : Bool := s.tuner.state == t && !s.scan.inFlight

/-- The end of the 100 ms of settling (R95). -/
def State.settleLimit (s : State) : Option Nat :=
  limitWhile (s.tunerIn .tuning && !s.tuner.settled) (s.tuner.tuningStart + milliseconds 100)

/-- The settling ends, and the lock condition is tested from here on (R95). -/
def endSettling (s : State) : State := lockTest { s with tuner.settled := true }

/-- TUNER_SETTLE_END (R95). -/
def execTunerSettleEnd (s : State) : Host.Outcome State Fault Refusal := .next (timerEvent s.settleLimit endSettling s)

/-- The end of the 800 ms allowance (R95). -/
def State.tuningLimit (s : State) : Option Nat := limitWhile (s.tunerIn .tuning) (s.tuner.tuningStart + milliseconds 800)

/-- TUNING_TIMEOUT (R95). -/
def execTuningTimeout (s : State) : Host.Outcome State Fault Refusal := .next (timerEvent s.tuningLimit enterNoSignal s)

/-- The end of the AFT period of 200 ms (R99). -/
def State.aftLimit (s : State) : Option Nat :=
  limitWhile (s.tunerIn .locked && s.tuner.aftInUse) (s.tuner.aftSince + milliseconds 200)

/-- AFT_READING (R99). -/
def execAftReading (reading : Discriminator) (s : State) : Host.Outcome State Fault Refusal :=
  .next (timerEvent s.aftLimit (aftRead reading) { s with pins.discriminator := reading })

/-- The end of the 500 ms of a failed lock condition in LOCKED (R100). -/
def State.lossLimit (s : State) : Option Nat :=
  if s.tunerIn .locked then s.tuner.failSince.map (· + milliseconds 500) else none

/-- SIGNAL_LOSS_TIMEOUT (R100). -/
def execSignalLossTimeout (s : State) : Host.Outcome State Fault Refusal := .next (timerEvent s.lossLimit enterNoSignal s)

/-- The next re-check in NO_SIGNAL (R100). -/
def State.recheckLimit (s : State) : Option Nat := limitWhile (s.tunerIn .noSignal) (s.tuner.recheckSince + milliseconds 500)

/-- The lock condition is re-checked (R100). -/
def recheck (s : State) : State :=
  let s := { s with tuner.recheckSince := s.now }
  if s.lockCondition then enterLocked s else s

/-- NO_SIGNAL_RECHECK (R100). -/
def execNoSignalRecheck (s : State) : Host.Outcome State Fault Refusal := .next (timerEvent s.recheckLimit recheck s)

/-- The end of a dwell of 60 ms in a scan state (R113, R114). -/
def State.dwellLimit (s : State) (c : ScanState) : Option Nat :=
  limitWhile (s.scan.state == c) (s.scan.dwellStart + milliseconds 60)

/-- SCAN_DWELL_END (R113). -/
def execScanDwellEnd (s : State) : Host.Outcome State Fault Refusal := .next (timerEvent (s.dwellLimit .stepping) stepRead s)

/-- PEAK_DWELL_END (R114). -/
def execPeakDwellEnd (s : State) : Host.Outcome State Fault Refusal := .next (timerEvent (s.dwellLimit .peakSearch) peakRead s)

end Sys2Proof.Machine
end

