-- ==== Sys2Proof/Machine/Dispatch.lean ====
section
/-! DEFINITION. One arm for each command: a direct call of its meaning. -/

namespace Sys2Proof.Machine

def exec (i : Instr) (s : State) : Host.Outcome State Fault Refusal :=
  match i with
  | .ident => Sys2Proof.Machine.execIdent s
  | .noteFlow flow period => Sys2Proof.Machine.execNoteFlow flow period s
  | .deckReset => Sys2Proof.Machine.execDeckReset s
  | .powerStandby => Sys2Proof.Machine.execPowerStandby s
  | .powerOperate => Sys2Proof.Machine.execPowerOperate s
  | .systemSet frameSystem autoRewind markPresent markCode => Sys2Proof.Machine.execSystemSet frameSystem autoRewind markPresent markCode s
  | .clockSet stamp => Sys2Proof.Machine.execClockSet stamp s
  | .clockRead => Sys2Proof.Machine.execClockRead s
  | .clockSource setting => Sys2Proof.Machine.execClockSource setting s
  | .motion target => Sys2Proof.Machine.execMotion target s
  | .recSpeed speed => Sys2Proof.Machine.execRecSpeed speed s
  | .eject => Sys2Proof.Machine.execEject s
  | .counterZero => Sys2Proof.Machine.execCounterZero s
  | .tapeRead => Sys2Proof.Machine.execTapeRead s
  | .classSet cls => Sys2Proof.Machine.execClassSet cls s
  | .markNow code => Sys2Proof.Machine.execMarkNow code s
  | .gotoCounter finalAction target => Sys2Proof.Machine.execGotoCounter finalAction target s
  | .gotoMarkForward finalAction count filterPresent filterCode filterMask => Sys2Proof.Machine.execGotoMarkForward finalAction count filterPresent filterCode filterMask s
  | .gotoMarkBackward finalAction count filterPresent filterCode filterMask => Sys2Proof.Machine.execGotoMarkBackward finalAction count filterPresent filterCode filterMask s
  | .gotoCancel => Sys2Proof.Machine.execGotoCancel s
  | .watchSet place kind value choice code mask action again setCount => Sys2Proof.Machine.execWatchSet place kind value choice code mask action again setCount s
  | .watchClear place => Sys2Proof.Machine.execWatchClear place s
  | .watchRead place => Sys2Proof.Machine.execWatchRead place s
  | .runLoad endAction total first segments => Sys2Proof.Machine.execRunLoad endAction total first segments s
  | .runStart => Sys2Proof.Machine.execRunStart s
  | .runStop => Sys2Proof.Machine.execRunStop s
  | .runRead first => Sys2Proof.Machine.execRunRead first s
  | .markList first => Sys2Proof.Machine.execMarkList first s
  | .tunePreset preset => Sys2Proof.Machine.execTunePreset preset s
  | .tuneStepUp => Sys2Proof.Machine.execTuneStepUp s
  | .tuneStepDown => Sys2Proof.Machine.execTuneStepDown s
  | .tuneDirect frequency => Sys2Proof.Machine.execTuneDirect frequency s
  | .tunerRead => Sys2Proof.Machine.execTunerRead s
  | .presetWrite preset frequency fineTune flags labelLength c1 c2 c3 c4 c5 c6 => Sys2Proof.Machine.execPresetWrite preset frequency fineTune flags labelLength c1 c2 c3 c4 c5 c6 s
  | .presetRead preset => Sys2Proof.Machine.execPresetRead preset s
  | .presetClear preset => Sys2Proof.Machine.execPresetClear preset s
  | .scanStartFresh => Sys2Proof.Machine.execScanStartFresh s
  | .scanStartResume => Sys2Proof.Machine.execScanStartResume s
  | .scanStop => Sys2Proof.Machine.execScanStop s
  | .scanRead first => Sys2Proof.Machine.execScanRead first s
  | .scanAdoptReplace first => Sys2Proof.Machine.execScanAdoptReplace first s
  | .scanAdoptAppend first => Sys2Proof.Machine.execScanAdoptAppend first s
  | .outputSelect setting => Sys2Proof.Machine.execOutputSelect setting s
  | .progWrite slot year month day hour minute duration preset speedMode pattern priority endAction markPresent markCode => Sys2Proof.Machine.execProgWrite slot year month day hour minute duration preset speedMode pattern priority endAction markPresent markCode s
  | .progRead slot => Sys2Proof.Machine.execProgRead slot s
  | .progClear slot => Sys2Proof.Machine.execProgClear slot s
  | .progAbort slot => Sys2Proof.Machine.execProgAbort slot s
  | .progOrder part first => Sys2Proof.Machine.execProgOrder part first s
  | .badCheck body => Sys2Proof.Machine.execBadCheck body s
  | .badKind kind payload => Sys2Proof.Machine.execBadKind kind payload s
  | .badLength kind payload => Sys2Proof.Machine.execBadLength kind payload s
  | .byteReceived byte stopBit => Sys2Proof.Machine.execByteReceived byte stopBit s
  | .receiveGapTimeout => Sys2Proof.Machine.execReceiveGapTimeout s
  | .transmitEnd => Sys2Proof.Machine.execTransmitEnd s
  | .cassetteInsert => Sys2Proof.Machine.execCassetteInsert s
  | .loadingComplete recordTab => Sys2Proof.Machine.execLoadingComplete recordTab s
  | .threadingComplete => Sys2Proof.Machine.execThreadingComplete s
  | .unthreadingComplete => Sys2Proof.Machine.execUnthreadingComplete s
  | .ejectComplete cassetteIn => Sys2Proof.Machine.execEjectComplete cassetteIn s
  | .mechTimeout position => Sys2Proof.Machine.execMechTimeout position s
  | .servoLock leaders => Sys2Proof.Machine.execServoLock leaders s
  | .servoTimeout => Sys2Proof.Machine.execServoTimeout s
  | .servoLockLost => Sys2Proof.Machine.execServoLockLost s
  | .syncDetectorChange present => Sys2Proof.Machine.execSyncDetectorChange present s
  | .speedDetectWindowEnd => Sys2Proof.Machine.execSpeedDetectWindowEnd s
  | .controlPulseWrite => Sys2Proof.Machine.execControlPulseWrite s
  | .controlPulseRead shape => Sys2Proof.Machine.execControlPulseRead shape s
  | .dewSensorChange dew => Sys2Proof.Machine.execDewSensorChange dew s
  | .dewDryTimeout => Sys2Proof.Machine.execDewDryTimeout s
  | .leaderSeen leader => Sys2Proof.Machine.execLeaderSeen leader s
  | .reelStall => Sys2Proof.Machine.execReelStall s
  | .tightEnd => Sys2Proof.Machine.execTightEnd s
  | .pauseLimit => Sys2Proof.Machine.execPauseLimit s
  | .reelPulse reel interval => Sys2Proof.Machine.execReelPulse reel interval s
  | .reelPeriodStall reel => Sys2Proof.Machine.execReelPeriodStall reel s
  | .tapeReportTimer => Sys2Proof.Machine.execTapeReportTimer s
  | .decoderGap => Sys2Proof.Machine.execDecoderGap s
  | .gotoNoTrack => Sys2Proof.Machine.execGotoNoTrack s
  | .runNoTrack => Sys2Proof.Machine.execRunNoTrack s
  | .signalStrengthChange strength => Sys2Proof.Machine.execSignalStrengthChange strength s
  | .tunerSettleEnd => Sys2Proof.Machine.execTunerSettleEnd s
  | .tuningTimeout => Sys2Proof.Machine.execTuningTimeout s
  | .aftReading reading => Sys2Proof.Machine.execAftReading reading s
  | .signalLossTimeout => Sys2Proof.Machine.execSignalLossTimeout s
  | .noSignalRecheck => Sys2Proof.Machine.execNoSignalRecheck s
  | .scanDwellEnd => Sys2Proof.Machine.execScanDwellEnd s
  | .peakDwellEnd => Sys2Proof.Machine.execPeakDwellEnd s
  | .mainsCycle => Sys2Proof.Machine.execMainsCycle s
  | .secondBoundary => Sys2Proof.Machine.execSecondBoundary s
  | .detectionWindowClose => Sys2Proof.Machine.execDetectionWindowClose s
  | .wakeComplete => Sys2Proof.Machine.execWakeComplete s
  | .supplyMonitorChange level => Sys2Proof.Machine.execSupplyMonitorChange level s
  | .mainsLoss => Sys2Proof.Machine.execMainsLoss s
  | .mainsRestore switches => Sys2Proof.Machine.execMainsRestore switches s
  | .coldStart level switches dew => Sys2Proof.Machine.execColdStart level switches dew s
  | .backupSupplyFail => Sys2Proof.Machine.execBackupSupplyFail s
  | .qualificationGap => Sys2Proof.Machine.execQualificationGap s

end Sys2Proof.Machine
end

