-- ==== Sys2Proof/Safety.lean ====
section
/-! DEFINITION. The terms in which the statements speak: when the port dispatches at once, what an answered request leaves, what holds of
the machine after every step, and the frames that a command stands for. -/

namespace Sys2Proof.Machine

/-! ### Requests -/

/-- A frame that arrives is dispatched at its arrival: the link runs, no entry waits, and no dispatched reply is outstanding (R199). -/
structure PortReady (s : State) : Prop where
  runs  : s.power.state ≠ .backup
  input : s.link.input = []
  free  : s.link.replyOutstanding = false

/-- A request has been answered: its reply joins the reply list, and the line takes its next frame if it is idle (R201, R202). -/
def answered (k : RequestKind) (r : Reply) (s : State) : State := chooseFrame (putReply (replyFrame k r) s)

/-- OPERATING with no transition, and no DECK_RESET sequence in flight. -/
structure Steady (s : State) : Prop where
  operating  : s.power.state = .operating
  transition : s.power.transition = .none
  sequence   : s.transport.resetInFlight = false

/-- The transport stands in a mode with no change in flight and no target (R2, settled). -/
structure SettledIn (m : Mode) (s : State) : Prop where
  mode   : s.transport.mode = m
  change : s.transport.change = none
  target : s.transport.target = none

/-- Nothing that the end of an event watches for is due: no DECK_RESET sequence has ended unnoticed, no estimate waits to be held, no
identification to be given up, no STOPPING to be ended (R33, R38, R189, R192). Every deck event leaves the machine so. -/
def NothingDue (s : State) : Prop := settleUnits s s = s

/-- The first check that fails gives the reply (R5, R11, R52, R65, R94, R112, R143). -/
def firstFailing : List (Bool × Status) → Option Status
  | [] => none
  | (failing, st) :: rest => if failing then some st else firstFailing rest

/-- No program can ask for the deck: every slot is EMPTY or DONE, and no end action or abort is in flight (R139, R160). -/
structure NoPrograms (s : State) : Prop where
  slots     : ∀ n p, s.program n = some p → p.state = .done
  active    : s.sched.active = none
  endAction : s.sched.endAction = none
  abortStop : s.sched.abortStop = none
  tail      : s.sched.rewindTail = false

/-- No program but those of the slots named can ask for the deck, and no end action or abort is in flight (R139, R160). -/
structure OnlyPrograms (l : List Nat) (s : State) : Prop where
  others    : ∀ k p, k ∉ l → s.program k = some p → p.state = .done
  slots     : s.sched.slots.length = 16
  endAction : s.sched.endAction = none
  abortStop : s.sched.abortStop = none
  tail      : s.sched.rewindTail = false

/-- The occurrence of a program has ended at a time short of its window's end, in the deck or out of it (R151). -/
def Program.short (p : Program) (c : OutcomeCause) : Program :=
  { p with state := .done, deferral := none, outcome := some (if 0 < p.run.recorded then .truncated else .missed), cause := some c }

/-- A program is put into the deferred set with a cause, and its deferral counted (R150). -/
def Program.putOff (p : Program) (c : DeferralCause) : Program :=
  { p with state := .deferred, deferral := some c, run := { p.run with deferrals := min 255 (p.run.deferrals + 1) } }

/-- A program after a second boundary: the second is counted for a recording (R166). -/
def Program.secondOn (p : Program) (s : State) : Program :=
  if p.state = .recording ∧ s.transport.mode = .record then
    { p with run := { p.run with
      recorded := min 36000 (p.run.recorded + 1)
      signalLoss := min 36000 (p.run.signalLoss + if s.tuner.state = .noSignal then 1 else 0) } }
  else p

/-- A program is cued up ahead of a start that has not come (R160, R164). -/
def Active.ahead (a : Active) : Prop := a.phase = .preparing ∧ a.late = false ∧ a.pointCome = false

/-- Both claims are held at TIMER class for the program of a slot (R162, R182). -/
def ClaimedFor (n : Nat) (t : State) : Prop := t.mech = .timer (.program n) ∧ t.tunerOf = .timer (.program n)

/-- REC_PAUSE is on its way: held as the target, in a servo change toward it or behind a threading (R163). -/
def Pausing (t : State) : Prop := t.transport.target = some .recPause ∧
  (t.transport.change = some (.servo .recPause) ∨ t.transport.mode = .threading ∧ t.transport.change = some (.mech .threading))

/-- An occurrence of a program may start at minute `m` for a search at time `t` from a bound, both in seconds (R141, R142). -/
def Program.mayStart (p : Program) (t bound m : Nat) : Bool :=
  p.pattern.admits p.start (m / 1440) && m % 1440 == p.start % 1440 && decide (bound ≤ m * 60) &&
    decide (t + 60 ≤ (m + p.duration) * 60) && decide ((m + p.duration) * 60 < 3155760000)

/-- The next start that R142's search finds in the calendar. -/
structure NextOccurrence (p : Program) (t bound m : Nat) : Prop where
  may   : p.mayStart t bound m
  first : ∀ k, p.mayStart t bound k → m ≤ k

/-- The next second boundary is the crystal's, and brings a new minute (R128, R179). -/
structure MinuteDue (s : State) : Prop where
  source : s.clock.source = .crystal
  phase  : s.clock.sinceBoundary ≤ 12288000
  inside : s.clock.time + 1 < 3155760000
  minute : (s.clock.time + 1) % 60 = 0

/-- No go-to and no segment run is in flight (R64, R81). -/
structure NoNavigation (s : State) : Prop where
  goto : s.nav.goto.active = false
  run  : s.nav.run.state.active = false

/-- The MECHANISM claim is free or held by the direct activity (R182). -/
def MechDirect (s : State) : Prop := s.mech = .free ∨ s.mech = .operator .direct

/-! ### Frames -/

/-- The parts of the machine that a frame names. `time` is the time with the time since the last second boundary, which `clock` leaves
out; `counter` is the tape counter with its quality and span, `reels` the two reels'
measurements, `estimate` the rest of the position record; `reception` is the link's receiver, input queue, flow, report period and
assembly; `sending` is the reply list, the line and the outbox with what the sending of a note returns to 0, the pass count and the fires
pending (R61, R74, R202, R203). -/
inductive Part where
  | time | pins | transport | counter | reels | estimate | marks | nav | tuner | scan | clock | sched | mech | tunerOf | power
  | reception | sending | settings | pending
  deriving DecidableEq, Repr

/-- A watch entry but for its fires pending. -/
def Watch.unfired (w : Watch) : Watch := { w with fires := 0 }

/-- A part is the same in two states. -/
def SamePart (s t : State) : Part → Prop
  | .time => t.now = s.now ∧ t.clock.sinceBoundary = s.clock.sinceBoundary
  | .pins => t.pins = s.pins
  | .transport => t.transport = s.transport
  | .counter => t.tape.counter = s.tape.counter ∧ t.tape.quality = s.tape.quality ∧ t.tape.spanStart = s.tape.spanStart
  | .reels => t.tape.supply = s.tape.supply ∧ t.tape.takeUp = s.tape.takeUp
  | .estimate =>
    t.tape.cls = s.tape.cls ∧ t.tape.origin = s.tape.origin ∧ t.tape.candidate = s.tape.candidate ∧
      t.tape.idCount = s.tape.idCount ∧ t.tape.lastIdent = s.tape.lastIdent ∧ t.tape.fraction = s.tape.fraction ∧
      t.tape.held = s.tape.held ∧ t.tape.lastEstimate = s.tape.lastEstimate ∧ t.tape.lastReport = s.tape.lastReport ∧
      t.tape.reportPeriod = s.tape.reportPeriod
  | .marks =>
    t.marks.writer = s.marks.writer ∧ t.marks.decoder = s.marks.decoder ∧ t.marks.history = s.marks.history
  | .nav =>
    t.nav.goto = s.nav.goto ∧ t.nav.run = s.nav.run ∧
      t.nav.watches.map (·.map Watch.unfired) = s.nav.watches.map (·.map Watch.unfired)
  | .tuner => t.tuner = s.tuner
  | .scan => t.scan = s.scan
  | .clock => { t.clock with sinceBoundary := 0 } = { s.clock with sinceBoundary := 0 }
  | .sched => t.sched = s.sched
  | .mech => t.mech = s.mech
  | .tunerOf => t.tunerOf = s.tunerOf
  | .power => t.power = s.power
  | .reception =>
    t.link.receiver = s.link.receiver ∧ t.link.lastByte = s.link.lastByte ∧ t.link.input = s.link.input ∧
      t.link.flow = s.link.flow ∧ t.link.period = s.link.period ∧ t.link.assembly = s.link.assembly
  | .sending =>
    t.link.replies = s.link.replies ∧ t.link.line = s.link.line ∧ t.link.outbox = s.link.outbox ∧
      t.marks.passCount = s.marks.passCount ∧
      t.nav.watches.map (·.map (·.fires)) = s.nav.watches.map (·.map (·.fires))
  | .settings => t.settings = s.settings
  | .pending => t.pending = s.pending

/-- Nothing changes but the parts named. -/
structure KeepsBut (changed : List Part) (s t : State) : Prop where
  same : ∀ p, p ∉ changed → SamePart s t p

/-- The reply to a request of a kind waits in the reply list or is on the line (R201, R202). -/
def Replied (k : RequestKind) (r : Reply) (t : State) : Prop :=
  t.link.line = some (replyFrame k r) ∨ replyFrame k r ∈ t.link.replies

/-- A note with a key and a content waits in the outbox or is on the line (R202, R203). -/
def Announced (k : NoteKey) (content : List Byte) (t : State) : Prop :=
  (∃ n ∈ t.link.outbox, n.key = k ∧ n.content = content) ∨
    ∃ f, t.link.line = some f ∧ f.origin = .note ∧ f.kind = k.kind ∧ f.payload.head? = some k.byte ∧ f.payload.drop 2 = content

/-- No STOPPING is in flight (R190). -/
def NotStopping (s : State) : Prop := ∀ r, s.power.transition ≠ .stopping r

/-- What moves the tape is settled or in servo change: a threaded mode with no mechanical step in flight (R4). -/
structure Threaded (s : State) : Prop where
  mode   : s.transport.mode.threaded
  change : s.mechInFlight = false

/-- A protection stop with a cause has begun at a time (R20): the claim, the stop cause, the target STOP, UNTHREADING. -/
structure ProtectionStopped (c : StopCause) (at_ : Nat) (t : State) : Prop where
  time   : t.now = at_
  claim  : t.mech = .protect c.protection
  cause  : t.transport.stopCause = some c
  target : t.transport.target = some .stop
  mode   : t.transport.mode = .unthreading
  change : t.transport.change = some (.mech .unthreading)
  start  : t.transport.stepStart = at_
  class_ : t.transport.recordClass = none
  rewind : t.transport.rewindDue = (c == .leaderEnd)
  note   : Announced .mode t.transportBytes t

/-! ### The checks of the requests, in their order -/

/-- A MECHANISM or TUNER request of the OPERATOR class against the holder (R183). -/
def mechChecks (s : State) : List (Bool × Status) := [(s.mech.isTimer, .busyTimer), (s.mech.isProtect, .busyProtect)]

/-- R5, checks 1 to 6. -/
def motionChecks (b : Byte) (s : State) : List (Bool × Status) :=
  let m := motionTarget b
  let mode := s.transport.mode
  [(m.isNone, .range), (s.inStandby, .notReady), (mode == .empty || mode == .ejecting || mode == .fault, .notReady)] ++
    mechChecks s ++
    [(m.any (fun m => m == .record || m == .recPause) && mode != .loading && !s.transport.recordTab, .tabAbsent),
      (m.any (·.threaded) && mode == .stop && s.transport.dew, .notReady)]

/-- R65, checks 2 to 5, which R82 shares. -/
def moveChecks (s : State) : List (Bool × Status) :=
  let mode := s.transport.mode
  [(s.inStandby, .notReady), (mode == .empty || mode == .loading || mode == .ejecting || mode == .fault, .notReady)] ++
    mechChecks s ++ [(mode == .stop && s.transport.dew, .notReady)]

/-- R65 check 1 for the mark form: the count, the filter flag, no filter with BACKWARD, the final action. -/
def markFieldsBad (final count present : Byte) (backward : Bool) : Bool :=
  decide (final.toNat < 1) || decide (3 < final.toNat) || decide (count.toNat < 1) || decide (99 < count.toNat) ||
    decide (1 < present.toNat) || (backward && present != 0)

/-- A go-to of the MARK form (R64). -/
def GotoForm.isMark : GotoForm → Bool
  | .counter _ => false
  | .markForward _ _ | .markBackward _ => true

/-- A counter value that a request names lies outside the counter range (R29). -/
def State.outOfRange (s : State) (v : Int) : Bool := decide (36000 * s.settings.frameRate - 1 < v.natAbs)

/-- The final actions and end actions by their place in the manual's list, from 1 (R209). -/
def finalOf (b : Byte) : FinalAction := if b = 1 then .stop else if b = 2 then .still else .play

def endActionOf (b : Byte) : EndAction := if b = 1 then .stop else if b = 2 then .rewind else if b = 3 then .eject else .standby

/-! ### Notes formed when they are sent, and watches -/

/-- A TAPE note waits in the outbox, to be formed when it is sent, or is on the line with the present record (R40, R203). -/
def TapeAnnounced (t : State) : Prop :=
  (∃ n ∈ t.link.outbox, n.key = .tape) ∨
    ∃ f, t.link.line = some f ∧ f.origin = .note ∧ f.kind = 0x81 ∧ f.payload.drop 2 = t.tapeBytes

/-- A reel pulse that ends an interval makes an estimate computation (R36): the class known, a threaded motion, the reel's period VALID
with the interval, the other's VALID, and a second since the last computation. -/
structure EstimateDue (s : State) (r : Reel) (i : Nat) : Prop where
  cassette : s.transport.cassettePresent
  motion   : s.transport.mode.motion
  known    : s.tape.cls ≠ none
  opened   : (s.reel r).opened
  four     : (s.reel r).intervals.length = 3 ∨ (s.reel r).intervals.length = 4
  valid    : 40 ≤ ((s.reel r).intervals.drop ((s.reel r).intervals.length - 3)).sum + i ∧
    ((s.reel r).intervals.drop ((s.reel r).intervals.length - 3)).sum + i ≤ 60000
  other    : ∀ o, o ≠ r → (s.reel o).state = .valid
  ahead    : s.now ≤ (s.reel r).lastAccepted + i * 6144
  second   : s.tape.lastEstimate.all fun t => decide (t + seconds 1 ≤ (s.reel r).lastAccepted + i * 6144)

/-- Every place of the watch list is empty (R74). -/
def NoWatches (s : State) : Prop := ∀ w ∈ s.nav.watches, w = none

/-- The shapes of a mark on the tape, from pulse `first` on in the tape's forward order (R48). -/
def markShapes (code : Byte) : List Shape := (List.range 17).map fun k => markShape code (k + 1)

/-- What a gap makes of a partial mark (R56). -/
def gapKind (d : Decoder) : Option MarkKind :=
  match d.state with
  | .off | .hunt => none
  | .preamble n => if n < 6 then none else if d.direction = .forward then some .damaged else some .anonymous
  | .high _ | .mid | .low _ | .tail => some .damaged

/-- The decoder reads pulses one after another at a time; the counter goes from `counter` by `step` with each. What it recognises is
given in order. -/
def decodeAll (step : Int) (now : Nat) : List Shape → Decoder → Int → Decoder × List MarkRecord
  | [], d, _ => (d, [])
  | p :: ps, d, c =>
    let r := d.pulse p c (c + step) now
    let rest := decodeAll step now ps r.1 (c + step)
    (rest.1, r.2.toList ++ rest.2)

/-! ### Tunings -/

/-- A tuning of a selection has begun at the present time (R95 to R97): what it takes from the table entry of the selection or from the
direct frequency, the correction and the limit flag cleared, the copy CURRENT, TUNING, and the TUNE note. A base frequency beyond the
tuning range is left out (log 15). -/
structure TuningBegun (sel : Selection) (s t : State) : Prop where
  selection  : t.tuner.selection = sel
  state      : t.tuner.state = .tuning
  start      : t.tuner.tuningStart = t.now
  unsettled  : t.tuner.settled = false
  correction : t.tuner.correction = 0
  limit      : t.tuner.atLimit = false
  copy       : t.tuner.copy = .current
  kept       : t.tuner.latch = s.tuner.latch ∧ t.tuner.output = s.tuner.output
  line       : sel = .preset 0 → t.tuner.base = none ∧ t.tuner.aftInUse = false ∧ t.tuner.synth = s.tuner.synth
  preset     : ∀ n, sel = .preset n → ∀ p, t.preset n = some p → 900 ≤ p.frequency + p.fineTune → p.frequency + p.fineTune ≤ 17200 →
    t.tuner.base = some (p.frequency + p.fineTune).toNat ∧ t.tuner.synth = t.tuner.base ∧ t.tuner.aftInUse = p.aft
  direct     : ∀ f, sel = .direct f → t.tuner.base = some f ∧ t.tuner.synth = some f ∧ t.tuner.aftInUse = true
  note       : Announced .tune t.tuningBytes t

/-! ### What every step keeps -/

/-- The port's lists (R198, R201, R203). -/
structure LinkSound (l : Link) : Prop where
  input      : l.input.length ≤ 4
  dispatched : l.replies.countP (fun f => f.origin == .dispatched) +
    (if l.line.any (fun f => f.origin == .dispatched) then 1 else 0) ≤ 1
  overruns   : l.overruns ≤ 4
  outbox     : (l.outbox.map (·.key)).Nodup

/-- The bounds and table sizes of the other units (R29, R42, R59, R61, R74, R88, R99, R111, R124, R137). The counter is held within the
bound of the larger frame system. -/
structure UnitsSound (s : State) : Prop where
  counter    : s.tape.counter.natAbs ≤ 1079999
  history    : s.marks.history.length ≤ 16
  passCount  : s.marks.passCount ≤ 255
  watches    : s.nav.watches.length = 8
  presets    : s.tuner.presets.length = 99
  correction : s.tuner.correction.natAbs ≤ 8
  found      : s.scan.found.length ≤ 99
  spaced     : s.scan.found.Pairwise fun a b => a.1 + 20 ≤ b.1
  time       : s.clock.time < Config.calendarSeconds
  slots      : s.sched.slots.length = 16
  frameRate  : s.settings.frameRate = 25 ∨ s.settings.frameRate = 30

/-- The counter lies in the range of the frame system that is set (R29, R42). -/
def CounterInRange (s : State) : Prop := s.tape.counter.natAbs ≤ 36000 * s.settings.frameRate - 1

/-- The machine is sound. -/
structure Sound (s : State) : Prop where
  link  : LinkSound s.link
  units : UnitsSound s

/-! ### Frames as bytes (R197, R200) -/

/-- The bytes of a request frame: lead byte, length, body, and a check byte (R197, R198). -/
def frameBytes (body : List Byte) (check : Byte) : List Byte := 0xC3 :: byteOf body.length :: (body ++ [check])

/-- The check byte that makes a frame good (R198). -/
def goodCheck (body : List Byte) : Byte := byteOf (256 - (body.length + (body.map (·.toNat)).sum) % 256)

/-- Bytes arrive one after another, each with its stop bit. -/
def receiveAll : List Byte → State → Host.Outcome State Fault Refusal
  | [], s => .next s
  | b :: bs, s =>
    match exec (.byteReceived b true) s with
    | .next t => receiveAll bs t
    | .fault r => .fault r
    | .refused r => .refused r

/-- The kind and the payload of a request, field by field as R200 lists them; none for the other commands. -/
def requestOf : Instr → Option (RequestKind × List Byte)
  | .ident => some (.ident, [])
  | .noteFlow flow period => some (.noteFlow, [flow, period])
  | .deckReset => some (.deckReset, [])
  | .powerStandby => some (.power, [1])
  | .powerOperate => some (.power, [2])
  | .systemSet frameSystem autoRewind markPresent markCode => some (.systemSet, [frameSystem, autoRewind, markPresent, markCode])
  | .clockSet stamp => some (.clockSet, [stamp.year, stamp.month, stamp.day, stamp.hour, stamp.minute, stamp.second])
  | .clockRead => some (.clockRead, [])
  | .clockSource setting => some (.clockSource, [setting])
  | .motion target => some (.motion, [target])
  | .recSpeed speed => some (.recSpeed, [speed])
  | .eject => some (.eject, [])
  | .counterZero => some (.counterZero, [])
  | .tapeRead => some (.tapeRead, [])
  | .classSet cls => some (.classSet, [cls])
  | .markNow code => some (.markNow, [code])
  | .gotoCounter finalAction target => some (.goto, 1 :: finalAction :: bytesOf 3 target.toNat ++ [0, 0, 0, 0, 0])
  | .gotoMarkForward finalAction count filterPresent filterCode filterMask =>
      some (.goto, [2, finalAction, 0, 0, 0, count, 1, filterPresent, filterCode, filterMask])
  | .gotoMarkBackward finalAction count filterPresent filterCode filterMask =>
      some (.goto, [2, finalAction, 0, 0, 0, count, 2, filterPresent, filterCode, filterMask])
  | .gotoCancel => some (.gotoCancel, [])
  | .watchSet place kind value choice code mask action again setCount =>
      some (.watchSet, place :: kind :: bytesOf 3 value.toNat ++ [choice, code, mask, action, again, setCount])
  | .watchClear place => some (.watchClear, [place])
  | .watchRead place => some (.watchRead, [place])
  | .runLoad endAction total first segments =>
      some (.runLoad, endAction :: total :: first :: segments.flatMap fun g => bytesOf 3 g.start.toNat ++ bytesOf 3 g.stop.toNat)
  | .runStart => some (.runStart, [])
  | .runStop => some (.runStop, [])
  | .runRead first => some (.runRead, [first])
  | .markList first => some (.markList, [first])
  | .tunePreset preset => some (.tune, [1, preset, 0, 0])
  | .tuneStepUp => some (.tune, [2, 0, 0, 0])
  | .tuneStepDown => some (.tune, [3, 0, 0, 0])
  | .tuneDirect frequency => some (.tune, 4 :: 0 :: bytesOf 2 frequency.toNat)
  | .tunerRead => some (.tunerRead, [])
  | .presetWrite preset frequency fineTune flags labelLength c1 c2 c3 c4 c5 c6 =>
      some (.presetWrite, preset :: bytesOf 2 frequency.toNat ++ [fineTune, flags, labelLength, c1, c2, c3, c4, c5, c6])
  | .presetRead preset => some (.presetRead, [preset])
  | .presetClear preset => some (.presetClear, [preset])
  | .scanStartFresh => some (.scanStart, [1])
  | .scanStartResume => some (.scanStart, [2])
  | .scanStop => some (.scanStop, [])
  | .scanRead first => some (.scanRead, [first])
  | .scanAdoptReplace first => some (.scanAdopt, [first, 1])
  | .scanAdoptAppend first => some (.scanAdopt, [first, 2])
  | .outputSelect setting => some (.outputSelect, [setting])
  | .progWrite slot year month day hour minute duration preset speedMode pattern priority endAction markPresent markCode =>
      some (.progWrite, slot :: year :: month :: day :: hour :: minute :: bytesOf 2 duration.toNat ++
      [preset, speedMode, pattern, priority, endAction, markPresent, markCode])
  | .progRead slot => some (.progRead, [slot])
  | .progClear slot => some (.progClear, [slot])
  | .progAbort slot => some (.progAbort, [slot])
  | .progOrder part first => some (.progOrder, [part, first])
  | .badCheck _ | .badKind _ _ | .badLength _ _ | .byteReceived _ _ | .receiveGapTimeout | .transmitEnd | .cassetteInsert
  | .loadingComplete _ | .threadingComplete | .unthreadingComplete | .ejectComplete _ | .mechTimeout _ | .servoLock _
  | .servoTimeout | .servoLockLost | .syncDetectorChange _ | .speedDetectWindowEnd | .controlPulseWrite | .controlPulseRead _
  | .dewSensorChange _ | .dewDryTimeout | .leaderSeen _ | .reelStall | .tightEnd | .pauseLimit | .reelPulse _ _
  | .reelPeriodStall _ | .tapeReportTimer | .decoderGap | .gotoNoTrack | .runNoTrack | .signalStrengthChange _
  | .tunerSettleEnd | .tuningTimeout | .aftReading _ | .signalLossTimeout | .noSignalRecheck | .scanDwellEnd | .peakDwellEnd
  | .mainsCycle | .secondBoundary | .detectionWindowClose | .wakeComplete | .supplyMonitorChange _ | .mainsLoss
  | .mainsRestore _ | .coldStart _ _ _ | .backupSupplyFail | .qualificationGap => none

end Sys2Proof.Machine
end

