-- ==== Sys2Proof/WellFormed.lean ====
section
/-! DEFINITION. The well-formed commands: those that spell what their row of the table says. Every byte of a request is allowed, since
a value out of range is answered by its owner (R199 step 4); the rows of the link's errors name frames that meet that error, and a
RUN_LOAD carries 1 to 8 segments (R200). -/

namespace Sys2Proof

/-- A body that a frame can carry: 1 to 60 bytes (R197). -/
def carriable (body : List Byte) : Bool := decide (1 ≤ body.length) && decide (body.length ≤ 60)

def Instr.wellFormed : Instr → Bool
  | .runLoad _ _ _ segments => decide (1 ≤ segments.length) && decide (segments.length ≤ 8)
  | .badCheck body => carriable body
  | .badKind kind payload => carriable (kind :: payload) && (Machine.RequestKind.ofByte kind).isNone
  | .badLength kind payload =>
    carriable (kind :: payload) && (Machine.RequestKind.ofByte kind).any fun k => !k.admitsLength payload.length
  | .ident | .noteFlow _ _ | .deckReset | .powerStandby | .powerOperate | .systemSet _ _ _ _ | .clockSet _ | .clockRead
  | .clockSource _ | .motion _ | .recSpeed _ | .eject | .counterZero | .tapeRead | .classSet _ | .markNow _
  | .gotoCounter _ _ | .gotoMarkForward _ _ _ _ _ | .gotoMarkBackward _ _ _ _ _ | .gotoCancel | .watchSet _ _ _ _ _ _ _ _ _
  | .watchClear _ | .watchRead _ | .runStart | .runStop | .runRead _ | .markList _ | .tunePreset _ | .tuneStepUp
  | .tuneStepDown | .tuneDirect _ | .tunerRead | .presetWrite _ _ _ _ _ _ _ _ _ _ _ | .presetRead _ | .presetClear _
  | .scanStartFresh | .scanStartResume | .scanStop | .scanRead _ | .scanAdoptReplace _ | .scanAdoptAppend _ | .outputSelect _
  | .progWrite _ _ _ _ _ _ _ _ _ _ _ _ _ _ | .progRead _ | .progClear _ | .progAbort _ | .progOrder _ _ | .byteReceived _ _
  | .receiveGapTimeout | .transmitEnd | .cassetteInsert | .loadingComplete _ | .threadingComplete | .unthreadingComplete
  | .ejectComplete _ | .mechTimeout _ | .servoLock _ | .servoTimeout | .servoLockLost | .syncDetectorChange _
  | .speedDetectWindowEnd | .controlPulseWrite | .controlPulseRead _ | .dewSensorChange _ | .dewDryTimeout | .leaderSeen _
  | .reelStall | .tightEnd | .pauseLimit | .reelPulse _ _ | .reelPeriodStall _ | .tapeReportTimer | .decoderGap
  | .gotoNoTrack | .runNoTrack | .signalStrengthChange _ | .tunerSettleEnd | .tuningTimeout | .aftReading _
  | .signalLossTimeout | .noSignalRecheck | .scanDwellEnd | .peakDwellEnd | .mainsCycle | .secondBoundary
  | .detectionWindowClose | .wakeComplete | .supplyMonitorChange _ | .mainsLoss | .mainsRestore _ | .coldStart _ _ _
  | .backupSupplyFail | .qualificationGap => true

end Sys2Proof
end

