-- ==== Sys2Proof/Certificates/Slice0/Obligations.lean ====
section
/-! DEFINITION. The statements for the provers, in the order of the manual's chapters. Each docstring names the rule a statement
formalises; a statement that rests on a choice of the model names its log entry. -/

open Sys2Proof Sys2Proof.Machine

/-! ### The machine as a whole -/

/-- A step takes the command at the front of the queue and runs it with the queue's rest; on an empty queue one crystal tick
passes, in which the time, the crystal phase and the track times grow (the model's choice, logs 1 and 29). -/
def Obligations.StepRunsTheFront : Prop := ∀ s : State,
  (∀ (c : Instr) (rest : List Instr), s.pending = c :: rest → step s = exec c { s with pending := rest }) ∧
  (s.pending = [] → ∃ t, step s = .next t ∧ t.now = s.now + 375 ∧ t.clock.sinceBoundary = s.clock.sinceBoundary + 375 ∧
    t.nav.watches = s.nav.watches ∧ t.marks.passCount = s.marks.passCount ∧ KeepsBut [.time, .nav] s t)

/-- Every command has an effect but a frame whose body no frame can carry: 1 to 60 bytes (the model's choice, log 4). -/
def Obligations.OnlyUncarriableFramesStop : Prop := ∀ (c : Instr) (s : State),
  (∃ t, exec c s = .next t) ∨
    (exec c s = .refused .notAFrame ∧ ∃ body : List Byte, (body = [] ∨ 60 < body.length) ∧
      (c = .badCheck body ∨ (∃ k p, body = k :: p ∧ (c = .badKind k p ∨ c = .badLength k p)) ∨
        ∃ r, requestOf c = some r ∧ body = r.1.code :: r.2))

/-! ### Cassette transport -/

/-- R5, R65, R82: MOTION, GOTO of its three forms and RUN_START refused by their checks, in order, are answered with the first check's status,
and nothing else changes. -/
def Obligations.MovesRefused : Prop := ∀ s : State, PortReady s → NothingDue s →
  (∀ (b : Byte) (st : Status),
    firstFailing (motionChecks b s) = some st → exec (.motion b) s = .next (answered .motion { status := st } s)) ∧
  (∀ (f : Byte) (v : Word24) (st : Status),
    firstFailing ((decide (f.toNat < 1) || decide (3 < f.toNat) || s.outOfRange v.toInt, .range) :: moveChecks s) = some st →
    exec (.gotoCounter f v) s = .next (answered .goto { status := st } s)) ∧
  (∀ (f n present code mask : Byte) (st : Status),
    firstFailing ((markFieldsBad f n present false, .range) :: moveChecks s) = some st →
    exec (.gotoMarkForward f n present code mask) s = .next (answered .goto { status := st } s)) ∧
  (∀ (f n present code mask : Byte) (st : Status),
    firstFailing ((markFieldsBad f n present true, .range) :: moveChecks s) = some st →
    exec (.gotoMarkBackward f n present code mask) s = .next (answered .goto { status := st } s)) ∧
  (∀ st : Status,
    firstFailing (moveChecks s ++ [(s.nav.run.segments.isEmpty, .notReady), (s.nav.run.state.active, .busy)]) = some st →
    exec .runStart s = .next (answered .runStart { status := st } s))

/-- R4, R5 checks 7 and 8, R6, R20, R185: a MOTION request that no check refuses, in a settled STOP or threaded mode. For the mode that
stands it is answered OK, and the claim is taken, and released at once in STOP; the stop cause then stands, which is the model's choice
(DESIGN CHOICE, log 41). For another it is ACCEPTED: THREADING, UNTHREADING, or a servo change with a fresh allowance, under the operator's
claim. -/
def Obligations.MotionStarts : Prop := ∀ s : State, PortReady s → NothingDue s → Steady s → MechDirect s →
  s.transport.change = none → s.transport.target = none → (s.transport.mode = .stop ∨ s.transport.mode.threaded) →
  ∀ (b : Byte) (m : Mode), motionTarget b = some m → firstFailing (motionChecks b s) = none →
  (s.transport.mode = m → ∃ t, exec (.motion b) s = .next t ∧ Replied .motion { status := .ok } t ∧
    t.mech = (if m = .stop then .free else .operator .direct) ∧ KeepsBut [.mech, .sending] s t) ∧
  (s.transport.mode ≠ m →
  ∃ t, exec (.motion b) s = .next t ∧ Replied .motion { status := .accepted } t ∧
    t.mech = .operator .direct ∧ t.transport.target = some m ∧ t.transport.stopCause = none ∧
    (s.transport.mode = .stop →
      t.transport.mode = .threading ∧ t.transport.change = some (.mech .threading) ∧ t.transport.stepStart = s.now) ∧
    (s.transport.mode.threaded → m = .stop →
      t.transport.mode = .unthreading ∧ t.transport.change = some (.mech .unthreading) ∧ t.transport.stepStart = s.now ∧
        t.transport.recordClass = none) ∧
    (s.transport.mode.threaded → m.threaded →
      t.transport.mode = s.transport.mode ∧ t.transport.change = some (.servo m) ∧ t.transport.servoStart = s.now) ∧
    Announced .mode t.transportBytes t ∧
    KeepsBut [.transport, .counter, .estimate, .marks, .mech, .sending] s t)

/-- R6: a MOTION request accepted while a mechanical step is in flight replaces the target alone; one accepted during a servo change
redirects it at once, or abandons it for UNTHREADING. The entry for a target equal to the one in flight is log 24's. -/
def Obligations.MotionRedirects : Prop := ∀ s : State, PortReady s → NothingDue s → Steady s → MechDirect s →
  ∀ (b : Byte) (m : Mode), motionTarget b = some m → firstFailing (motionChecks b s) = none →
  (∀ k : MechStep, s.transport.change = some (.mech k) → s.transport.mode = k.mode →
    ∃ t, exec (.motion b) s = .next t ∧ Replied .motion { status := .accepted } t ∧ t.mech = .operator .direct ∧
      t.transport = { s.transport with
        target := some m, stopCause := none,
        recordOrder := if m = .record then .operator else s.transport.recordOrder } ∧
      KeepsBut [.transport, .mech, .sending] s t) ∧
  (∀ old : Mode, s.transport.change = some (.servo old) → (s.transport.mode.threaded ∨ s.transport.mode = .threading) → old ≠ m →
    ∃ t, exec (.motion b) s = .next t ∧ Replied .motion { status := .accepted } t ∧ t.mech = .operator .direct ∧
      t.transport.target = some m ∧ t.transport.stopCause = none ∧
      (m = .stop → t.transport.mode = .unthreading ∧ t.transport.change = some (.mech .unthreading) ∧ t.transport.stepStart = s.now) ∧
      (m ≠ .stop → t.transport.mode = s.transport.mode ∧ t.transport.change = some (.servo m) ∧ t.transport.servoStart = s.now) ∧
      KeepsBut [.transport, .counter, .estimate, .marks, .mech, .sending] s t)

/-- R11, R13: the EJECT request: the refusals, the eject in flight, the begin from STOP and from a threaded mode, served in STANDBY too; in
FAULT it is accepted whatever claim is held, and its recovery is chosen from the position switches, the out position ending it in EMPTY at
once (log 12). -/
def Obligations.EjectServed : Prop := ∀ s : State, PortReady s → NothingDue s →
  (s.transport.mode = .empty → exec .eject s = .next (answered .eject { status := .notReady } s)) ∧
  (s.transport.mode = .ejecting → exec .eject s = .next (answered .eject { status := .ok } s)) ∧
  (s.transport.mode ≠ .empty → s.transport.mode ≠ .ejecting → s.transport.mode ≠ .fault → s.transport.recovering = false →
    (s.mech.isTimer → exec .eject s = .next (answered .eject { status := .busyTimer } s)) ∧
    (s.mech.isProtect → exec .eject s = .next (answered .eject { status := .busyProtect } s))) ∧
  (s.transport.resetInFlight = false → NotStopping s → MechDirect s → s.transport.recovering = false → s.transport.change = none →
    (s.transport.mode = .stop ∨ s.transport.mode.threaded) →
    ∃ t, exec .eject s = .next t ∧ Replied .eject { status := .accepted } t ∧ t.mech = .operator .direct ∧
      (s.transport.mode = .stop → t.transport.mode = .ejecting ∧ t.transport.change = some (.mech .ejecting)) ∧
      (s.transport.mode ≠ .stop → t.transport.mode = .unthreading ∧ t.transport.change = some (.mech .unthreading) ∧
        t.transport.target = some .empty) ∧
      t.transport.stepStart = s.now ∧ t.transport.stopCause = none ∧ Announced .mode t.transportBytes t ∧
      KeepsBut [.transport, .counter, .estimate, .marks, .mech, .sending] s t) ∧
  (s.transport.mode = .fault → s.transport.change = none → s.transport.resetInFlight = false → NotStopping s →
    s.pins.position ≠ .out →
    ∃ t, exec .eject s = .next t ∧ Replied .eject { status := .accepted } t ∧ t.transport.recovering ∧
      t.transport.faultCause = s.transport.faultCause ∧ t.transport.stepStart = s.now ∧
      (s.pins.position = .threaded ∨ s.pins.position = .betweenLoadedAndThreaded →
        t.transport.mode = .unthreading ∧ t.transport.change = some (.mech .unthreading) ∧ t.transport.target = some .empty) ∧
      (s.pins.position = .loaded ∨ s.pins.position = .betweenOutAndLoaded →
        t.transport.mode = .ejecting ∧ t.transport.change = some (.mech .ejecting)) ∧
      Announced .mode t.transportBytes t ∧ KeepsBut [.transport, .counter, .estimate, .marks, .sending] s t) ∧
  (s.transport.mode = .fault → s.transport.change = none → s.transport.resetInFlight = false → NotStopping s → NoPrograms s →
    NoNavigation s → s.mech = .protect .mech → s.pins.position = .out →
    ∃ t, exec .eject s = .next t ∧ Replied .eject { status := .accepted } t ∧ t.transport.mode = .empty ∧
      t.transport.cassettePresent = false ∧ t.transport.recordTab = false ∧ t.transport.faultCause = none ∧
      t.transport.target = none ∧ t.mech = .free ∧ t.tape.cls = none ∧ t.tape.counter = 0 ∧ t.tape.quality = .exact ∧
      t.marks.history = [] ∧ NoWatches t ∧ t.nav.run.segments = [] ∧ Announced .mode t.transportBytes t ∧
      KeepsBut [.transport, .counter, .reels, .estimate, .marks, .nav, .mech, .sending] s t)

/-- R17, R39: REC_SPEED names 1, 2 or 3, and any other value is refused RANGE; it sets the setting in every mode and posts the MODE note.
With an estimate the reported times change with it: R and E at the new setting from the same fraction, each rounded on its own. -/
def Obligations.RecSpeedSets : Prop := ∀ s : State, PortReady s → NothingDue s → ∀ b : Byte,
  (Speed.ofByte b = none → exec (.recSpeed b) s = .next (answered .recSpeed { status := .range } s)) ∧
  (∀ v : Speed, Speed.ofByte b = some v → s.tape.fraction = none →
    ∃ t, exec (.recSpeed b) s = .next t ∧ Replied .recSpeed { status := .ok } t ∧
      t.transport = { s.transport with recordSpeed := v } ∧ Announced .mode t.transportBytes t ∧
      KeepsBut [.transport, .sending] s t) ∧
  (∀ e, s.estimate = some e → NoWatches s → ∀ v : Speed, Speed.ofByte b = some v →
    ∃ t, exec (.recSpeed b) s = .next t ∧ Replied .recSpeed { status := .ok } t ∧ t.transport = { s.transport with recordSpeed := v } ∧
      t.remaining v = some ⌊(e.1 * e.2.minutes * 60 * v.sigma : ℚ) / 10000 + 1 / 2⌋.toNat ∧
      t.elapsed v = some ⌊((10000 - e.1 : Nat) * e.2.minutes * 60 * v.sigma : ℚ) / 10000 + 1 / 2⌋.toNat ∧
      t.tape.fraction = s.tape.fraction ∧ (v ≠ s.transport.recordSpeed → TapeAnnounced t) ∧
      KeepsBut [.transport, .estimate, .sending] s t)

/-- R8, R45, R62: the cassette-in switch closes in EMPTY and LOADING begins; in BACKUP the closing starts nothing. The loaded position with
no other target left ends LOADING in STOP with a cassette load: the tab is read, the play speed class is 1, the stop cause is cleared, and
the position record and the mark history are reset; watch and segment entries that the load finds stay (DESIGN CHOICE, log 59). -/
def Obligations.LoadingRuns : Prop := ∀ s : State,
  (s.power.state ≠ .backup → s.transport.mode = .empty → s.transport.resetInFlight = false → NotStopping s →
    ∃ t, exec .cassetteInsert s = .next t ∧ t.transport.mode = .loading ∧ t.transport.change = some (.mech .loading) ∧
      t.transport.cassettePresent ∧ t.transport.target = some .stop ∧ t.transport.stepStart = s.now ∧ t.loadingMotor = .inward ∧
      t.pins = { s.pins with cassetteIn := true } ∧ Announced .mode t.transportBytes t ∧
      KeepsBut [.pins, .transport, .counter, .estimate, .marks, .sending] s t) ∧
  (s.power.state = .backup → exec .cassetteInsert s = .next { s with pins.cassetteIn := true }) ∧
  (s.power.state ≠ .backup → s.transport.mode = .loading →
    s.transport.change = some (.mech .loading) → s.transport.target = some .stop → s.transport.resetInFlight = false → NotStopping s →
    MechDirect s → NoPrograms s → NoNavigation s → ∀ tab : Bool,
    ∃ t, exec (.loadingComplete tab) s = .next t ∧ t.transport.mode = .stop ∧ t.transport.change = none ∧
      t.transport.target = none ∧ t.transport.recordTab = tab ∧ t.transport.playSpeed = .standard ∧ t.transport.stopCause = none ∧
      t.tape.cls = none ∧ t.tape.origin = .none ∧ t.tape.candidate = none ∧ t.tape.idCount = 0 ∧ t.tape.fraction = none ∧
      t.tape.held = false ∧ t.tape.counter = 0 ∧ t.tape.quality = .exact ∧ t.tape.spanStart = none ∧
      t.tape.supply = .emptied .collecting s.tape.supply.lastAccepted ∧
      t.tape.takeUp = .emptied .collecting s.tape.takeUp.lastAccepted ∧
      t.marks.history = [] ∧ t.marks.writer = s.marks.writer ∧ t.mech = .free ∧
      t.pins = { s.pins with position := .loaded, recordTab := tab } ∧ Announced .mode t.transportBytes t ∧
      KeepsBut [.pins, .transport, .counter, .reels, .estimate, .marks, .mech, .sending] s t)

/-- R9, R16: threading is confirmed and a servo change toward the newest target begins, with its allowance from now; a target STOP or EMPTY
is followed by UNTHREADING at once, and so is a recording target that the tab or dew forbids, which is dropped (log 11). -/
def Obligations.ThreadingConfirmed : Prop := ∀ s : State, s.power.state ≠ .backup → NothingDue s → s.transport.mode = .threading →
  s.transport.change = some (.mech .threading) → s.transport.resetInFlight = false → NotStopping s →
  (∀ m : Mode, s.transport.target = some m → m.threaded →
    (m = .record ∨ m = .recPause → s.transport.recordTab ∧ s.transport.dew = false) →
    ∃ t, exec .threadingComplete s = .next t ∧
      t.transport = { s.transport with
        change := some (.servo m), servoStart := s.now, lockLostAt := none, relockPending := false } ∧
      t.pins = { s.pins with position := .threaded } ∧ KeepsBut [.pins, .transport, .sending] s t) ∧
  (∀ m : Mode, s.transport.target = some m → (m = .stop ∨ m = .empty) →
    ∃ t, exec .threadingComplete s = .next t ∧ t.transport.mode = .unthreading ∧
      t.transport.change = some (.mech .unthreading) ∧ t.transport.target = some m ∧ t.transport.stepStart = s.now ∧
      t.pins = { s.pins with position := .threaded } ∧ Announced .mode t.transportBytes t ∧
      KeepsBut [.pins, .transport, .counter, .estimate, .marks, .sending] s t) ∧
  (∀ m : Mode, s.transport.target = some m → (m = .record ∨ m = .recPause) → (s.transport.recordTab = false ∨ s.transport.dew) →
    ∃ t, exec .threadingComplete s = .next t ∧ t.transport.mode = .unthreading ∧
      t.transport.change = some (.mech .unthreading) ∧ t.transport.target = some .stop ∧ t.transport.stepStart = s.now ∧
      t.pins = { s.pins with position := .threaded } ∧ Announced .mode t.transportBytes t ∧
      KeepsBut [.pins, .transport, .counter, .estimate, .marks, .sending] s t)

/-- R10, R4, R185, R187: unthreading is confirmed: STOP, where the path ends and the claim is released, or goes on into EJECTING or
THREADING. -/
def Obligations.UnthreadingConfirmed : Prop := ∀ s : State, s.power.state ≠ .backup → s.transport.mode = .unthreading →
  s.transport.change = some (.mech .unthreading) → s.transport.unthreadEnd = .plain → s.transport.resetInFlight = false →
  NotStopping s → s.transport.rewindDue = false → s.transport.recovering = false → NoPrograms s → NoNavigation s →
  (s.transport.target = some .stop → (MechDirect s ∨ s.mech.isProtect) →
    ∃ t, exec .unthreadingComplete s = .next t ∧ t.transport.mode = .stop ∧ t.transport.change = none ∧
      t.transport.target = none ∧ t.transport.stopCause = s.transport.stopCause ∧ t.mech = .free ∧
      t.pins = { s.pins with position := .loaded } ∧ Announced .mode t.transportBytes t ∧
      KeepsBut [.pins, .transport, .counter, .estimate, .marks, .mech, .sending] s t) ∧
  (∀ m : Mode, s.transport.target = some m →
    (m = .empty ∨ m.threaded ∧ s.transport.dew = false ∧ (m = .record ∨ m = .recPause → s.transport.recordTab)) →
    ∃ t, exec .unthreadingComplete s = .next t ∧
      t.transport.mode = (if m = .empty then .ejecting else .threading) ∧
      t.transport.change = some (.mech (if m = .empty then .ejecting else .threading)) ∧ t.transport.stepStart = s.now ∧
      (m ≠ .empty → t.transport.target = some m) ∧ t.pins = { s.pins with position := .loaded } ∧
      Announced .mode t.transportBytes t ∧ KeepsBut [.pins, .transport, .counter, .estimate, .marks, .sending] s t)

/-- R11, R45, R62, R86: the out position is reported: EMPTY, the flags cleared, the claim released, and the position record, the mark
history, the watch list and the segment list cleared. -/
def Obligations.EjectEndsInEmpty : Prop := ∀ s : State, s.power.state ≠ .backup → s.transport.mode = .ejecting →
  s.transport.change = some (.mech .ejecting) → s.transport.resetInFlight = false → NotStopping s →
  (MechDirect s ∨ s.mech.isProtect) → NoPrograms s → NoNavigation s → ∀ cassetteIn : Bool,
  ∃ t, exec (.ejectComplete cassetteIn) s = .next t ∧ t.transport.mode = .empty ∧ t.transport.change = none ∧
    t.transport.target = none ∧ t.transport.cassettePresent = false ∧ t.transport.recordTab = false ∧
    t.transport.recordClass = none ∧ t.transport.faultCause = none ∧
    t.tape.cls = none ∧ t.tape.origin = .none ∧ t.tape.fraction = none ∧ t.tape.held = false ∧ t.tape.counter = 0 ∧
    t.tape.quality = .exact ∧ t.tape.spanStart = none ∧ t.tape.supply = .emptied .stalled s.tape.supply.lastAccepted ∧
    t.tape.takeUp = .emptied .stalled s.tape.takeUp.lastAccepted ∧ t.marks.history = [] ∧ t.marks.writer = none ∧
    t.nav.watches = List.replicate 8 none ∧ t.nav.run.segments = [] ∧ t.nav.run.state = .idle ∧ t.nav.goto = .idle ∧
    t.mech = .free ∧ t.pins = { s.pins with position := .out, cassetteIn := cassetteIn } ∧ Announced .mode t.transportBytes t ∧
    KeepsBut [.pins, .transport, .counter, .reels, .estimate, .marks, .nav, .mech, .sending] s t

/-- R12: a mechanical step that is not confirmed within 4.0 s of its start ends in FAULT under PROTECT with cause MECH. -/
def Obligations.MechTimeoutFaults : Prop := ∀ s : State, s.power.state ≠ .backup → s.transport.resetInFlight = false →
  NotStopping s → NoPrograms s → ¬ s.mech.isTimer → ∀ (k : MechStep) (p : Position), s.transport.change = some (.mech k) →
  s.now ≤ s.transport.stepStart + seconds 4 →
  ∃ t, exec (.mechTimeout p) s = .next t ∧ t.now = s.transport.stepStart + seconds 4 ∧ t.transport.mode = .fault ∧
    t.transport.change = none ∧ t.transport.target = none ∧ t.transport.faultCause = some k ∧ t.mech = .protect .mech ∧
    t.pins = { s.pins with position := p } ∧ Announced .mode t.transportBytes t ∧
    KeepsBut [.time, .pins, .transport, .counter, .estimate, .marks, .nav, .mech, .sending] s t

/-- R3, R14, R17, R18, R31, R38, R43, R190: the servo condition is met and the mode is reached: the target equal to it is cleared, the
recording class and the detection window follow it, and a threaded motion empties both interval lists, holds an estimate that stands, and
starts the no-track span. In OPERATING the drum and the capstan then run as the mode asks; in STANDBY they are off. A REC_PAUSE leaves the
recording class as it stood, so that one no RECORD came before has none: that is the model's reading (DEDUCED, log 27). -/
def Obligations.ServoLockReachesMode : Prop := ∀ s : State, s.power.state ≠ .backup → s.transport.resetInFlight = false →
  NotStopping s → NoPrograms s → NoNavigation s → ∀ m : Mode, s.transport.change = some (.servo m) → m.threaded →
  ∀ w : Leaders, ¬ (m.direction = some .forward ∧ w.atEnd) → ¬ (m.direction = some .reverse ∧ w.atStart) →
  ∃ t, exec (.servoLock w) s = .next t ∧ t.transport.mode = m ∧ t.transport.change = none ∧
    t.transport.target = (if s.transport.target = some m then none else s.transport.target) ∧
    t.transport.modeReachedAt = s.now ∧
    (m ≠ .record → m ≠ .recPause → t.transport.recordClass = none) ∧
    (m = .recPause → t.transport.recordClass = s.transport.recordClass) ∧
    (m = .record → t.transport.recordClass = some (match s.transport.recordOrder with
      | .operator => s.transport.recordSpeed
      | .timer v _ => v)) ∧
    t.transport.detect = (if m = .play then some { start := s.now, count := 0 } else none) ∧
    (m.motion → t.tape.supply = .emptied .collecting s.tape.supply.lastAccepted ∧
      t.tape.takeUp = .emptied .collecting s.tape.takeUp.lastAccepted ∧ t.tape.spanStart = some s.now ∧
      (s.tape.fraction ≠ none → t.tape.held ∧ (s.tape.held = false → TapeAnnounced t))) ∧
    (s.power.state = .operating → t.drum = .locked ∧
      (m = .still ∨ m = .recPause → t.capstan = .stopped) ∧ (m = .windFwd ∨ m = .windRev → t.capstan = .pinchReleased) ∧
      (m = .play → t.capstan = .drawing .forward (96 / s.transport.playSpeed.sigma)) ∧
      (m = .searchFwd → t.capstan = .drawing .forward (7 * (96 / s.transport.playSpeed.sigma))) ∧
      (m = .searchRev → t.capstan = .drawing .reverse (7 * (96 / s.transport.playSpeed.sigma))) ∧
      (∀ v, t.transport.recordClass = some v → m = .record → t.capstan = .drawing .forward (96 / v.sigma))) ∧
    (s.power.state = .standby → t.drum = .off ∧ t.capstan = .off) ∧
    (¬ m.motion → t.tape.supply = s.tape.supply ∧ t.tape.takeUp = s.tape.takeUp ∧ t.tape.spanStart = none) ∧
    t.tape.counter = s.tape.counter ∧ t.tape.quality = s.tape.quality ∧
    t.pins = { s.pins with startLeader := w.atStart, endLeader := w.atEnd } ∧ Announced .mode t.transportBytes t ∧
    KeepsBut [.pins, .transport, .counter, .reels, .estimate, .marks, .sending] s t

/-- R14, R15, R21: the loss of lock in a settled threaded mode starts the 1.0 s supervision, and so does a change of the sync detector's
report; the lock regained ends it. The mode is not touched. Dry reports start the 60 s while the dew flag is set, and their end clears the
flag and posts the MODE note. -/
def Obligations.LockAndDewFollowed : Prop := ∀ s : State, s.power.state ≠ .backup → NothingDue s →
  (Threaded s →
    s.transport.change = none →
    (s.transport.lockLostAt = none → exec .servoLockLost s = .next (chooseFrame { s with transport.lockLostAt := some s.now })) ∧
    (∀ present : Bool, present ≠ s.pins.sync →
      ∃ t, exec (.syncDetectorChange present) s = .next t ∧ t.pins = { s.pins with sync := present } ∧
        t.transport = { s.transport with lockLostAt := some (s.transport.lockLostAt.getD s.now) } ∧
        KeepsBut [.pins, .transport, .tuner, .sending] s t) ∧
    (∀ since, s.transport.lockLostAt = some since → NotStopping s → ∀ w : Leaders,
      ∃ t, exec (.servoLock w) s = .next t ∧
        t.transport = { s.transport with lockLostAt := none, relockPending := false } ∧ KeepsBut [.transport, .sending] s t)) ∧
  (s.transport.dew →
    (s.transport.drySince = none → exec (.dewSensorChange false) s =
      .next (chooseFrame { s with pins.dew := false, transport.drySince := some s.now })) ∧
    (∀ since, s.transport.drySince = some since → s.now ≤ since + seconds 60 → s.transport.resetInFlight = false → NotStopping s →
      NoPrograms s →
      ∃ t, exec .dewDryTimeout s = .next t ∧ t.now = since + seconds 60 ∧
        t.transport = { s.transport with dew := false, drySince := none } ∧ Announced .mode t.transportBytes t ∧
        KeepsBut [.time, .transport, .nav, .sending] s t))

/-- R14, R20 to R24, R68, R72, R84, R85, R177: each protection of the tape begins a protection stop at its limit, from a threaded mode. A go-to
or run that holds the mechanism ends with the outcome of its chapter, an end action is ended, and one of REWIND completed by the start leader
keeps the TUNER claim. Dew in THREADING takes the claim and sets the target STOP (the stop cause is log 40's). A LEADER_END stop goes on from
its first STOP into the rewind if the setting is on and dew is clear, and ends at the start leader's stop. -/
def Obligations.ProtectionsStop : Prop := ∀ s : State, s.power.state ≠ .backup → s.transport.resetInFlight = false → NotStopping s →
  (MechDirect s → NoPrograms s → NoNavigation s → Threaded s →
  let stopped := fun (c : StopCause) (at_ : Nat) (o : Host.Outcome State Fault Refusal) =>
    ∃ t, o = .next t ∧ ProtectionStopped c at_ t ∧
      KeepsBut [.time, .pins, .transport, .counter, .estimate, .marks, .mech, .sending] s t
  (∀ m, s.transport.change = some (.servo m) → s.now ≤ s.transport.servoStart + seconds 1 →
    stopped .servo (s.transport.servoStart + seconds 1) (exec .servoTimeout s)) ∧
  (∀ since, s.transport.change = none → s.transport.lockLostAt = some since → s.now ≤ since + seconds 1 →
    stopped .servo (since + seconds 1) (exec .servoTimeout s)) ∧
  (s.transport.dew = false → stopped .dew s.now (exec (.dewSensorChange true) s)) ∧
  (s.transport.mode.direction = some .forward → stopped .leaderEnd s.now (exec (.leaderSeen .endLeader) s)) ∧
  (s.transport.mode.direction = some .reverse → stopped .leaderStart s.now (exec (.leaderSeen .startLeader) s)) ∧
  (s.transport.mode.capstanMotion →
    s.now ≤ Nat.max s.transport.modeReachedAt s.transport.lastTakeUpPulse + seconds 8 →
    stopped .stall (Nat.max s.transport.modeReachedAt s.transport.lastTakeUpPulse + seconds 8) (exec .reelStall s)) ∧
  (s.transport.mode.wind → s.transport.leaderSeen = false →
    s.now ≤ Nat.max s.transport.modeReachedAt s.transport.lastReelPulse + seconds 2 →
    stopped .tightEnd (Nat.max s.transport.modeReachedAt s.transport.lastReelPulse + seconds 2) (exec .tightEnd s)) ∧
  ((s.transport.mode = .still ∨ s.transport.mode = .recPause) → s.now ≤ s.transport.modeReachedAt + seconds 300 →
    stopped .pauseLimit (s.transport.modeReachedAt + seconds 300) (exec .pauseLimit s))) ∧
  (MechDirect s → NoPrograms s → NoNavigation s → s.transport.mode = .threading → s.transport.change = some (.mech .threading) →
    s.transport.dew = false →
    ∃ t, exec (.dewSensorChange true) s = .next t ∧ t.mech = .protect .dew ∧ t.pins = { s.pins with dew := true } ∧
      t.transport = { s.transport with
        dew := true, drySince := none, target := some .stop, stopCause := some .dew, rewindDue := false } ∧
      Announced .mode t.transportBytes t ∧ KeepsBut [.pins, .transport, .estimate, .mech, .sending] s t) ∧
  (Threaded s →
    let stop := fun (c : StopCause) (o : Host.Outcome State Fault Refusal) (after : State → Prop) =>
      ∃ t, o = .next t ∧ ProtectionStopped c s.now t ∧ after t
    let atLeader := s.transport.mode.direction = some .forward
    let atDew := s.transport.dew = false
    (s.mech = .operator .goTo → s.nav.goto.active → NoPrograms s →
      let ended := fun (o : GotoOutcome) (t : State) =>
        t.nav.goto.active = false ∧ t.nav.goto.outcome = some o ∧ t.nav.goto.landed = none ∧ t.nav.goto.overshoot = none ∧
          Announced .goto t.gotoNoteBytes t ∧ KeepsBut [.pins, .transport, .counter, .estimate, .marks, .nav, .mech, .sending] s t
      (atLeader → stop .leaderEnd (exec (.leaderSeen .endLeader) s) (ended .tapeEnd)) ∧
      (atDew → stop .dew (exec (.dewSensorChange true) s) (ended .preempted))) ∧
    (s.mech = .operator .run → s.nav.run.state.active → NoPrograms s →
      let ended := fun (r : RunResult) (t : State) =>
        t.nav.run.state = .done ∧ t.nav.run.result = some r ∧ t.nav.goto.active = false ∧ t.nav.run.segments = s.nav.run.segments ∧
          Announced .run t.runNoteBytes t ∧ KeepsBut [.pins, .transport, .counter, .estimate, .marks, .nav, .mech, .sending] s t
      (atLeader → stop .leaderEnd (exec (.leaderSeen .endLeader) s)
        (ended (if s.nav.run.state = .ending ∧ s.nav.run.endAction = some .rewind then .finished else .tapeEnd))) ∧
      (atDew → stop .dew (exec (.dewSensorChange true) s) (ended .preempted))) ∧
    (∀ e, s.sched.endAction = some e → s.mech = .timer (.endAction e.1) → s.tunerOf = .timer (.endAction e.1) →
      (atDew → stop .dew (exec (.dewSensorChange true) s) fun t =>
        t.sched = { s.sched with endAction := none } ∧ t.tunerOf = .free) ∧
      (s.transport.mode.direction = some .reverse → e.2 = .rewind →
        stop .leaderStart (exec (.leaderSeen .startLeader) s) fun t =>
          t.sched = { s.sched with endAction := none, rewindTail := true } ∧ t.tunerOf = s.tunerOf)) ∧
    (s.mech = .protect .leaderEnd → s.transport.mode = .windRev →
      stop .leaderStart (exec (.leaderSeen .startLeader) s) fun t =>
        KeepsBut [.pins, .transport, .counter, .estimate, .marks, .mech, .sending] s t)) ∧
  (s.mech = .protect .leaderEnd → s.transport.rewindDue → s.transport.mode = .unthreading →
    s.transport.change = some (.mech .unthreading) → s.transport.unthreadEnd = .plain → s.transport.recovering = false →
    s.transport.target = some .stop → NoPrograms s → NoNavigation s →
    ∃ t, exec .unthreadingComplete s = .next t ∧ t.transport.stopCause = s.transport.stopCause ∧ t.transport.rewindDue = false ∧
      (s.settings.autoRewind → s.transport.dew = false → t.mech = s.mech ∧ t.transport.mode = .threading ∧
        t.transport.change = some (.mech .threading) ∧ t.transport.target = some .windRev ∧ t.transport.stepStart = s.now) ∧
      (s.settings.autoRewind = false ∨ s.transport.dew → t.mech = .free ∧ t.transport.mode = .stop ∧ t.transport.change = none ∧
        t.transport.target = none) ∧
      Announced .mode t.transportBytes t ∧ KeepsBut [.pins, .transport, .counter, .estimate, .marks, .mech, .sending] s t)

/-- R18: the detection window closes in a settled PLAY at class c. A count within one tenth of the pulses that class r gives makes the
play speed class r; no pulse at all makes it 1; a count that matches no class changes nothing. -/
def Obligations.SpeedDetected : Prop := ∀ s : State, s.power.state ≠ .backup → s.transport.resetInFlight = false → NotStopping s →
  s.transport.mode = .play → s.transport.change = none →
  ∀ w : DetectWindow, s.transport.detect = some w → s.now ≤ w.start + seconds 1 →
  let c := s.transport.playSpeed
  let near := fun r : Speed =>
    9 * s.settings.frameRate * r.sigma ≤ 10 * w.count * c.sigma ∧ 10 * w.count * c.sigma ≤ 11 * s.settings.frameRate * r.sigma
  ∃ t, exec .speedDetectWindowEnd s = .next t ∧ t.now = w.start + seconds 1 ∧ t.transport.mode = .play ∧
    t.transport.detect = none ∧
    (w.count = 0 → t.transport.playSpeed = .standard) ∧
    (∀ r, 0 < s.settings.frameRate → near r → t.transport.playSpeed = r) ∧
    (w.count ≠ 0 → ¬ near .standard → ¬ near .long → ¬ near .extended → t.transport.playSpeed = c) ∧
    (t.transport.playSpeed ≠ c → t.transport.relockPending ∧ t.transport.lockLostAt ≠ none ∧
      t.tape.supply = .emptied .collecting s.tape.supply.lastAccepted ∧
      t.tape.takeUp = .emptied .collecting s.tape.takeUp.lastAccepted ∧ Announced .mode t.transportBytes t) ∧
    KeepsBut [.time, .transport, .reels, .estimate, .nav, .sending] s t

/-- R13, R28, R87, R206: DECK_RESET: the entries queued behind it, the replies that wait, the outbox and the assembly have no part in what
follows, whether it is dispatched at its arrival or from the head of the queue; a frame on the line goes on to its end. In STOP or a threaded
mode that the operator or no one holds it is ACCEPTED: the watch list is emptied, the stop cause cleared, the claim released, and the deck
works toward STOP. In FAULT the recovery runs by the position switches, under the PROTECT claim until it succeeds (log 12). -/
def Obligations.DeckResetQuiets : Prop := ∀ s : State,
  (PortReady s → ∀ (replies : List Frame) (outbox : List Note) (assembly : Option Assembly),
    (∀ f ∈ replies, f.origin ≠ .dispatched) →
    exec .deckReset { s with link := { s.link with replies := replies, outbox := outbox, assembly := assembly } } =
      exec .deckReset { s with link := { s.link with replies := [], outbox := [], assembly := none } }) ∧
  (s.power.state ≠ .backup → ∀ f, s.link.line = some f → f.origin = .dispatched → (∀ r ∈ s.link.replies, r.origin ≠ .dispatched) →
    ∀ rest, s.link.input = { body := [RequestKind.deckReset.code], good := true } :: rest →
    exec .transmitEnd s = exec .deckReset
      { s with link := { s.link with line := none, input := [], replies := [], outbox := [], assembly := none } }) ∧
  (PortReady s → NotStopping s → NoPrograms s → NoNavigation s → s.scan.state = .idle → s.transport.change = none →
  (MechDirect s → s.transport.target = none → s.transport.recovering = false → (s.transport.mode = .stop ∨ s.transport.mode.threaded) →
  ∃ t, exec .deckReset s = .next t ∧ Replied .deckReset { status := .accepted } t ∧ t.mech = .free ∧ t.link.input = [] ∧
    t.link.assembly = none ∧ t.transport.stopCause = none ∧ t.nav.watches = List.replicate 8 none ∧
    (∀ f, s.link.line = some f → t.link.line = some f ∧ t.link.replies = [replyFrame .deckReset { status := .accepted }]) ∧
    (s.link.line = none → t.link.replies = []) ∧
    (s.transport.mode = .stop → t.transport.mode = .stop ∧ t.transport.change = none ∧ t.transport.target = none) ∧
    (s.transport.mode.threaded → t.transport.mode = .unthreading ∧ t.transport.change = some (.mech .unthreading) ∧
      t.transport.target = some .stop) ∧
    t.transport.recordSpeed = s.transport.recordSpeed ∧ t.transport.playSpeed = s.transport.playSpeed ∧
    t.transport.recordTab = s.transport.recordTab ∧ t.tape.counter = s.tape.counter ∧ t.tape.quality = s.tape.quality ∧
    KeepsBut [.transport, .counter, .estimate, .marks, .nav, .tuner, .tunerOf, .mech, .reception, .sending] s t) ∧
  (s.transport.mode = .fault → s.mech = .protect .mech → ∃ t, exec .deckReset s = .next t ∧
    Replied .deckReset { status := .accepted } t ∧ t.transport.stopCause = none ∧ t.nav.watches = List.replicate 8 none ∧
    (let under := fun (step : MechStep) => t.transport.mode = step.mode ∧ t.transport.change = some (.mech step) ∧
      t.transport.stepStart = s.now ∧ t.transport.target = some .stop ∧ t.transport.recovering ∧
      t.transport.faultCause = s.transport.faultCause ∧ t.mech = .protect .mech
    let rested := fun (m : Mode) => t.transport.mode = m ∧ t.transport.change = none ∧ t.transport.target = none ∧
      t.transport.recovering = false ∧ t.transport.faultCause = none ∧ t.mech = .free
    (s.pins.position = .threaded ∨ s.pins.position = .betweenLoadedAndThreaded → under .unthreading) ∧
    (s.pins.position = .betweenOutAndLoaded ∨ (s.pins.position = .out ∧ s.pins.cassetteIn) → under .loading) ∧
    (s.pins.position = .loaded → s.transport.target = none → rested .stop) ∧
    (s.pins.position = .out → s.pins.cassetteIn = false → rested .empty ∧ t.transport.cassettePresent = false ∧ t.tape.cls = none ∧
      t.tape.counter = 0)) ∧
    KeepsBut [.transport, .counter, .reels, .estimate, .marks, .nav, .tuner, .tunerOf, .mech, .reception, .sending] s t))

/-! ### Tape position -/

/-- R35: CLASS_SET: the refusals; the class now known made DECLARED with the estimate standing; another class, or unknown, with the
estimate discarded. -/
def Obligations.ClassSetDeclares : Prop := ∀ s : State, PortReady s → NothingDue s → ∀ b : Byte,
  (6 < b.toNat → exec (.classSet b) s = .next (answered .classSet { status := .range } s)) ∧
  (b.toNat ≤ 6 → (s.transport.mode = .empty ∨ s.transport.mode = .loading ∨ s.transport.mode = .ejecting) →
    exec (.classSet b) s = .next (answered .classSet { status := .notReady } s)) ∧
  (b.toNat ≤ 6 → s.transport.mode ≠ .empty → s.transport.mode ≠ .loading → s.transport.mode ≠ .ejecting →
    ∃ t, exec (.classSet b) s = .next t ∧ Replied .classSet { status := .ok } t ∧
      (b = 0 → t.tape.cls = none ∧ t.tape.origin = .none) ∧
      (∀ c, t.tape.cls = some c → c.minutes = 30 * b.toNat ∧ t.tape.origin = .declared) ∧
      (b ≠ 0 → t.tape.cls ≠ none) ∧
      (b ≠ 0 → t.tape.cls = s.tape.cls → t.tape.fraction = s.tape.fraction ∧ t.tape.held = s.tape.held) ∧
      (b = 0 ∨ t.tape.cls ≠ s.tape.cls → t.tape.fraction = none ∧ t.tape.held = false) ∧
      t.tape.idCount = 0 ∧ t.tape.candidate = none ∧ TapeAnnounced t ∧ KeepsBut [.estimate, .nav, .sending] s t)

/-- R44: COUNTER_ZERO: refused NOT_READY in EMPTY, LOADING and EJECTING and BUSY while a go-to or a run is in flight; otherwise the
counter becomes 0 EXACT with a TAPE note, and nothing else changes: not the no-track span, not the watches. NOT_READY comes first: in
EJECTING also while a run is in flight, which is the model's order (DESIGN CHOICE, log 42). -/
def Obligations.CounterZeroed : Prop := ∀ s : State, PortReady s →
  ((s.transport.mode = .empty ∨ s.transport.mode = .loading ∨ s.transport.mode = .ejecting) →
    exec .counterZero s = .next (answered .counterZero { status := .notReady } s)) ∧
  (s.transport.mode ≠ .empty → s.transport.mode ≠ .loading → s.transport.mode ≠ .ejecting →
    ((s.nav.goto.active ∨ s.nav.run.state.active) → exec .counterZero s = .next (answered .counterZero { status := .busy } s)) ∧
    (NoNavigation s → ∃ t, exec .counterZero s = .next t ∧ Replied .counterZero { status := .ok } t ∧ t.tape.counter = 0 ∧
      t.tape.quality = .exact ∧ t.tape.spanStart = s.tape.spanStart ∧ t.tape.fraction = s.tape.fraction ∧
      t.tape.held = s.tape.held ∧ t.tape.cls = s.tape.cls ∧ TapeAnnounced t ∧
      KeepsBut [.counter, .estimate, .sending] s t))

/-- R30, R31: a reel pulse. The first since the list was emptied starts an interval and ends none; a later one ends an interval; with
four intervals the period is their sum: VALID from 40 to 60,000 ticks, SLOW and saturated above, and noise below 40, which leaves the
reel as it was. The other reel is not touched. -/
def Obligations.ReelPulseCounted : Prop := ∀ s : State, s.power.state ≠ .backup → s.transport.cassettePresent → ∀ r : Reel,
  let m := s.reel r
  let other := match r with
    | .supply => Reel.takeUp
    | .takeUp => .supply
  (m.opened = false → ∀ i : Nat, ∃ t, exec (.reelPulse r i) s = .next t ∧ t.now = s.now ∧
    t.reel r = { m with opened := true, state := .collecting, lastAccepted := s.now } ∧ t.reel other = s.reel other) ∧
  (m.opened → ∀ i : Nat, s.now ≤ m.lastAccepted + i * 6144 →
    let four := (if m.intervals.length = 4 then m.intervals.tail else m.intervals) ++ [i]
    let at_ := m.lastAccepted + i * 6144
    ∃ t, exec (.reelPulse r i) s = .next t ∧ t.now = at_ ∧ t.reel other = s.reel other ∧
      (m.intervals.length < 3 → t.reel r = { m with intervals := m.intervals ++ [i], lastAccepted := at_ }) ∧
      ((m.intervals.length = 3 ∨ m.intervals.length = 4) →
        (four.sum < 40 → t.reel r = m) ∧
        (40 ≤ four.sum → four.sum ≤ 60000 →
          t.reel r = { m with intervals := four, period := four.sum, state := .valid, lastAccepted := at_ }) ∧
        (60000 < four.sum →
          t.reel r = { m with intervals := four, period := 60000, state := .slow, lastAccepted := at_ })))

/-- R37: the supply fraction of a class from the two periods, in exact arithmetic: N and D are whole, D is positive, the quotient is
rounded once, and the result is kept within 0 to 10,000. -/
def Obligations.SupplyFractionExact : Prop := ∀ (c : CassetteClass) (ps pt : Nat), 0 < ps →
  let u : Int := ps * ps
  let w : Int := pt * pt
  let n : Int := 10000 * u - c.hubShare * (u + w)
  let d : Int := (10000 - 2 * c.hubShare) * (u + w)
  let f : Int := supplyFraction ps pt c.hubShare
  0 < d ∧ (n < 0 → f = 0) ∧ (0 ≤ n → f = min 10000 ⌊(10000 * n : ℚ) / d + 1 / 2⌋) ∧ 0 ≤ f ∧ f ≤ 10000

/-- R36, R37, R38: a refresh in a threaded motion with the class known, both periods VALID and a second since the last computation makes
an estimate: the fraction of R37, the held flag clear. -/
def Obligations.EstimateComputed : Prop := ∀ s : State, s.power.state ≠ .backup → s.transport.cassettePresent →
  s.transport.mode.motion → NoPrograms s → NoWatches s → s.transport.resetInFlight = false → NotStopping s →
  ∀ c, s.tape.cls = some c → ∀ (r : Reel) (i : Nat),
  let m := s.reel r
  let at_ := m.lastAccepted + i * 6144
  let p := (m.intervals.drop (m.intervals.length - 3)).sum + i
  m.opened → (m.intervals.length = 3 ∨ m.intervals.length = 4) → 40 ≤ p → p ≤ 60000 → s.now ≤ at_ →
  s.tape.lastEstimate.all (fun t0 => decide (t0 + seconds 1 ≤ at_)) →
  (r = .supply → s.tape.takeUp.state = .valid) → (r = .takeUp → s.tape.supply.state = .valid) →
  ∃ t, exec (.reelPulse r i) s = .next t ∧
    t.tape.fraction = some (match r with
      | .supply => supplyFraction p s.tape.takeUp.period c.hubShare
      | .takeUp => supplyFraction s.tape.supply.period p c.hubShare) ∧
    t.tape.held = false ∧ t.tape.lastEstimate = some at_ ∧ t.tape.cls = some c ∧
    (s.tape.fraction = none ∨ s.tape.held → TapeAnnounced t) ∧
    KeepsBut [.time, .transport, .counter, .reels, .estimate, .nav, .sending] s t

/-- R33, R34, R36, R37: a reel pulse that refreshes a period in a settled PLAY or RECORD with the class unknown and both periods VALID. The first
refresh, and then one a second or more after the last computation, makes an identification computation: the sum's band becomes or confirms the
candidate, no band clears it, and the fifth in one band makes the class known, IDENTIFIED, with an estimate computed at that event where one is
due. A refresh within the second makes no computation. -/
def Obligations.ClassIdentified : Prop := ∀ s : State, s.power.state ≠ .backup → s.transport.cassettePresent → NoPrograms s → NoWatches s →
  s.transport.resetInFlight = false → NotStopping s → s.tape.cls = none → (s.transport.mode = .play ∨ s.transport.mode = .record) →
  s.transport.change = none → s.transport.relockPending = false → ∀ v, s.capstanClass = some v → ∀ (r : Reel) (i : Nat),
  let m := s.reel r
  let at_ := m.lastAccepted + i * 6144
  let p := (m.intervals.drop (m.intervals.length - 3)).sum + i
  m.opened → (m.intervals.length = 3 ∨ m.intervals.length = 4) → 40 ≤ p → p ≤ 60000 → s.now ≤ at_ →
  (r = .supply → s.tape.takeUp.state = .valid) → (r = .takeUp → s.tape.supply.state = .valid) →
  let ps := match r with
    | .supply => p
    | .takeUp => s.tape.supply.period
  let pt := match r with
    | .supply => s.tape.takeUp.period
    | .takeUp => p
  let q := fun p : Nat => ⌊(p : ℚ) / v.sigma + 1 / 2⌋.toNat
  let sum := ⌊((q ps * q ps + q pt * q pt : Nat) : ℚ) / 1000 + 1 / 2⌋.toNat
  let due := s.tape.lastIdent.all fun t0 => decide (t0 + seconds 1 ≤ at_)
  ∃ t, exec (.reelPulse r i) s = .next t ∧ t.now = at_ ∧ t.tape.supply.period = ps ∧ t.tape.takeUp.period = pt ∧
    let unknown := t.tape.cls = none ∧ t.tape.origin = s.tape.origin ∧ t.tape.fraction = s.tape.fraction
    (due = false → unknown ∧ t.tape.candidate = s.tape.candidate ∧ t.tape.idCount = s.tape.idCount ∧
      t.tape.lastIdent = s.tape.lastIdent) ∧
    (due → classBand sum = none → unknown ∧ t.tape.candidate = none ∧ t.tape.idCount = 0 ∧ t.tape.lastIdent = some at_) ∧
    (due → ∀ c, classBand sum = some c →
      (s.tape.candidate ≠ some c → unknown ∧ t.tape.candidate = some c ∧ t.tape.idCount = 1 ∧ t.tape.lastIdent = some at_) ∧
      (s.tape.candidate = some c → s.tape.idCount < 4 →
        unknown ∧ t.tape.candidate = some c ∧ t.tape.idCount = s.tape.idCount + 1 ∧ t.tape.lastIdent = some at_) ∧
      (s.tape.candidate = some c → s.tape.idCount = 4 →
        t.tape.cls = some c ∧ t.tape.origin = .identified ∧ t.tape.candidate = none ∧ t.tape.idCount = 0 ∧ TapeAnnounced t ∧
        (s.tape.lastEstimate.all (fun t0 => decide (t0 + seconds 1 ≤ at_)) →
          t.tape.fraction = some (supplyFraction ps pt c.hubShare) ∧ t.tape.held = false ∧ t.tape.lastEstimate = some at_))) ∧
    KeepsBut [.time, .transport, .counter, .reels, .estimate, .nav, .sending] s t

/-- R32, R41: the timers of the position unit: a reel without a pulse for 30 s becomes STALLED with its list emptied; the report period
expires in a threaded motion and a TAPE note is posted. -/
def Obligations.PositionTimers : Prop := ∀ s : State, s.power.state ≠ .backup → s.transport.resetInFlight = false → NotStopping s →
  (∀ r : Reel, (s.reel r).state ≠ .stalled → s.now ≤ (s.reel r).lastAccepted + seconds 30 →
    ∃ t, exec (.reelPeriodStall r) s = .next t ∧ t.now = (s.reel r).lastAccepted + seconds 30 ∧
      t.reel r = .emptied .stalled (s.reel r).lastAccepted ∧ KeepsBut [.time, .reels, .estimate, .nav, .sending] s t ∧
      (r = .supply → t.tape.takeUp = s.tape.takeUp) ∧ (r = .takeUp → t.tape.supply = s.tape.supply)) ∧
  (s.transport.mode.motion → 0 < s.tape.reportPeriod → NothingDue s →
    let limit := Nat.max s.transport.modeReachedAt s.tape.lastReport + seconds s.tape.reportPeriod
    s.now ≤ limit →
    ∃ t, exec .tapeReportTimer s = .next t ∧ t.now = limit ∧ t.tape.lastReport = limit ∧
      t.tape.reportPeriod = s.link.period ∧ TapeAnnounced t ∧ KeepsBut [.time, .estimate, .nav, .sending] s t)

/-- R18, R42, R43: a control pulse read moves the counter by one in the tape's direction, or leaves it at its bound with the quality
DRIFTED; it starts the no-track span again, and in PLAY it is counted in the open detection window. -/
def Obligations.CounterFollowsRead : Prop := ∀ s : State, s.power.state ≠ .backup → NothingDue s → NoNavigation s → NoWatches s →
  (s.settings.frameRate = 25 ∨ s.settings.frameRate = 30) → s.transport.mode ≠ .record →
  ∀ d, s.transport.mode.direction = some d → ∀ shape : Shape,
  let bound : Int := 36000 * s.settings.frameRate - 1
  let next : Int := match d with
    | .forward => s.tape.counter + 1
    | .reverse => s.tape.counter - 1
  ∃ t, exec (.controlPulseRead shape) s = .next t ∧
    (-bound ≤ next → next ≤ bound → t.tape.counter = next ∧ t.tape.quality = s.tape.quality) ∧
    ((d = .forward ∧ bound < next) ∨ (d = .reverse ∧ next < -bound) →
      t.tape.counter = s.tape.counter ∧ t.tape.quality = .drifted) ∧
    t.tape.spanStart = some s.now ∧
    (∀ w, s.transport.detect = some w → s.transport.mode = .play → t.transport.detect = some { w with count := w.count + 1 }) ∧
    (s.transport.mode ≠ .play → t.transport = s.transport) ∧ t.marks.writer = s.marks.writer ∧
    KeepsBut [.transport, .counter, .estimate, .marks, .sending] s t

/-! ### Cue marks -/

/-- R19, R42, R48, R51: a control pulse written in RECORD is narrow while the writer is IDLE and has the shape of the mark's next pulse
while it is WRITING; it is counted, or found at the counter's bound with the quality DRIFTED; the first pulse fixes the mark's position, and
the seventeenth completes the mark: IDLE, a WRITTEN, FORWARD, CODED record and a MARK note with it and the pass count. -/
def Obligations.PulseWritten : Prop := ∀ s : State, s.power.state ≠ .backup → NothingDue s → NoNavigation s → NoWatches s →
  (s.settings.frameRate = 25 ∨ s.settings.frameRate = 30) → s.transport.mode = .record →
  let next := s.tape.counter + 1
  let bound : Int := 36000 * s.settings.frameRate - 1
  ∃ t, exec .controlPulseWrite s = .next t ∧
    (next ≤ bound → t.tape.counter = next ∧ t.tape.quality = s.tape.quality ∧ KeepsBut [.pins, .counter, .marks, .sending] s t) ∧
    (bound < next → t.tape.counter = s.tape.counter ∧ t.tape.quality = .drifted ∧
      (s.tape.quality = .exact → TapeAnnounced t)) ∧
    t.tape.spanStart = some s.now ∧ t.marks.decoder = s.marks.decoder ∧
    (s.marks.writer = none → t.pins.written = some .narrow ∧ t.marks.writer = none ∧ t.marks.history = s.marks.history) ∧
    (∀ w, s.marks.writer = some w →
      t.pins.written = some (markShape w.code w.next) ∧
      (w.next < 17 → t.marks.history = s.marks.history ∧ t.marks.writer = some { w with
        next := w.next + 1, position := if w.next = 1 then some t.tape.counter else w.position }) ∧
      (w.next = 17 → t.marks.writer = none) ∧
      (w.next = 17 → s.marks.history.length ≤ 16 → ∀ p, w.position = some p →
        let r : MarkRecord := { position := p, direction := .forward, origin := .written, kind := .coded w.code }
        t.marks.history = s.marks.history.drop (s.marks.history.length + 1 - 16) ++ [r] ∧
          Announced .mark (r.bytes ++ [byteOf (min 255 (s.marks.passCount + 1))]) t)) ∧
    t.pins = { s.pins with written := t.pins.written } ∧ KeepsBut [.pins, .counter, .estimate, .marks, .sending] s t

/-- R50, R52, R166: the entry mark of an entry to RECORD: for the operator the default mark code when the mode left was THREADING or
REC_PAUSE, and none otherwise; for the scheduler, which enters RECORD for the active program, the code its target carries, whatever mode was
left, with the stretch counted and the class entered. MARK_NOW is NOT_READY outside RECORD or on the
way out of it, BUSY while a mark is being written, and otherwise the writer begins a mark of its code with the next frame. -/
def Obligations.MarkBegins : Prop := ∀ s : State,
  (s.power.state ≠ .backup → s.transport.resetInFlight = false → NotStopping s →
    NoNavigation s → s.transport.change = some (.servo .record) → s.marks.writer = none → ∀ w : Leaders, w.atEnd = false →
    let begun := fun (code : Option Byte) => code.map fun c => ({ next := 1, code := c, position := none } : Writing)
    (NoPrograms s → s.transport.recordOrder = .operator →
      ∃ t, exec (.servoLock w) s = .next t ∧ t.transport.mode = .record ∧ t.marks.history = s.marks.history ∧
        t.marks.writer = begun (if s.transport.mode = .threading ∨ s.transport.mode = .recPause then s.settings.defaultMark else none)) ∧
    (∀ a, s.sched.active = some a → ∀ p, s.program a.slot = some p → p.state = .recording → a.slot ≤ 16 →
      ∀ (v : Speed) (code : Option Byte), s.transport.recordOrder = .timer v code →
      ∃ t, exec (.servoLock w) s = .next t ∧ t.transport.mode = .record ∧ t.marks.history = s.marks.history ∧
        t.marks.writer = begun code ∧ t.transport.recordClass = some v ∧ t.sched.active = some a ∧
        t.program a.slot = some { p with run := { p.run with
          stretches := min 255 (p.run.stretches + 1), currentSpeed := some v, firstSpeed := some (p.run.firstSpeed.getD v) } })) ∧
  (PortReady s → ∀ code : Byte,
    let leaving := s.transport.mode ≠ .record ∨ ∃ m, s.transport.target = some m ∧ m ≠ .record
    (leaving → exec (.markNow code) s = .next (answered .markNow { status := .notReady } s)) ∧
    (¬ leaving → s.marks.writer ≠ none → exec (.markNow code) s = .next (answered .markNow { status := .busy } s)) ∧
    (¬ leaving → s.marks.writer = none → exec (.markNow code) s = .next (answered .markNow { status := .accepted }
      { s with marks.writer := some { next := 1, code := code, position := none } })))

/-- R48, R55, R57, R58: a mark laid down by the pattern of R48 is read back whichever way the tape runs. Forward from HUNT with the
boundary OPEN it gives one coded mark of its code, at the counter value of its first pulse; in reverse, with the narrow pulse before its
preamble, one anonymous mark at the same position. -/
def Obligations.MarkReadsBack : Prop := ∀ (code : Byte) (p : Int) (now : Nat) (d : Decoder),
  d.state = .hunt → d.boundary → d.bits = [] → d.candidate = none →
  (d.direction = .forward →
    let r := decodeAll 1 now (markShapes code) d (p - 1)
    r.2 = [{ position := p, direction := .forward, origin := .read, kind := .coded code }] ∧ r.1.state = .hunt ∧ r.1.boundary) ∧
  (d.direction = .reverse →
    let r := decodeAll (-1) now ((markShapes code).reverse ++ [.narrow]) d (p + 16)
    r.2 = [{ position := p, direction := .reverse, origin := .read, kind := .anonymous }] ∧ r.1.state = .hunt ∧ r.1.boundary)

/-- R56, R58: a gap of ten frame periods: HUNT with the boundary OPEN; a whole preamble read in REVERSE is an anonymous mark, and a mark
begun beyond its preamble, or a whole preamble read FORWARD, is a damaged one. -/
def Obligations.GapActs : Prop := ∀ s : State, s.power.state ≠ .backup → NothingDue s → NoNavigation s → NoWatches s →
  s.marks.decoder.state ≠ .off → s.marks.history.length ≤ 16 →
  let limit := s.marks.decoder.gapStart + 10 * 12288000 / s.settings.frameRate
  s.now ≤ limit →
  ∃ t, exec .decoderGap s = .next t ∧ t.now = limit ∧ t.marks.decoder = { s.marks.decoder with
      state := .hunt, boundary := true, bits := [], candidate := none, gapStart := limit } ∧
    t.marks.writer = s.marks.writer ∧
    t.marks.history = (match gapKind s.marks.decoder with
      | none => s.marks.history
      | some k => s.marks.history.drop (s.marks.history.length + 1 - 16) ++
          [{ position := s.marks.decoder.candidate.getD 0, direction := s.marks.decoder.direction, origin := .read, kind := k }]) ∧
    KeepsBut [.time, .marks, .sending] s t

/-! ### Navigation -/

/-- R65, R66, R69, R70: a GOTO accepted in a settled STOP or threaded mode: the record is filled, and the first target is given: for a counter
target the wind mode toward a target beyond the approach distance and the search mode toward one within it; COUNTING toward SEARCH_FWD for
the mark form FORWARD and toward WIND_REV for BACKWARD. -/
def Obligations.GotoStarts : Prop := ∀ s : State, PortReady s → NothingDue s → Steady s → MechDirect s → NoNavigation s →
  s.transport.change = none → s.transport.target = none → (s.transport.mode = .stop ∨ s.transport.mode.threaded) →
  firstFailing (moveChecks s) = none →
  (∀ (f : Byte) (v : Word24), 1 ≤ f.toNat → f.toNat ≤ 3 → s.outOfRange v.toInt = false →
    let distance := v.toInt - s.tape.counter
    let d := if distance < 0 then Direction.reverse else .forward
    let far := decide (40 * s.settings.frameRate < distance.natAbs)
    let m := if far then d.windMode else d.searchMode
    distance ≠ 0 → s.transport.mode ≠ m →
    ∃ t, exec (.gotoCounter f v) s = .next t ∧
      Replied .goto { status := .accepted, fields := [if s.tape.quality = .drifted then 1 else 0] } t ∧ t.mech = .operator .goTo ∧
      t.nav.goto = { Goto.idle with
        active := true, owner := .host, form := .counter v.toInt, final := finalOf f, phase := if far then .wind else .search,
        approach := d, drifted := s.tape.quality == .drifted } ∧
      t.transport.target = some m ∧
      t.transport.change = some (if s.transport.mode = .stop then .mech .threading else .servo m) ∧
      KeepsBut [.transport, .counter, .estimate, .marks, .nav, .mech, .sending] s t) ∧
  (∀ (f n present code mask : Byte),
    let started := fun (form : GotoForm) (d : Direction) (m : Mode) (o : Host.Outcome State Fault Refusal) =>
      ∃ t, o = .next t ∧
        Replied .goto { status := .accepted, fields := [if s.tape.quality = .drifted then 1 else 0] } t ∧ t.mech = .operator .goTo ∧
        t.nav.goto = { Goto.idle with
          active := true, owner := .host, form := form, final := finalOf f, phase := .counting, approach := d,
          drifted := s.tape.quality == .drifted } ∧
        t.transport.target = some m ∧
        t.transport.change = some (if s.transport.mode = .stop then .mech .threading else .servo m) ∧
        KeepsBut [.transport, .counter, .estimate, .marks, .nav, .mech, .sending] s t
    (markFieldsBad f n present false = false → s.transport.mode ≠ .searchFwd →
      started (.markForward n.toNat (if present = 1 then some { code := code, mask := mask } else none)) .forward .searchFwd
        (exec (.gotoMarkForward f n present code mask) s)) ∧
    (markFieldsBad f n present true = false → s.transport.mode ≠ .windRev →
      started (.markBackward n.toNat) .reverse .windRev (exec (.gotoMarkBackward f n present code mask) s)))

/-- R66 to R70: what a counter step does to a counter go-to of the host in a settled wind or search mode: within the approach distance a
WIND becomes a SEARCH in the same direction; a crossing in a wind mode is a reversal, the fourth of which ends it FAILED; a crossing in a
search mode enters LANDING with the final action as the target. The direction after a reversal is log 18's. R69, R70: what a mark handed on
does to a mark go-to: FORWARD counts a coded mark that its filter admits and lands on the Nth; BACKWARD counts one that is not damaged and
at the Nth returns; RETURNING lands on a mark within 2 frames of the noted position, and fails 40 frames beyond it. -/
def Obligations.GotoFollowsCounter : Prop := ∀ s : State, s.power.state ≠ .backup → NothingDue s → Steady s → NoWatches s →
  s.mech = .operator .goTo → s.nav.run.state.active = false → s.nav.goto.active → s.nav.goto.owner = .host →
  s.nav.goto.phase ≠ .landing → s.transport.change = none → s.transport.target = none →
  ∀ d, s.transport.mode.direction = some d → (s.transport.mode.wind ∨ s.transport.mode.search) →
  let next := match d with
    | .forward => s.tape.counter + 1
    | .reverse => s.tape.counter - 1
  next.natAbs ≤ 36000 * s.settings.frameRate - 1 →
  let go := { s.nav.goto with untracked := 0 }
  (∀ v, s.nav.goto.form = .counter v → ∃ t, exec (.controlPulseRead .narrow) s = .next t ∧ t.tape.counter = next ∧
    (next ≠ v → (s.nav.goto.phase ≠ .wind ∨ 40 * s.settings.frameRate < (v - next).natAbs) →
      t.nav.goto = go ∧ t.transport.target = none) ∧
    (next ≠ v → s.nav.goto.phase = .wind → (v - next).natAbs ≤ 40 * s.settings.frameRate → s.transport.mode.wind →
      s.nav.goto.approach = d →
      t.nav.goto.phase = .search ∧ t.nav.goto.approach = d ∧ t.transport.change = some (.servo d.searchMode)) ∧
    (next = v → s.transport.mode.wind → s.nav.goto.reversals < 3 →
      t.nav.goto.phase = .search ∧ t.nav.goto.reversals = s.nav.goto.reversals + 1 ∧ t.nav.goto.approach = d.opposite ∧
        t.transport.change = some (.servo d.opposite.searchMode)) ∧
    (next = v → s.transport.mode.wind → s.nav.goto.reversals = 3 →
      t.nav.goto.active = false ∧ t.nav.goto.outcome = some .failed ∧ t.mech = .operator .direct ∧
        t.transport.change = some (.servo .still)) ∧
    (next = v → s.transport.mode.search → t.nav.goto.phase = .landing ∧ t.nav.goto.active ∧
      t.transport.target = some s.nav.goto.final.mode ∧ t.nav.goto.reversals = s.nav.goto.reversals)) ∧
  (∀ shape : Shape,
    (∀ r, (s.marks.decoder.pulse shape s.tape.counter next s.now).2 = some r →
      let unmoved := fun (t : State) => t.nav.goto = go ∧ t.transport.target = none
      let landing := fun (n : Nat) (t : State) => t.nav.goto = { go with phase := .landing, counted := n, landingMark := some r } ∧
        t.transport.target = some s.nav.goto.final.mode
      ∃ t, exec (.controlPulseRead shape) s = .next t ∧ t.tape.counter = next ∧
        (∀ n f, s.nav.goto.form = .markForward n f → s.nav.goto.phase = .counting →
          let counts := r.direction = .forward ∧ r.kind.isCoded ∧ f.all (·.admits r)
          (¬ counts → unmoved t) ∧
          (counts → go.counted + 1 ≠ n → t.nav.goto = { go with counted := go.counted + 1 } ∧ t.transport.target = none) ∧
          (counts → go.counted + 1 = n → landing n t)) ∧
        (∀ n, s.nav.goto.form = .markBackward n → s.nav.goto.phase = .counting →
          let counts := r.direction = .reverse ∧ r.kind ≠ .damaged
          (¬ counts → unmoved t) ∧
          (counts → go.counted + 1 ≠ n → t.nav.goto = { go with counted := go.counted + 1 } ∧ t.transport.target = none) ∧
          (counts → go.counted + 1 = n → t.nav.goto =
              { go with counted := n, phase := .returning, approach := .forward, reversals := 1, noted := some r.position } ∧
            (s.transport.mode ≠ .searchFwd → t.transport.target = some .searchFwd))) ∧
        (∀ n, s.nav.goto.form = .markBackward n → s.nav.goto.phase = .returning → ∀ p, s.nav.goto.noted = some p →
          ¬ (d = .forward ∧ next = p + 40) →
          let found := r.direction = .forward ∧ (r.position - p).natAbs ≤ 2
          (found → landing go.counted t) ∧ (¬ found → unmoved t))) ∧
    ((s.marks.decoder.pulse shape s.tape.counter next s.now).2 = none → d = .forward →
      ∀ n, s.nav.goto.form = .markBackward n → s.nav.goto.phase = .returning → ∀ p, s.nav.goto.noted = some p →
      ∃ t, exec (.controlPulseRead shape) s = .next t ∧ t.tape.counter = next ∧
        (next ≠ p + 40 → t.nav.goto = go ∧ t.transport.target = none) ∧
        (next = p + 40 → t.nav.goto.active = false ∧ t.nav.goto.outcome = some .failed ∧ t.mech = .operator .direct ∧
          t.transport.change = some (.servo .still) ∧ Announced .goto t.gotoNoteBytes t)))

/-- R68, R72: a go-to of the host in LANDING ends DONE as the final action is reached: the landed counter, the overshoot with its sign, the
GOTO note, and the claim passed to the direct activity; with the final action STOP, which the unthreading reaches, it is then released. -/
def Obligations.GotoEndsDone : Prop := ∀ s : State, s.power.state ≠ .backup → s.transport.resetInFlight = false → NotStopping s →
  NoPrograms s → s.mech = .operator .goTo → s.nav.run.state.active = false → s.nav.goto.active → s.nav.goto.owner = .host →
  s.nav.goto.phase = .landing →
  let done := fun (t : State) => t.nav.goto.active = false ∧
    t.nav.goto.outcome = some .done ∧ t.nav.goto.landed = some s.tape.counter ∧
    (∀ v, s.nav.goto.form = .counter v → t.nav.goto.overshoot = some (s.tape.counter - v)) ∧
    (∀ r, s.nav.goto.landingMark = some r → s.nav.goto.form.isMark →
      t.nav.goto.overshoot = some (s.tape.counter - (r.position + 16))) ∧ Announced .goto t.gotoNoteBytes t
  (∀ m, s.transport.change = some (.servo m) → m = s.nav.goto.final.mode → s.transport.target = some m → m ≠ .stop →
    ∃ t, exec (.servoLock ⟨false, false⟩) s = .next t ∧ t.transport.mode = m ∧ t.mech = .operator .direct ∧ done t) ∧
  (s.nav.goto.final = .stop → s.transport.target = some .stop → s.transport.mode = .unthreading →
    s.transport.change = some (.mech .unthreading) → s.transport.unthreadEnd = .plain → s.transport.recovering = false →
    ∃ t, exec .unthreadingComplete s = .next t ∧ SettledIn .stop t ∧ t.mech = .free ∧ t.tape.counter = s.tape.counter ∧ done t ∧
      KeepsBut [.pins, .transport, .counter, .estimate, .marks, .nav, .mech, .sending] s t)

/-- R71, R72, R73: GOTO_CANCEL, and an untracked time of 10 s, end a go-to of the host: CANCELLED or NO_TRACK, STILL given to a threaded
transport, the claim passed to the direct activity. With no go-to in flight GOTO_CANCEL is refused NO_SUCH. -/
def Obligations.GotoEndsEarly : Prop := ∀ s : State, NothingDue s →
  (PortReady s → s.nav.goto.active = false → exec .gotoCancel s = .next (answered .gotoCancel { status := .noSuch } s)) ∧
  (s.power.state ≠ .backup → s.nav.goto.active → s.nav.goto.owner = .host → s.transport.resetInFlight = false → NotStopping s →
    s.transport.change = none → s.transport.mode.threaded → s.transport.mode ≠ .still →
    let ended := fun (o : GotoOutcome) (t : State) =>
      t.nav.goto.active = false ∧ t.nav.goto.outcome = some o ∧ t.nav.goto.landed = none ∧ t.nav.goto.overshoot = none ∧
        t.transport.target = some .still ∧ t.transport.change = some (.servo .still) ∧ t.mech = .operator .direct ∧
        Announced .goto t.gotoNoteBytes t ∧ KeepsBut [.time, .transport, .estimate, .nav, .mech, .sending] s t
    (PortReady s → ∃ t, exec .gotoCancel s = .next t ∧ Replied .gotoCancel { status := .ok } t ∧ ended .cancelled t ∧
      t.now = s.now) ∧
    (s.transport.mode.motion → s.nav.goto.untracked ≤ 10 * 12288000 →
      ∃ t, exec .gotoNoTrack s = .next t ∧ ended .noTrack t ∧ t.now = s.now + (10 * 12288000 - s.nav.goto.untracked)))

/-- R75, R200, R211: WATCH_SET: the refusals, a negative threshold and a repeat flag above 1 among them, and the entry written with its clamps:
the count at most 99, the threshold in 1 to 36,000. That these two refusals come ahead of NOT_READY is the model's order (DESIGN CHOICE, log 53).
WATCH_CLEAR empties a place that holds an entry, and WATCH_READ returns the place as it stands, in its 15 bytes. -/
def Obligations.WatchTable : Prop := ∀ s : State, PortReady s →
  (∀ (place kind : Byte) (value : Word24) (choice code mask action again setCount : Byte),
    let bad := place.toNat < 1 ∨ 8 < place.toNat ∨
      (kind = 1 ∧ (choice.toNat < 1 ∨ 3 < choice.toNat ∨ s.outOfRange value.toInt)) ∨
      (kind = 2 ∧ (choice.toNat < 1 ∨ 2 < choice.toNat)) ∨ (kind = 3 ∧ value.toInt < 0) ∨ kind = 0 ∨ 3 < kind.toNat ∨
      action.toNat < 1 ∨ 4 < action.toNat ∨ 1 < again.toNat ∨ setCount = 0
    let clamped := 99 < setCount.toNat ∨ (kind = 3 ∧ (value = 0 ∨ 36000 < value.toNat))
    let w : Watch :=
      { kind := if kind = 1 then
            .counter value.toInt (if choice = 1 then .forward else if choice = 2 then .reverse else .both)
          else if kind = 2 then (if choice = 1 then .markAny else .markCoded { code := code, mask := mask })
          else .remain (max 1 (min 36000 value.toNat))
        side := .unknown
        action := if action = 1 then .note else if action = 2 then .stop else if action = 3 then .still else .play
        setCount := min 99 setCount.toNat, count := min 99 setCount.toNat, again := again == 1, fires := 0 }
    let run := exec (.watchSet place kind value choice code mask action again setCount) s
    (bad → run = .next (answered .watchSet { status := .range } s)) ∧
    (¬ bad → (s.transport.mode = .empty ∨ s.transport.mode = .loading ∨ s.transport.mode = .ejecting) →
      run = .next (answered .watchSet { status := .notReady } s)) ∧
    (¬ bad → s.transport.mode ≠ .empty → s.transport.mode ≠ .loading → s.transport.mode ≠ .ejecting →
      run = .next (answered .watchSet { status := if clamped then .clamped else .ok }
        { s with nav.watches := s.nav.watches.set (place.toNat - 1) (some w) }))) ∧
  (∀ place : Byte,
    ((place.toNat < 1 ∨ 8 < place.toNat) →
      exec (.watchClear place) s = .next (answered .watchClear { status := .range } s) ∧
      exec (.watchRead place) s = .next (answered .watchRead { status := .range } s)) ∧
    (1 ≤ place.toNat → place.toNat ≤ 8 →
      ((s.nav.watches[place.toNat - 1]?).join = none →
        exec (.watchClear place) s = .next (answered .watchClear { status := .noSuch } s) ∧
        exec (.watchRead place) s =
          .next (answered .watchRead { status := .ok, fields := place :: List.replicate 14 0 } s)) ∧
      (∀ w, (s.nav.watches[place.toNat - 1]?).join = some w →
        exec (.watchClear place) s = .next (answered .watchClear { status := .ok }
          { s with nav.watches := s.nav.watches.set (place.toNat - 1) none }) ∧
        exec (.watchRead place) s = .next (answered .watchRead { status := .ok, fields := w.bytes place.toNat true } s))))

/-- R76 to R80: a watch alone in the list, the operator driving directly. It matches, by its kind: a counter step onto its value in a direction
it permits; a mark that is read, any that is not damaged or one that its filter admits, and no mark that is written; a fall of R at the
record-speed setting below its threshold, at a REC_SPEED change, whatever the held flag (DESIGN CHOICE, log 47), and at an estimate computation.
At a match a count above 1 falls and a count of 1 fires: a one-shot entry is removed and a repeat entry reloaded, and the action's mode is given
as a target. The fires that a note sent at the end of the event has reported are no part of the comparison; where no note can be sent, the line
being busy or the note flow off, the entry is compared whole. -/
def Obligations.CounterWatchFires : Prop := ∀ s : State, s.power.state ≠ .backup → NothingDue s → Steady s → NoNavigation s →
  s.mech = .operator .direct → s.transport.change = none → s.transport.target = none →
  s.nav.watches.length = 8 → ∀ d, s.transport.mode.direction = some d → ∀ place : Nat, 1 ≤ place → place ≤ 8 →
  ∀ w, (s.nav.watches[place - 1]?).join = some w → (∀ i, i < 8 → i ≠ place - 1 → (s.nav.watches[i]?).join = none) →
  let next := match d with
    | .forward => s.tape.counter + 1
    | .reverse => s.tape.counter - 1
  let entry := fun (t : State) => (t.nav.watches[place - 1]?).join
  let stands := fun (x : Watch) (t : State) => (entry t).map Watch.unfired = some x.unfired ∧
    (s.link.line ≠ none ∨ s.link.flow = false → entry t = some x)
  let matched := fun (w : Watch) (t : State) =>
    (1 < w.count → stands { w with count := w.count - 1 } t ∧ t.transport.target = none) ∧
    (w.count = 1 →
      (w.again = false → entry t = none) ∧
      (w.again → ((entry t).map Watch.unfired) = some { w with count := w.setCount, fires := 0 }) ∧
      (w.action = .note → t.transport.target = none) ∧
      (w.action = .stop → t.transport.mode = .unthreading ∧ t.transport.target = some .stop) ∧
      (w.action = .still → t.transport.change = some (.servo .still) ∧ t.transport.target = some .still) ∧
      (w.action = .play → s.transport.mode ≠ .play → t.transport.change = some (.servo .play)))
  let evaluated := fun (threshold r : Nat) (t : State) =>
    (threshold ≤ r → stands { w with side := .above } t ∧ t.transport.target = none) ∧
    (r < threshold → w.side ≠ .above → stands { w with side := .below } t ∧ t.transport.target = none) ∧
    (r < threshold → w.side = .above → matched { w with side := .below } t)
  (s.transport.mode ≠ .record → next.natAbs ≤ 36000 * s.settings.frameRate - 1 →
    (w.kind = .counter next .both ∨ w.kind = .counter next (if d = .forward then .forward else .reverse)) →
    ∃ t, exec (.controlPulseRead .narrow) s = .next t ∧ t.tape.counter = next ∧ matched w t) ∧
  (s.transport.mode ≠ .record → ∀ shape : Shape, next.natAbs ≤ 36000 * s.settings.frameRate - 1 →
    ∀ r, (s.marks.decoder.pulse shape s.tape.counter next s.now).2 = some r →
    let offered := fun (admitted : Prop) =>
      ∃ t, exec (.controlPulseRead shape) s = .next t ∧ (admitted → matched w t) ∧
        (¬ admitted → stands w t ∧ t.transport.target = none)
    (w.kind = .markAny → offered (r.kind ≠ .damaged)) ∧ (∀ f, w.kind = .markCoded f → offered (f.admits r))) ∧
  (s.transport.mode = .record → (w.kind = .markAny ∨ ∃ f, w.kind = .markCoded f) →
    ∃ t, exec .controlPulseWrite s = .next t ∧ stands w t ∧ t.transport = s.transport) ∧
  (∀ threshold, w.kind = .remain threshold →
    (PortReady s → ∀ (b : Byte) (v : Speed), Speed.ofByte b = some v → v ≠ s.transport.recordSpeed →
      ∀ r, s.remaining v = some r → ∃ t, exec (.recSpeed b) s = .next t ∧ evaluated threshold r t) ∧
    (NoPrograms s → ∀ (reel : Reel) (i : Nat), EstimateDue s reel i →
      ∃ t, exec (.reelPulse reel i) s = .next t ∧ ∃ r, t.remaining s.transport.recordSpeed = some r ∧ evaluated threshold r t))

/-- R81, R207: RUN_LOAD through the port's assembly. A list handed on whole, from one frame or completed by a second part, is answered RANGE,
NOT_READY and BUSY in this order; otherwise it replaces the list, the end action is set, the state made IDLE and the result cleared, and the
watch list and a go-to stand. A first part that passes the first check is kept; any other frame is answered RANGE. The assembly is left empty
but by a part that is kept. -/
def Obligations.RunLoaded : Prop := ∀ s : State, PortReady s →
  let bad := fun (e : Byte) (l : List SegmentWord) => e.toNat < 1 ∨ 4 < e.toNat ∨ l.any (fun g => s.outOfRange g.start.toInt ||
    (g.stop != 0x800000 && (s.outOfRange g.stop.toInt || decide (g.stop.toInt ≤ g.start.toInt))))
  let clear := { s with link.assembly := none }
  let handed := fun (e : Byte) (l : List SegmentWord) (run : Host.Outcome State Fault Refusal) =>
    (bad e l → run = .next (answered .runLoad { status := .range } clear)) ∧
    (¬ bad e l → (s.transport.mode = .empty ∨ s.transport.mode = .loading ∨ s.transport.mode = .ejecting) →
      run = .next (answered .runLoad { status := .notReady } clear)) ∧
    (¬ bad e l → s.transport.mode ≠ .empty → s.transport.mode ≠ .loading → s.transport.mode ≠ .ejecting →
      (s.nav.run.state.active → run = .next (answered .runLoad { status := .busy } clear)) ∧
      (s.nav.run.state.active = false →
        ∃ t, run = .next t ∧ Replied .runLoad { status := .ok } t ∧ t.nav.run.state = .idle ∧ t.nav.run.result = none ∧
          t.nav.run.endAction = some (endActionOf e) ∧ t.nav.run.segments.length = l.length ∧
          t.nav.run.segments = l.map (fun g =>
            { start := g.start.toInt, stop := if g.stop = 0x800000 then .nextMark else .counter g.stop.toInt }) ∧
          t.link.assembly = none ∧ t.nav.goto = s.nav.goto ∧ t.nav.watches = s.nav.watches ∧
          KeepsBut [.nav, .reception, .sending] s t))
  (∀ (e : Byte) (l : List SegmentWord), 1 ≤ l.length → l.length ≤ 8 → handed e l (exec (.runLoad e (byteOf l.length) 1 l) s)) ∧
  (∀ (e n : Byte) (l : List SegmentWord), 1 ≤ l.length → l.length ≤ 8 → l.length < n.toNat → n.toNat ≤ 12 →
    (bad e l → exec (.runLoad e n 1 l) s = .next (answered .runLoad { status := .range } clear)) ∧
    (¬ bad e l → exec (.runLoad e n 1 l) s = .next (answered .runLoad { status := .ok }
      { s with link.assembly := some { endAction := e, total := n.toNat, segments := l } }))) ∧
  (∀ a, s.link.assembly = some a → 1 ≤ a.segments.length → a.total ≤ 12 → ∀ l : List SegmentWord, 1 ≤ l.length → l.length ≤ 8 →
    a.segments.length + l.length = a.total → handed a.endAction (a.segments ++ l)
      (exec (.runLoad a.endAction (byteOf a.total) (byteOf (a.segments.length + 1)) l) s)) ∧
  (∀ (e n first : Byte) (l : List SegmentWord), 1 ≤ l.length → l.length ≤ 8 →
    (n = 0 ∨ 12 < n.toNat ∨ (first = 1 ∧ n.toNat < l.length) ∨
      (first ≠ 1 ∧ s.link.assembly.all fun a => decide (first.toNat ≠ a.segments.length + 1) || decide (a.endAction ≠ e) ||
        decide (a.total ≠ n.toNat) || decide (a.segments.length + l.length ≠ a.total))) →
    exec (.runLoad e n first l) s = .next (answered .runLoad { status := .range } clear))

/-- R82, R83: RUN_START accepted in a settled STOP or threaded mode, the first segment's start away from the counter: the claim for the
run, SEEKING(1), and a counter go-to of its own toward that start with the final action PLAY. -/
def Obligations.RunStarts : Prop := ∀ s : State, PortReady s → NothingDue s → Steady s → MechDirect s → NoNavigation s →
  s.transport.change = none → s.transport.target = none → (s.transport.mode = .stop ∨ s.transport.mode.threaded) →
  firstFailing (moveChecks s) = none → ∀ g, s.nav.run.segments.head? = some g → g.start ≠ s.tape.counter →
  ∃ t, exec .runStart s = .next t ∧ Replied .runStart { status := .accepted } t ∧ t.mech = .operator .run ∧
    t.nav.run = { s.nav.run with state := .seeking 1, result := none } ∧ t.nav.goto.active ∧ t.nav.goto.owner = .run 1 ∧
    t.nav.goto.form = .counter g.start ∧ t.nav.goto.final = .play ∧ Announced .run t.runNoteBytes t ∧
    KeepsBut [.transport, .counter, .estimate, .marks, .nav, .mech, .sending] s t

/-- R83, R84, R85: a run in PLAYING: a forward step onto the counter end of its last segment begins the end action; RUN_STOP ends it
STOPPED, and a track time of 10 s NO_TRACK, with STILL given and the claim passed to the direct activity. With no run active RUN_STOP is
refused NO_SUCH. -/
def Obligations.RunEnds : Prop := ∀ s : State, NothingDue s →
  (PortReady s → s.nav.run.state.active = false → exec .runStop s = .next (answered .runStop { status := .noSuch } s)) ∧
  (Steady s → s.mech = .operator .run → s.nav.goto.active = false → SettledIn .play s →
    ∀ i : Nat, s.nav.run.state = .playing i → ∀ g, s.nav.run.segments[i - 1]? = some g → 1 ≤ i →
    (i = s.nav.run.segments.length → NoWatches s → g.stop = .counter (s.tape.counter + 1) →
      s.tape.counter + 1 ≤ 36000 * s.settings.frameRate - 1 → -(36000 * s.settings.frameRate - 1 : Int) ≤ s.tape.counter →
      ∃ t, exec (.controlPulseRead .narrow) s = .next t ∧ t.nav.run.state = .ending ∧ t.mech = .operator .run ∧
        (s.nav.run.endAction = some .stop ∨ s.nav.run.endAction = some .standby → t.transport.target = some .stop) ∧
        (s.nav.run.endAction = some .rewind → t.transport.target = some .windRev) ∧
        (s.nav.run.endAction = some .eject → t.transport.target = some .empty) ∧ Announced .run t.runNoteBytes t) ∧
    (let ended := fun (r : RunResult) (t : State) =>
        t.nav.run.state = .done ∧ t.nav.run.result = some r ∧ t.transport.target = some .still ∧
          t.transport.change = some (.servo .still) ∧ t.mech = .operator .direct ∧ Announced .run t.runNoteBytes t ∧
          KeepsBut [.time, .transport, .estimate, .nav, .mech, .sending] s t;
      (PortReady s → ∃ t, exec .runStop s = .next t ∧ Replied .runStop { status := .ok } t ∧ ended .stopped t ∧ t.now = s.now) ∧
      (s.nav.run.track ≤ 10 * 12288000 →
        ∃ t, exec .runNoTrack s = .next t ∧ ended .noTrack t ∧ t.now = s.now + (10 * 12288000 - s.nav.run.track))))


/-! ### Tuner and presets -/

/-- R94, R95, R97, R98, R104, R117: TUNE of its four forms: the refusals in their order; a request for what the tuner is tuned to already is
answered OK and takes the claim; otherwise the claim goes to the direct activity and a tuning of the resolved selection begins, a scan in
flight ending REPLACED. A step takes the eligible preset that its walk reaches first. -/
def Obligations.TuneServed : Prop := ∀ s : State, PortReady s →
  let served := fun (sel : Selection) (range noSuch : Bool) (o : Host.Outcome State Fault Refusal) =>
    let checks := [(range, Status.range), (s.inStandby, .notReady), (s.tunerOf.isTimer, .busyTimer), (noSuch, .noSuch)]
    (∀ st, firstFailing checks = some st → o = .next (answered .tune { status := st } s)) ∧
    (firstFailing checks = none →
      (s.tuner.selection = sel → s.tuner.state ≠ .idle → s.tunerOf ≠ .scan →
        ∃ t, o = .next t ∧ Replied .tune { status := .ok } t ∧ t.tunerOf = .direct ∧ KeepsBut [.tunerOf, .sending] s t) ∧
      ((s.tuner.selection ≠ sel ∨ s.tuner.state = .idle) → s.scan.state = .idle →
        ∃ t, o = .next t ∧ Replied .tune { status := .accepted } t ∧ t.tunerOf = .direct ∧ TuningBegun sel s t ∧
          t.tuner.presets = s.tuner.presets ∧ KeepsBut [.tuner, .tunerOf, .sending] s t) ∧
      (s.tunerOf = .scan → s.scan.state ≠ .idle →
        ∃ t, o = .next t ∧ Replied .tune { status := .accepted } t ∧ t.tunerOf = .direct ∧ TuningBegun sel s t ∧
          t.tuner.presets = s.tuner.presets ∧ t.scan.state = .idle ∧ t.scan.lastEnding = some .replaced ∧
          t.scan.resume = s.scan.step ∧ t.scan.found = s.scan.found ∧ Announced .scan t.scanBytes t ∧
          KeepsBut [.tuner, .scan, .tunerOf, .sending] s t))
  let start := match s.tuner.selection with
    | .preset m => m
    | .direct _ => 0
  let top := if start = 0 then 100 else start
  (∀ b : Byte, served (.preset b.toNat) (decide (99 < b.toNat)) (b != 0 && s.preset b.toNat == none) (exec (.tunePreset b) s)) ∧
  (∀ f : Word16, served (.direct f.toNat) (decide (f.toNat < 900) || decide (17200 < f.toNat)) false (exec (.tuneDirect f) s)) ∧
  (s.tuner.presets.length = 99 → start ≤ 99 →
    (∀ n : Nat, s.eligible n → (∀ k, k ≤ 99 → s.eligible k → (n + 98 - start) % 99 ≤ (k + 98 - start) % 99) →
      served (.preset n) false false (exec .tuneStepUp s)) ∧
    (∀ n : Nat, s.eligible n → (∀ k, k ≤ 99 → s.eligible k → (top + 98 - n) % 99 ≤ (top + 98 - k) % 99) →
      served (.preset n) false false (exec .tuneStepDown s)) ∧
    ((∀ k, k ≤ 99 → s.eligible k = false) →
      served (.preset 0) false true (exec .tuneStepUp s) ∧ served (.preset 0) false true (exec .tuneStepDown s)))

/-- R95, R97, R100: the lock condition is not tested for the first 100 ms of a tuning, and continuously from then on: LOCKED when it holds,
NO_SIGNAL at the end of the 800 ms. In LOCKED its failure for 500 ms gives NO_SIGNAL and sets the latch, and its return before that cancels
the loss; in NO_SIGNAL it is re-checked every 500 ms. The frequency stays loaded. -/
def Obligations.TunerFollowsSignal : Prop := ∀ s : State, s.power.state ≠ .backup → NothingDue s → s.scan.state = .idle →
  let lock := s.pins.sync ∧ (s.tuner.selection = .preset 0 ∨ 4 ≤ s.pins.strength.toNat)
  let locked := fun (at_ : Nat) (t : State) => t.now = at_ ∧
    t.tuner = { s.tuner with
      settled := t.tuner.settled, state := .locked, aftSince := at_, failSince := none,
      recheckSince := t.tuner.recheckSince } ∧ Announced .tune t.tuningBytes t
  let faded := fun (at_ : Nat) (latch : Bool) (t : State) => t.now = at_ ∧
    t.tuner = { s.tuner with state := .noSignal, latch := latch, failSince := none, recheckSince := at_ } ∧
    Announced .tune t.tuningBytes t
  (∀ x : BitVec 4, ∃ t, exec (.signalStrengthChange x) s = .next t ∧ t.pins = { s.pins with strength := x } ∧
    (let lock := s.pins.sync ∧ (s.tuner.selection = .preset 0 ∨ 4 ≤ x.toNat)
    (s.tuner.state = .tuning → s.tuner.settled → lock → locked s.now t) ∧
    (s.tuner.state = .tuning → (s.tuner.settled = false ∨ ¬ lock) → t.tuner = s.tuner) ∧
    (s.tuner.state = .locked → lock → t.tuner = { s.tuner with failSince := none }) ∧
    (s.tuner.state = .locked → ¬ lock → t.tuner = { s.tuner with failSince := some (s.tuner.failSince.getD s.now) }) ∧
    (s.tuner.state = .idle ∨ s.tuner.state = .noSignal → t.tuner = s.tuner)) ∧ KeepsBut [.pins, .tuner, .sending] s t) ∧
  (s.tuner.state = .tuning →
    let settled := s.tuner.tuningStart + 100 * 12288
    (s.tuner.settled = false → s.now ≤ settled → ∃ t, exec .tunerSettleEnd s = .next t ∧ t.tuner.settled ∧
      (lock → locked settled t) ∧ (¬ lock → t.now = settled ∧ t.tuner.state = .tuning) ∧
      KeepsBut [.time, .tuner, .nav, .sending] s t) ∧
    (s.now ≤ s.tuner.tuningStart + 800 * 12288 → ∃ t, exec .tuningTimeout s = .next t ∧
      faded (s.tuner.tuningStart + 800 * 12288) s.tuner.latch t ∧ KeepsBut [.time, .tuner, .nav, .sending] s t)) ∧
  (s.tuner.state = .locked → ∀ since, s.tuner.failSince = some since → s.now ≤ since + 500 * 12288 →
    ∃ t, exec .signalLossTimeout s = .next t ∧ faded (since + 500 * 12288) true t ∧
      KeepsBut [.time, .tuner, .nav, .sending] s t) ∧
  (s.tuner.state = .noSignal →
    let limit := s.tuner.recheckSince + 500 * 12288
    s.now ≤ limit → ∃ t, exec .noSignalRecheck s = .next t ∧ (lock → locked limit t) ∧
      (¬ lock → t.now = limit ∧ t.tuner = { s.tuner with recheckSince := limit }) ∧ KeepsBut [.time, .tuner, .nav, .sending] s t)

/-- R96, R99: an AFT reading in LOCKED with the AFT in use: HIGH raises the correction, LOW lowers it, within 8 either way, and a change
reloads the synthesiser; a reading beyond the limit sets AFT at limit, one that moves the correction back clears it, each with a TUNE note. -/
def Obligations.AftCorrects : Prop := ∀ s : State, s.power.state ≠ .backup → NothingDue s → s.scan.state = .idle →
  s.tuner.state = .locked → s.tuner.aftInUse → s.tuner.correction.natAbs ≤ 8 → s.now ≤ s.tuner.aftSince + 200 * 12288 →
  ∀ r : Discriminator,
  let c := s.tuner.correction
  let c' := match r with
    | .high => min 8 (c + 1)
    | .low => max (-8) (c - 1)
    | .centred => c
  ∃ t, exec (.aftReading r) s = .next t ∧ t.now = s.tuner.aftSince + 200 * 12288 ∧ t.pins = { s.pins with discriminator := r } ∧
    t.tuner = { s.tuner with correction := c', aftSince := t.now, atLimit := t.tuner.atLimit, synth := t.tuner.synth } ∧
    (c' = c → t.tuner.synth = s.tuner.synth) ∧
    (∀ b, s.tuner.base = some b → 908 ≤ b → b ≤ 17192 → c' ≠ c → t.tuner.synth = some (b + c').toNat) ∧
    (c' = c → r ≠ .centred → t.tuner.atLimit) ∧ (c'.natAbs < c.natAbs → t.tuner.atLimit = false) ∧
    (r = .centred ∨ c.natAbs < c'.natAbs → t.tuner.atLimit = s.tuner.atLimit) ∧
    (t.tuner.atLimit ≠ s.tuner.atLimit → Announced .tune t.tuningBytes t) ∧ KeepsBut [.time, .pins, .tuner, .nav, .sending] s t

/-- R90, R91, R102, R103, R106: PRESET_WRITE, PRESET_CLEAR and OUTPUT_SELECT: their checks in order, and the record written whole, or
emptied. A write that changes frequency, fine tune or AFT enabled of the preset selected retunes under a claim that is free or direct, and
makes the copy STALE under the TIMER class; a clear of the preset selected leaves a DIRECT selection, and nothing is retuned. -/
def Obligations.PresetTable : Prop := ∀ s : State, PortReady s → s.tuner.presets.length = 99 →
  (∀ (preset : Byte) (f : Word16) (fine flags len c1 c2 c3 c4 c5 c6 : Byte),
    let n := preset.toNat
    let label := [c1, c2, c3, c4, c5, c6].take len.toNat
    let v := max (-15) (min 15 fine.toInt)
    let p : Preset :=
      { frequency := f.toNat, fineTune := v, aft := flags.getLsbD 0, skip := flags.getLsbD 1, lock := flags.getLsbD 2,
        label := label }
    let range := n < 1 ∨ 99 < n ∨ f.toNat < 900 ∨ 17200 < f.toNat ∨ 7 < flags.toNat ∨ 6 < len.toNat ∨
      label.any (fun c => decide (63 < c.toNat))
    let run := exec (.presetWrite preset f fine flags len c1 c2 c3 c4 c5 c6) s
    (range → run = .next (answered .presetWrite { status := .range } s)) ∧
    (¬ range → ∃ t, run = .next t ∧ Replied .presetWrite { status := if v = fine.toInt then .ok else .clamped } t ∧
      t.tuner.presets = s.tuner.presets.set (n - 1) (some p) ∧ KeepsBut [.tuner, .sending] s t ∧
      (let tuningWrite := s.tuner.selection = .preset n ∧ s.tuner.state ≠ .idle ∧
        (s.preset n).all (fun q => q.frequency != p.frequency || q.fineTune != v || q.aft != p.aft)
      (tuningWrite → (s.tunerOf = .free ∨ s.tunerOf = .direct) → TuningBegun (.preset n) s t) ∧
      (tuningWrite → s.tunerOf.isTimer →
        t.tuner = { s.tuner with presets := t.tuner.presets, copy := .stale } ∧
          (s.tuner.copy = .current → Announced .tune t.tuningBytes t)) ∧
      (¬ tuningWrite ∨ s.tunerOf = .scan → t.tuner = { s.tuner with presets := t.tuner.presets })))) ∧
  (∀ preset : Byte,
    let n := preset.toNat
    let checks := [(decide (n < 1) || decide (99 < n), Status.range), (s.preset n == none, .noSuch), (s.references n != 0, .inUse)]
    (∀ st, firstFailing checks = some st →
      exec (.presetClear preset) s = .next (answered .presetClear { status := st } s)) ∧
    (firstFailing checks = none → ∃ t, exec (.presetClear preset) s = .next t ∧ Replied .presetClear { status := .ok } t ∧
      t.tuner.presets = s.tuner.presets.set (n - 1) none ∧
      t.tuner = { s.tuner with presets := t.tuner.presets, selection := t.tuner.selection } ∧
      (s.tuner.selection ≠ .preset n → t.tuner.selection = s.tuner.selection) ∧
      (s.tuner.selection = .preset n → s.scan.state = .idle → ∀ b, s.tuner.base = some b → 908 ≤ b → b ≤ 17192 →
        s.tuner.correction.natAbs ≤ 8 → t.tuner.selection = .direct b ∧ Announced .tune t.tuningBytes t) ∧
      KeepsBut [.tuner, .sending] s t)) ∧
  (∀ b : Byte,
    (b.toNat < 1 ∨ 3 < b.toNat → exec (.outputSelect b) s = .next (answered .outputSelect { status := .range } s)) ∧
    (1 ≤ b.toNat → b.toNat ≤ 3 → ∃ t, exec (.outputSelect b) s = .next t ∧ Replied .outputSelect { status := .ok } t ∧
      t.tuner = { s.tuner with output := if b = 1 then .auto else if b = 2 then .tuner else .tape } ∧
      Announced .tune t.tuningBytes t ∧ KeepsBut [.tuner, .sending] s t))

/-! ### Station scan -/

/-- R104, R112, R117, R118: SCAN_START FRESH and RESUME, refused in the order of R112, set the record up and take the claim; SCAN_STOP ends a
scan in flight STOPPED, keeps the found list and hands the claim and a tuning of the selection to the direct activity. -/
def Obligations.ScanServed : Prop := ∀ s : State, PortReady s →
  let begun := fun (first : Nat) (found : List (Nat × Nat)) (o : Host.Outcome State Fault Refusal) =>
    ∃ t, o = .next t ∧ Replied .scanStart { status := .accepted } t ∧ t.tunerOf = .scan ∧
      t.scan =
        { state := .stepping, step := some first, current := some first, window := none, best := none, finds := 0,
          resume := none, lastEnding := none, stoppedBy := none, found := found, dwellStart := s.now } ∧
      t.tuner = { s.tuner with state := .tuning, synth := some first, failSince := none } ∧ Announced .scan t.scanBytes t ∧
      (s.tunerOf ≠ .scan → Announced .tune t.tuningBytes t) ∧ KeepsBut [.tuner, .scan, .tunerOf, .sending] s t
  let checks := [(s.inStandby, Status.notReady), (s.tunerOf.isTimer, .busyTimer), (s.scan.inFlight, .busy)]
  (∀ st, firstFailing checks = some st → exec .scanStartFresh s = .next (answered .scanStart { status := st } s)) ∧
  (firstFailing checks = none → begun 900 [] (exec .scanStartFresh s)) ∧
  (∀ st, firstFailing (checks ++ [(s.scan.resume == none, .noSuch)]) = some st →
    exec .scanStartResume s = .next (answered .scanStart { status := st } s)) ∧
  (∀ f, s.scan.resume = some f → firstFailing checks = none → begun f s.scan.found (exec .scanStartResume s)) ∧
  (s.scan.state = .idle → exec .scanStop s = .next (answered .scanStop { status := .noSuch } s)) ∧
  (s.scan.state ≠ .idle → ∃ t, exec .scanStop s = .next t ∧ Replied .scanStop { status := .ok } t ∧ t.tunerOf = .direct ∧
    t.scan = { s.scan with
      state := .idle, step := none, current := none, window := none, best := none, resume := s.scan.step,
      lastEnding := some .stopped, stoppedBy := some .scanStop } ∧
    TuningBegun s.tuner.selection s t ∧ t.tuner.presets = s.tuner.presets ∧ Announced .scan t.scanBytes t ∧
    KeepsBut [.tuner, .scan, .tunerOf, .sending] s t)

/-- R104, R113 to R117: the end of a dwell. In STEPPING a strength of 6 or more begins the peak search of the window, with no best reading before its
first (DESIGN CHOICE, log 48), and a lower one goes on to the next step, the last at 17,200, after which the scan ends COMPLETE. In PEAK_SEARCH
the first of the best readings is kept; at the window's end a best reading of 6 or more is entered against the entries less than 20 away, or
discarded, and the walk goes on past it, or ends COMPLETE where it would pass 17,200; a window whose best has faded is walked on from its step
frequency. The find that makes the ninety-ninth entry ends the scan FULL. An ended scan hands the claim and a tuning of the selection to the
direct activity. -/
def Obligations.ScanWalks : Prop := ∀ s : State, s.power.state ≠ .backup → NothingDue s → s.now ≤ s.scan.dwellStart + 60 * 12288 →
  let x := s.pins.strength.toNat
  let step := fun (f : Nat) (found : List (Nat × Nat)) (t : State) => t.scan.state = .stepping ∧ t.scan.step = some f ∧
    t.scan.current = some f ∧ t.tuner.synth = some f ∧ t.scan.window = none ∧ t.scan.found = found ∧ t.scan.dwellStart = t.now ∧
    KeepsBut [.time, .nav, .tuner, .scan, .sending] s t
  let ended := fun (e : ScanEnding) (found : List (Nat × Nat)) (t : State) => t.scan.state = .idle ∧ t.scan.lastEnding = some e ∧
    t.scan.resume = none ∧ t.scan.stoppedBy = none ∧ t.scan.step = none ∧ t.scan.current = none ∧ t.scan.window = none ∧
    t.scan.best = none ∧ t.scan.found = found ∧ t.tunerOf = .direct ∧
    TuningBegun s.tuner.selection s t ∧ t.tuner.presets = s.tuner.presets ∧ Announced .scan t.scanBytes t ∧
    KeepsBut [.time, .nav, .tuner, .scan, .tunerOf, .sending] s t
  (s.scan.state = .stepping → ∀ f, s.scan.step = some f →
    ∃ t, exec .scanDwellEnd s = .next t ∧ t.now = s.scan.dwellStart + 60 * 12288 ∧
      (6 ≤ x → t.scan.state = .peakSearch ∧ t.scan.step = some f ∧ t.scan.window = some (max (f - 20) 900, min (f + 20) 17200) ∧
        t.scan.current = some (max (f - 20) 900) ∧ t.tuner.synth = t.scan.current ∧ t.scan.best = none ∧
        t.scan.dwellStart = t.now ∧ t.scan.found = s.scan.found) ∧
      (x < 6 → f < 17200 → step (min (f + 5) 17200) s.scan.found t) ∧
      (x < 6 → 17200 ≤ f → ended .complete s.scan.found t)) ∧
  (s.scan.state = .peakSearch → ∀ f, s.scan.step = some f → ∀ c, s.scan.current = some c → ∀ w, s.scan.window = some w →
    let best := match s.scan.best with
      | none => (c, x)
      | some b => if b.2 < x then (c, x) else b
    let rivals := s.scan.found.filter fun e => !(decide (e.1 + 20 ≤ best.1) || decide (best.1 + 20 ≤ e.1))
    let others := s.scan.found.filter fun e => decide (e.1 + 20 ≤ best.1) || decide (best.1 + 20 ≤ e.1)
    let beaten := rivals.all fun e => decide (e.2 < best.2)
    let next := max (best.1 + 20) (f + 5)
    ∃ t, exec .peakDwellEnd s = .next t ∧ t.now = s.scan.dwellStart + 60 * 12288 ∧
      (c < w.2 → t.scan.state = .peakSearch ∧ t.scan.current = some (c + 1) ∧ t.tuner.synth = some (c + 1) ∧
        t.scan.best = some best ∧ t.scan.step = some f ∧ t.scan.window = some w ∧ t.scan.found = s.scan.found) ∧
      (w.2 ≤ c → best.2 < 6 → f < 17200 → step (min (f + 5) 17200) s.scan.found t) ∧
      (w.2 ≤ c → best.2 < 6 → 17200 ≤ f → ended .complete s.scan.found t) ∧
      (w.2 ≤ c → 6 ≤ best.2 → beaten = false →
        (next ≤ 17200 → step next s.scan.found t) ∧ (17200 < next → ended .complete s.scan.found t)) ∧
      (w.2 ≤ c → 6 ≤ best.2 → beaten → (s.scan.found.length ≤ 98 ∨ rivals ≠ []) →
        let full := rivals = [] ∧ s.scan.found.length = 98
        t.scan.found.Perm (best :: others) ∧
        (s.scan.found.Pairwise (fun a b => a.1 + 20 ≤ b.1) → t.scan.found.Pairwise (fun a b => a.1 + 20 ≤ b.1)) ∧
        t.scan.finds = min 255 (s.scan.finds + 1) ∧
        (full → ended .full t.scan.found t) ∧
        (¬ full → (next ≤ 17200 → step next t.scan.found t) ∧ (17200 < next → ended .complete t.scan.found t))))

/-- R102, R103, R120, R121: SCAN_ADOPT of both modes: refused in its order; the entries go, lowest first, to the writable presets from p upward,
each as a whole record; every other preset stands, and so does the found list. Where the preset selected is written, and with another frequency,
fine tune or AFT enabled, the tuner, unless it is IDLE, is tuned to it under a claim that is free or direct, and its copy made STALE under the
TIMER class; otherwise nothing of the tuner but the table changes. -/
def Obligations.ScanAdopts : Prop := ∀ s : State, PortReady s → s.tuner.presets.length = 99 → ∀ first : Byte,
  let p := first.toNat
  let checks := [(decide (p < 1) || decide (99 < p), Status.range), (s.scan.inFlight, .busy), (s.scan.found.isEmpty, .noSuch)]
  let adopted := fun (replace : Bool) (o : Host.Outcome State Fault Refusal) =>
    let writable := fun n => match s.preset n with
      | none => true
      | some q => replace && !q.lock && s.references n == 0
    let places := (List.range 100).filter fun n => decide (p ≤ n) && writable n
    let pairs := places.zip s.scan.found
    let written := pairs.map (·.1)
    (∀ st, firstFailing checks = some st → o = .next (answered .scanAdopt { status := st } s)) ∧
    (firstFailing checks = none → ∃ t, o = .next t ∧
      Replied .scanAdopt { status := .ok, fields := [byteOf pairs.length, byteOf (s.scan.found.length - pairs.length),
        byteOf (written.head?.getD 0), byteOf (written.getLast?.getD 0)] } t ∧
      (∀ k, k ≤ 99 → t.preset k = match pairs.find? (fun e => e.1 == k) with
        | some e => some { frequency := e.2.1, fineTune := 0, aft := true, skip := false, lock := false, label := [] }
        | none => s.preset k) ∧
      (let tuningWrite := s.tuner.state ≠ .idle ∧ ∃ e ∈ pairs, s.tuner.selection = .preset e.1 ∧
        (s.preset e.1).all (fun q => q.frequency != e.2.1 || q.fineTune != 0 || !q.aft)
      (tuningWrite → (s.tunerOf = .free ∨ s.tunerOf = .direct) → TuningBegun s.tuner.selection s t) ∧
      (tuningWrite → s.tunerOf.isTimer →
        t.tuner = { s.tuner with presets := t.tuner.presets, copy := .stale } ∧
          (s.tuner.copy = .current → Announced .tune t.tuningBytes t)) ∧
      (¬ tuningWrite ∨ s.tunerOf = .scan → t.tuner = { s.tuner with presets := t.tuner.presets })) ∧
      KeepsBut [.tuner, .sending] s t)
  adopted true (exec (.scanAdoptReplace first) s) ∧ adopted false (exec (.scanAdoptAppend first) s)

/-! ### Clock and calendar -/

/-- R124, R125, R209: the date and time to the second of a count of seconds, as the link carries it, reads back as that count, and a valid
one is that of its count; the day of week follows the day number from 1980-01-01, a Tuesday. -/
def Obligations.CalendarReadsBack : Prop :=
  (∀ t : Nat, t < 3155760000 → secondsOf (stampOf t) = some t) ∧
  (∀ (x : StampBytes) (t : Nat), secondsOf x = some t → t < 3155760000 ∧ stampOf t = x) ∧
  (∀ t : Nat, t + 86400 < 3155760000 → (weekday ((t + 86400) / 86400) = weekday (t / 86400) % 7 + 1)) ∧ weekday 0 = 2

/-- R127, R131 to R134, R154 to R156: CLOCK_SET: refused RANGE and BUSY_TIMER; otherwise the time, the second phase 0, SET, the CLOCK note, and
a jump at which a waiting program with no 60 s left finishes with cause CLOCK_SET, a repeat program with the first occurrence after it as the
next; one whose window has not begun is ARMED with its first occurrence from the new time; and one whose window runs is DEFERRED with cause
CLOCK_SET while the deck is not free. CLOCK_SOURCE sets the setting and hands the second
over to the source that R131 gives. -/
def Obligations.ClockServed : Prop := ∀ s : State, PortReady s → NothingDue s →
  (∀ x : StampBytes,
    (secondsOf x = none → exec (.clockSet x) s = .next (answered .clockSet { status := .range } s)) ∧
    (∀ time, secondsOf x = some time →
      (s.programActive → exec (.clockSet x) s = .next (answered .clockSet { status := .busyTimer } s)) ∧
      (s.programActive = false →
        (NoPrograms s → ∃ t, exec (.clockSet x) s = .next t ∧ Replied .clockSet { status := .ok } t ∧ t.now = s.now ∧
          t.clock = { s.clock with
            time := time, set := true, sinceBoundary := 0, cycleCount := s.clock.cycleCount.map fun _ => 0 } ∧
          Announced .clock t.clockBytes t ∧ KeepsBut [.time, .clock, .sending] s t) ∧
        (s.sched.active = none → s.sched.slots.length = 16 → ∀ n : Nat, n ≤ 16 → ∀ p, s.program n = some p → p.pattern = .once →
          (p.state = .armed ∨ p.state = .deferred) → p.carried = false → (p.next + p.duration) * 60 < time + 60 →
          ∃ t, exec (.clockSet x) s = .next t ∧ t.program n = some { p with
            state := .done, deferral := none, outcome := some (if 0 < p.run.recorded then .truncated else .missed),
            cause := some .clockSet }) ∧
        (s.sched.slots.length = 16 → ∀ n : Nat, n ≤ 16 → NoPrograms (s.withSlot n none) → ∀ p, s.program n = some p →
          (p.state = .armed ∨ p.state = .deferred) → p.carried = false → 1 ≤ p.duration → p.duration ≤ 600 →
          let becomes := fun (q : Program) => ∃ t, exec (.clockSet x) s = .next t ∧ t.program n = some q
          (p.pattern ≠ .once → (p.next + p.duration) * 60 < time + 60 →
            ∀ m, NextOccurrence p time ((p.next + p.duration) * 60) m → time + 120 < m * 60 →
            becomes { p.short .clockSet with state := .armed, run := .cleared, next := m }) ∧
          (p.pattern ≠ .once → time < p.next * 60 → ∀ m, NextOccurrence p time 0 m → time + 120 < m * 60 →
            becomes { p with state := .armed, deferral := none, next := m }) ∧
          (p.pattern = .once → time + 120 < p.next * 60 → becomes { p with state := .armed, deferral := none }) ∧
          (p.next * 60 ≤ time → time + 60 ≤ (p.next + p.duration) * 60 → s.mech.isProtect →
            becomes (if p.state = .armed then p.putOff .clockSet else p)))))) ∧
  (∀ b : Byte,
    (b ≠ 1 → b ≠ 2 → exec (.clockSource b) s = .next (answered .clockSource { status := .range } s)) ∧
    ((b = 1 ∧ s.clock.setting = .auto ∨ b = 2 ∧ s.clock.setting = .crystal) →
      exec (.clockSource b) s = .next (answered .clockSource { status := .ok } s)) ∧
    (b = 2 → s.clock.setting = .auto → s.clock.sinceBoundary < 12288000 →
      ∃ t, exec (.clockSource b) s = .next t ∧ Replied .clockSource { status := .ok } t ∧
        t.clock = { s.clock with
          setting := .crystal, source := .crystal,
          cycleCount := if s.clock.source = .mains then none else s.clock.cycleCount } ∧
        Announced .clock t.clockBytes t ∧ KeepsBut [.clock, .sending] s t) ∧
    (b = 1 → s.clock.setting = .crystal → s.clock.source = .crystal →
      ∃ t, exec (.clockSource b) s = .next t ∧ Replied .clockSource { status := .ok } t ∧
        (∀ n, s.clock.reading.cycles = some n → t.clock = { s.clock with
          setting := .auto, source := .mains,
          cycleCount := some (min (n - 1) (s.clock.sinceBoundary / 375 * n / 32768)) }) ∧
        (s.clock.reading.cycles = none → t.clock = { s.clock with setting := .auto }) ∧
        Announced .clock t.clockBytes t ∧ KeepsBut [.clock, .sending] s t))

/-- R124, R126, R128 to R131: a mains cycle counts in the window and, under MAINS, toward the second; a second boundary moves the time on by
one second, and wraps at the calendar's end; a window close gives the reading of R130 and the source of R131, with a CLOCK note for a
change. The whole second that SECOND_BOUNDARY lets pass is log 8's. -/
def Obligations.SecondsCounted : Prop := ∀ s : State, s.power.state ≠ .backup → NothingDue s → NoPrograms s →
  s.transport.resetInFlight = false → NotStopping s →
  let counted := fun (t : State) =>
    (s.clock.time + 1 < 3155760000 → t.clock.time = s.clock.time + 1 ∧ t.sched = s.sched) ∧
    (s.clock.time + 1 = 3155760000 → t.clock.time = 0 ∧ Announced .clock t.clockBytes t) ∧
    t.clock.set = s.clock.set ∧ t.clock.setting = s.clock.setting ∧ t.clock.source = s.clock.source ∧ t.clock.reading = s.clock.reading
  (∃ t, exec .mainsCycle s = .next t ∧ t.now = s.now ∧ t.power = { s.power with lastCycle := s.now } ∧
    t.clock.windowCount = s.clock.windowCount + 1 ∧
    (s.clock.source = .crystal → t.clock = { s.clock with windowCount := s.clock.windowCount + 1 }) ∧
    (s.clock.source = .mains → ∀ n, s.clock.reading.cycles = some n → ∀ k, s.clock.cycleCount = some k →
      (k + 1 < n → t.clock = { s.clock with windowCount := s.clock.windowCount + 1, cycleCount := some (k + 1) }) ∧
      (n ≤ k + 1 → t.clock.cycleCount = some 0 ∧ t.clock.sinceBoundary = 0 ∧ counted t)) ∧
    KeepsBut [.time, .clock, .sched, .power, .sending] s t) ∧
  (s.clock.source = .crystal → s.clock.sinceBoundary ≤ 12288000 →
    ∃ t, exec .secondBoundary s = .next t ∧ t.now = s.now + (12288000 - s.clock.sinceBoundary) ∧ t.clock.sinceBoundary = 0 ∧ counted t ∧
      KeepsBut [.time, .nav, .clock, .sched, .sending] s t) ∧
  (∀ w, s.clock.windowStart = some w → s.now ≤ w + 12288000 →
    let n := s.clock.windowCount
    let fifty := 47 ≤ n ∧ n ≤ 53
    let sixty := 57 ≤ n ∧ n ≤ 63
    let c : WindowClass := if fifty then .hz50 else if sixty then .hz60 else .out
    let reading : MainsReading :=
      if s.clock.reading = .hz50 then (if fifty then .hz50 else .out)
      else if s.clock.reading = .hz60 then (if sixty then .hz60 else .out)
      else if fifty ∧ s.clock.previous = some .hz50 then .hz50
      else if sixty ∧ s.clock.previous = some .hz60 then .hz60 else .out
    ∃ t, exec .detectionWindowClose s = .next t ∧ t.now = w + 12288000 ∧ t.clock.reading = reading ∧ t.clock.previous = some c ∧
      t.clock.windowCount = 0 ∧ t.clock.windowStart = some t.now ∧
      t.clock.source = (if s.clock.setting = .auto ∧ (reading = .hz50 ∨ reading = .hz60) then .mains else .crystal) ∧
      (t.clock.source = s.clock.source → t.clock.time = s.clock.time ∧ t.clock.cycleCount = s.clock.cycleCount) ∧
      (t.clock.reading ≠ s.clock.reading ∨ t.clock.source ≠ s.clock.source → Announced .clock t.clockBytes t) ∧
      KeepsBut [.time, .nav, .clock, .sched, .sending] s t)

/-! ### Programs -/

/-- R143 to R146, R151 to R153, R178, R200: PROG_WRITE, PROG_CLEAR and PROG_ABORT: their checks in order; a ONCE program whose start lies more than
120 s ahead is written whole, with its clamps, and stands ARMED; a slot is emptied. An abort finishes a waiting program, a repeat program
with the first occurrence after its window as the next; the active program of the deck is finished and given STOP under the TIMER claims,
which are released when STOP is reached, and at once where the transport stands in STOP or EMPTY. A mark-present byte above 1 is refused RANGE
with PROG_WRITE's first check (DESIGN CHOICE, log 50). -/
def Obligations.ProgramsServed : Prop := ∀ s : State, PortReady s → NothingDue s → s.sched.slots.length = 16 →
  (∀ (x : StampBytes) (duration : Word16) (slot preset speed pattern priority action present code : Byte), x.second = 0 →
    let n := slot.toNat
    let run := exec (.progWrite slot x.year x.month x.day x.hour x.minute duration preset speed pattern priority action present code) s
    let range := n < 1 ∨ 16 < n ∨ 99 < preset.toNat ∨ speed.toNat < 1 ∨ 4 < speed.toNat ∨ pattern.toNat < 1 ∨ 4 < pattern.toNat ∨
      action.toNat < 1 ∨ 4 < action.toNat ∨ 1 < present.toNat
    let busy := (s.program n).any fun p => p.state == .cueing || p.state == .recording || p.state == .deferred
    let minutes := max 1 (min 600 duration.toNat)
    (range → run = .next (answered .progWrite { status := .range } s)) ∧
    (¬ range →
      (s.clock.set = false → run = .next (answered .progWrite { status := .notReady } s)) ∧
      (s.clock.set → busy → run = .next (answered .progWrite { status := .busyTimer } s)) ∧
      (s.clock.set → busy = false → preset ≠ 0 → s.preset preset.toNat = none →
        run = .next (answered .progWrite { status := .noSuch } s)) ∧
      (s.clock.set → busy = false → (preset = 0 ∨ s.preset preset.toNat ≠ none) →
        (secondsOf x = none → run = .next (answered .progWrite { status := .range } s)) ∧
        (∀ start, secondsOf x = some start → pattern = 1 →
          ((start + minutes * 60 < s.clock.time + 60 ∨ 3155760000 ≤ start + minutes * 60) →
            run = .next (answered .progWrite { status := .range } s)) ∧
          (NoPrograms s → s.clock.time + 120 < start → start + minutes * 60 < 3155760000 →
            ∃ t, run = .next t ∧
              Replied .progWrite { status := if minutes ≠ duration.toNat ∨ 3 < priority.toNat then .clamped else .ok } t ∧
              (∃ p, t.program n = some p ∧ p.state = .armed ∧ p.start = start / 60 ∧ p.duration = minutes ∧ p.preset = preset.toNat ∧
                p.pattern = .once ∧ p.priority = min 3 priority.toNat ∧ p.mark = (if present = 1 then some code else none) ∧
                p.next = start / 60 ∧ p.deferral = none ∧ p.run = .cleared ∧ p.outcome = none ∧ p.cause = none) ∧
              (∀ k, k ≤ 16 → k ≠ n → t.program k = s.program k) ∧
              Announced (.prog n) (programBytes n (t.program n)) t ∧ KeepsBut [.sched, .sending] s t))))) ∧
  (∀ slot : Byte,
    let n := slot.toNat
    let checks := [(decide (n < 1) || decide (16 < n), Status.range), (s.program n == none, .noSuch)]
    (∀ st, firstFailing (checks ++ [((s.program n).any fun p => p.state == .cueing || p.state == .recording || p.state == .deferred,
        .busyTimer)]) = some st →
      exec (.progClear slot) s = .next (answered .progClear { status := st } s)) ∧
    (firstFailing checks = none → ((s.program n).all fun p => p.state == .armed || p.state == .done) →
      ∃ t, exec (.progClear slot) s = .next t ∧ Replied .progClear { status := .ok } t ∧
        t.sched = { s.sched with slots := s.sched.slots.set (n - 1) none } ∧ Announced (.prog n) (programBytes n none) t ∧
        KeepsBut [.sched, .sending] s t) ∧
    (∀ st, firstFailing (checks ++ [((s.program n).any fun p => p.state == .done, .noSuch)]) = some st →
      exec (.progAbort slot) s = .next (answered .progAbort { status := st } s)) ∧
    (firstFailing checks = none → ∀ p, s.program n = some p →
      let aborted := fun (after : State → Prop) =>
        ∃ t, exec (.progAbort slot) s = .next t ∧ Replied .progAbort { status := .ok } t ∧ after t
      (NoPrograms (s.withSlot n none) →
        let replaced := fun (q : Program) => aborted fun t =>
          t.sched = { s.sched with slots := s.sched.slots.set (n - 1) (some q) } ∧ KeepsBut [.sched, .sending] s t
        (p.state = .armed → p.pattern = .once → replaced { p.short .aborted with outcome := some .missed }) ∧
        (p.state = .armed → p.pattern ≠ .once → p.carried = false → p.duration ≤ 600 →
          ∀ m, NextOccurrence p s.clock.time ((p.next + p.duration) * 60) m → s.clock.time + 120 < m * 60 →
          replaced { p.short .aborted with state := .armed, outcome := some .missed, run := .cleared, next := m }) ∧
        (p.state = .deferred → p.pattern = .once → replaced (p.short .aborted))) ∧
      ((p.state = .cueing ∨ p.state = .recording) → p.pattern = .once → OnlyPrograms [n] s → ∀ a, s.sched.active = some a → a.slot = n →
        s.mech = .timer (.program n) → s.tunerOf = .timer (.program n) → s.transport.resetInFlight = false → NotStopping s →
        s.transport.change = none → s.transport.target = none →
        (s.transport.mode.threaded → aborted fun t => t.program n = some (p.short .aborted) ∧ t.sched.active = none ∧
          t.sched.abortStop = some n ∧ t.mech = s.mech ∧ t.tunerOf = s.tunerOf ∧ t.transport.mode = .unthreading ∧
          t.transport.target = some .stop ∧ t.transport.change = some (.mech .unthreading)) ∧
        ((s.transport.mode = .stop ∨ s.transport.mode = .empty) → aborted fun t => t.program n = some (p.short .aborted) ∧
          t.sched.active = none ∧ t.sched.abortStop = none ∧ t.mech = .free ∧ t.tunerOf = .free ∧ t.transport = s.transport)))) ∧
  (∀ k : Nat, s.sched.abortStop = some k → NoPrograms { s with sched := { s.sched with abortStop := none } } → NoNavigation s →
    s.mech = .timer (.program k) → s.tunerOf = .timer (.program k) → s.transport.resetInFlight = false → NotStopping s →
    s.transport.mode = .unthreading → s.transport.change = some (.mech .unthreading) → s.transport.target = some .stop →
    s.transport.unthreadEnd = .plain → s.transport.recovering = false →
    ∃ t, exec .unthreadingComplete s = .next t ∧ SettledIn .stop t ∧ t.mech = .free ∧ t.tunerOf = .free ∧ t.sched.abortStop = none)

/-- R161 to R164, R171, R172, R174, R175, R179: what a new minute does. It cues up the one program that waits within 120 s of its start: CUEING,
the claims at TIMER class, its preset tuned, REC_PAUSE given from STOP. A program cued up for the minute meets its start checks in their order:
it finishes, is DEFERRED, becomes RECORDING from REC_PAUSE, or goes on in STARTING; in LOADING they are held. A program that starts while
another has the deck is DEFERRED with cause OVERLAP, unless its priority is higher: then it displaces one cued up ahead, or, if its own checks
pass, takes over from the other, which is DEFERRED with cause PREEMPTED. A deferred program with no 60 s left finishes with the cause it holds;
of those left, the selection picks the first by priority, next start and slot, as a late start. -/
def Obligations.ProgramCuesUp : Prop := ∀ s : State, NothingDue s → Steady s → NoNavigation s → MinuteDue s →
  let now := s.clock.time + 1
  let minute := fun (after : State → Prop) => ∃ t, exec .secondBoundary s = .next t ∧ t.clock.time = now ∧ after t
  let free := SettledIn .stop s ∧ s.transport.recordTab ∧ s.transport.dew = false ∧ s.mech = .free ∧
    (s.tunerOf = .free ∨ s.tunerOf = .direct)
  let cued := fun (p : Program) => { p with state := .cueing, deferral := none }
  let open_ := s.transport.mode ≠ .empty ∧ s.transport.mode ≠ .ejecting ∧ s.transport.mode ≠ .loading
  (free → ∀ n : Nat, n ≤ 16 → NoPrograms (s.withSlot n none) → ∀ p, s.program n = some p → p.state = .armed → p.carried = false →
    now < p.next * 60 → p.next * 60 ≤ now + 120 → p.preset ≤ 99 → minute fun t =>
    t.program n = some (cued p) ∧
    (∃ a, t.sched.active = some a ∧ a.slot = n ∧ a.phase = .preparing ∧ a.late = false ∧ a.mechWait = false) ∧
    ClaimedFor n t ∧ t.tuner.selection = .preset p.preset ∧ t.transport.mode = .threading ∧ Pausing t ∧
    Announced (.prog n) (programBytes n (t.program n)) t) ∧
  (∀ n : Nat, n ≤ 16 → OnlyPrograms [n] s → ∀ a, s.sched.active = some a → a.slot = n → a.ahead → ∀ p, s.program n = some p →
    p.state = .cueing → p.carried = false → p.next * 60 = now → 1 ≤ p.duration → s.tunerOf = .timer (.program n) →
    let leaves := fun (q : Program) => minute fun t => t.program n = some q ∧ t.sched.active = none ∧ t.tunerOf = .free ∧
      t.mech = if s.mech.isTimer then .free else s.mech
    (s.transport.mode = .loading → minute fun t => t.program n = some p ∧ t.sched.active = some { a with pointCome := true }) ∧
    ((s.transport.mode = .empty ∨ s.transport.mode = .ejecting) → p.pattern = .once → leaves (p.short .noCassette)) ∧
    (open_ → s.transport.recordTab = false → p.pattern = .once → leaves (p.short .tabAbsent)) ∧
    (open_ → s.transport.recordTab → s.transport.dew → leaves (p.putOff .dew)) ∧
    (open_ → s.transport.recordTab → s.transport.dew = false → s.mech.isProtect → leaves (p.putOff .fault)) ∧
    (open_ → s.transport.recordTab → s.transport.dew = false → s.mech = .timer (.program n) →
      (SettledIn .recPause s → p.speedMode = .long → minute fun t => t.program n = some { p with state := .recording } ∧
        (∃ b, t.sched.active = some b ∧ b.slot = n ∧ b.phase = .running) ∧ ClaimedFor n t ∧ t.transport.target = some .record ∧
        t.transport.change = some (.servo .record) ∧ t.transport.recordOrder = .timer .long p.mark) ∧
      (s.transport.change ≠ none → minute fun t => t.program n = some p ∧ ClaimedFor n t ∧ t.transport = s.transport ∧
        t.sched.active = some { a with phase := .starting, pointCome := true }))) ∧
  (∀ n k : Nat, n ≤ 16 → k ≤ 16 → n ≠ k → OnlyPrograms [n, k] s → ∀ p, s.program n = some p → ∀ q, s.program k = some q →
    q.state = .armed → q.carried = false → q.next * 60 = now → 1 ≤ q.duration → q.priority ≤ 3 →
    (free → s.sched.active = none → p.state = .armed → p.carried = false → p.next * 60 = now → 1 ≤ p.duration → p.priority ≤ 3 →
      (q.priority < p.priority ∨ q.priority = p.priority ∧ n < k) → minute fun t =>
      t.program n = some (cued p) ∧ t.program k = some (q.putOff .overlap) ∧ ClaimedFor n t ∧ Pausing t ∧
      ∃ b, t.sched.active = some b ∧ b.slot = n ∧ b.phase = .starting ∧ b.late = false) ∧
    (∀ a, s.sched.active = some a → a.slot = n → (p.state = .cueing ∨ p.state = .recording) → now < (p.next + p.duration) * 60 →
      (a.ahead → p.next * 60 ≠ now) →
      let goesOn := fun (r : Program) => minute fun t => t.program k = some r ∧ t.program n = some (p.secondOn s) ∧
        t.sched.active = some a ∧ t.mech = s.mech ∧ t.tunerOf = s.tunerOf ∧ t.transport = s.transport
      (q.priority ≤ p.priority → goesOn (q.putOff .overlap)) ∧
      (p.priority < q.priority → open_ →
        (¬ a.ahead → s.transport.recordTab = false → q.pattern = .once → goesOn (q.short .tabAbsent)) ∧
        (¬ a.ahead → s.transport.recordTab → s.transport.dew → goesOn (q.putOff .dew)) ∧
        (s.transport.recordTab → s.transport.dew = false → ClaimedFor n s → q.preset ≤ 99 →
          (a.ahead → p.state = .cueing → Pausing s → minute fun t =>
            t.program n = some { p with state := .armed } ∧ t.program k = some (cued q) ∧ ClaimedFor k t ∧ Pausing t ∧
            ∃ b, t.sched.active = some b ∧ b.slot = k ∧ b.phase = .starting) ∧
          (a.phase = .starting → p.state = .cueing → Pausing s → minute fun t =>
            t.program n = some (p.putOff .preempted) ∧ t.program k = some (cued q) ∧ ClaimedFor k t ∧ Pausing t ∧
            t.tuner.selection = .preset q.preset ∧ ∃ b, t.sched.active = some b ∧ b.slot = k ∧ b.phase = .starting) ∧
          (a.phase = .running → p.state = .recording → SettledIn .record s → minute fun t =>
            t.program n = some ((p.secondOn s).putOff .preempted) ∧ t.program k = some { cued q with state := .recording } ∧
            ClaimedFor k t ∧ Pausing t ∧ t.tuner.selection = .preset q.preset ∧
            ∃ b, t.sched.active = some b ∧ b.slot = k ∧ b.phase = .changing ∧ b.reason = some .takeover ∧ b.latest = none))))) ∧
  (∀ n : Nat, n ≤ 16 → s.sched.active = none → ∀ p, s.program n = some p → p.state = .deferred → p.carried = false →
    (OnlyPrograms [n] s → (p.next + p.duration) * 60 < now + 60 → p.pattern = .once → ∀ c, p.deferral = some c → minute fun t =>
      t.program n = some (p.short c.outcomeCause) ∧ KeepsBut [.time, .nav, .clock, .sched, .sending] s t) ∧
    (∀ k : Nat, k ≤ 16 → OnlyPrograms [n, k] s → free → p.next * 60 ≤ now → now + 60 ≤ (p.next + p.duration) * 60 → p.priority ≤ 3 →
      p.preset ≤ 99 →
      (∀ q, s.program k = some q → q.state = .deferred ∧ q.carried = false ∧ q.priority ≤ 3 ∧ q.next * 60 ≤ now ∧
        now + 60 ≤ (q.next + q.duration) * 60 ∧ (q.priority < p.priority ∨
          q.priority = p.priority ∧ (p.next < q.next ∨ p.next = q.next ∧ n < k))) → minute fun t =>
      t.program n = some (cued p) ∧ t.program k = s.program k ∧ ClaimedFor n t ∧ Pausing t ∧
      ∃ b, t.sched.active = some b ∧ b.slot = n ∧ b.phase = .starting ∧ b.late ∧ b.latest = p.deferral))

/-- R162, R165 to R170, R173, R174, R176, R177: the life of the active program. REC_PAUSE reached in STARTING, or in CHANGING by a takeover or a
hand-over, gives RECORD with the mark code and the speed class of the program, which is RECORDING: FIT takes the smallest class that holds the
seconds needed, or 3 with a short tape, or 1 with the choice pending; in CHANGING by FIT it gives RECORD at the speed to enter with no mark. An
estimate computation evaluates FIT and may change the class upward. Each second in RECORD is counted. The end leader finishes a recording with
cause TAPE_END; dew and the other protections defer it, or one past its start point, and leave one cued up ahead to wait for the mechanism. The
minute at which its window ends finishes it, and the deck goes to a program that starts now or within 120 s, to a deferred one, or to the end
action. The release of a PROTECT claim gives the mechanism to a program that waits for it, or picks a deferred one. -/
def Obligations.ProgramRecords : Prop := ∀ s : State, NothingDue s → Steady s → NoNavigation s → NoWatches s →
  ∀ n : Nat, n ≤ 16 → ∀ p, s.program n = some p →
  let recPause := fun (after : State → Prop) => ∃ t, exec (.servoLock ⟨false, false⟩) s = .next t ∧ t.transport.mode = .recPause ∧
    t.transport.target = some .record ∧ t.transport.change = some (.servo .record) ∧ t.mech = s.mech ∧ after t
  let needed := (p.next + p.duration) * 60 - s.clock.time + 30
  let fits := fun (t : State) (v : Speed) => (t.remaining v).any fun r => decide (needed ≤ r)
  let cued := fun (p : Program) => { p with state := .cueing, deferral := none }
  (OnlyPrograms [n] s → ClaimedFor n s → ∀ a, s.sched.active = some a → a.slot = n →
    (s.transport.change = some (.servo .recPause) → s.transport.target = some .recPause → s.transport.recordTab →
      s.transport.dew = false → s.transport.lockLostAt = none →
      (a.phase = .starting ∧ p.state = .cueing ∨
          a.phase = .changing ∧ (a.reason = some .takeover ∨ a.reason = some .handOver) ∧ p.state = .recording →
        let begins := fun (v : Speed) (pending short : Bool) => recPause fun t => t.transport.recordOrder = .timer v p.mark ∧
          t.program n = some { p with state := .recording, run := { p.run with shortTape := short } } ∧
          (∃ b, t.sched.active = some b ∧ b.slot = n ∧ b.phase = .running ∧ b.choicePending = pending ∧ b.lastFit = none) ∧
          (p.state = .cueing → Announced (.prog n) (programBytes n (t.program n)) t)
        (p.speedMode = .standard → begins .standard false p.run.shortTape) ∧
        (p.speedMode = .long → begins .long false p.run.shortTape) ∧
        (p.speedMode = .extended → begins .extended false p.run.shortTape) ∧
        (p.speedMode = .fit → s.estimate = none → begins .standard true p.run.shortTape) ∧
        (p.speedMode = .fit → s.estimate ≠ none → (∀ v, fits s v = false) → begins .extended false true) ∧
        (p.speedMode = .fit → ∀ v, fits s v → (∀ u : Speed, u.sigma < v.sigma → fits s u = false) →
          begins v false p.run.shortTape)) ∧
      (a.phase = .changing → a.reason = some .fit → p.state = .recording → ∀ v, a.speedToEnter = some v → recPause fun t =>
        t.transport.recordOrder = .timer v none ∧ t.program n = some p ∧ ∃ b, t.sched.active = some b ∧ b.slot = n ∧ b.phase = .running)) ∧
    (a.phase = .running → p.state = .recording → p.speedMode = .fit → SettledIn .record s → s.transport.recordTab →
      s.transport.dew = false → ∀ v, s.transport.recordClass = some v → ∀ (reel : Reel) (i : Nat), EstimateDue s reel i →
      let changes := fun (a : Active) (u : Speed) (t : State) => Pausing t ∧ t.sched.active = some { a with
        phase := .changing, reason := some .fit, speedToEnter := some u, lastFit := some s.clock.time }
      let short := some { p with run := { p.run with shortTape := true } }
      let chosen := { a with choicePending := false }
      ∃ t, exec (.reelPulse reel i) s = .next t ∧
        (a.choicePending = false →
          (fits t v → t.sched = s.sched ∧ t.transport.target = none) ∧
          (fits t v = false → v = .extended → t.program n = short ∧ t.sched.active = some a ∧ t.transport.target = none) ∧
          (fits t v = false → v ≠ .extended →
            (a.lastFit.any (fun c => decide (s.clock.time < c + 60)) → t.sched = s.sched ∧ t.transport.target = none) ∧
            (a.lastFit.all (fun c => decide (c + 60 ≤ s.clock.time)) → t.program n = some p ∧
              ∀ u : Speed, u.sigma = v.sigma + 1 → changes a u t))) ∧
        (a.choicePending →
          (∀ u : Speed, v.sigma ≤ u.sigma → fits t u → (∀ x : Speed, v.sigma ≤ x.sigma → x.sigma < u.sigma → fits t x = false) →
            t.program n = some p ∧ (u = v → t.sched.active = some chosen ∧ t.transport.target = none) ∧ (u ≠ v → changes chosen u t)) ∧
          ((∀ u : Speed, v.sigma ≤ u.sigma → fits t u = false) → t.program n = short ∧
            (v = .extended → t.sched.active = some chosen ∧ t.transport.target = none) ∧ (v ≠ .extended → changes chosen .extended t)))) ∧
    (let leaves := fun (c : StopCause) (q : Program) (o : Host.Outcome State Fault Refusal) => ∃ t, o = .next t ∧
        ProtectionStopped c t.now t ∧ t.program n = some q ∧ t.sched.active = none ∧ t.tunerOf = .free
      let dew := exec (.dewSensorChange true) s
      (p.state = .recording → SettledIn .record s → p.pattern = .once →
        leaves .leaderEnd (p.short .tapeEnd) (exec (.leaderSeen .endLeader) s)) ∧
      (p.state = .recording ∨ a.phase = .starting ∨ a.late ∧ a.pointCome →
        (Threaded s → s.transport.dew = false → leaves .dew (p.putOff .dew) dew) ∧
        (SettledIn .record s → ∀ since, s.transport.lockLostAt = some since → s.now ≤ since + seconds 1 →
          leaves .servo (p.putOff .fault) (exec .servoTimeout s)) ∧
        (SettledIn .stop s → s.transport.dew = false → p.state = .cueing → ∃ t, dew = .next t ∧ t.program n = some (p.putOff .dew) ∧
          t.sched.active = none ∧ t.mech = .free ∧ t.tunerOf = .free)) ∧
      (a.ahead → p.state = .cueing → Threaded s → s.transport.dew = false → ∃ t, dew = .next t ∧ ProtectionStopped .dew t.now t ∧
        t.program n = some p ∧ t.sched.active = some { a with mechWait := true } ∧ t.tunerOf = s.tunerOf)) ∧
    (a.phase = .running → p.state = .recording → SettledIn .record s → s.clock.source = .crystal → s.clock.sinceBoundary ≤ 12288000 →
      s.clock.time + 1 < 3155760000 → (s.clock.time + 1) % 60 ≠ 0 → p.run.recorded < 36000 → p.run.signalLoss < 36000 →
      ∃ t, exec .secondBoundary s = .next t ∧ t.program n = some { p with run := { p.run with
        recorded := p.run.recorded + 1, signalLoss := p.run.signalLoss + (if s.tuner.state = .noSignal then 1 else 0) } } ∧
        t.sched.active = some a ∧ t.mech = s.mech ∧ t.transport.mode = .record)) ∧
  (ClaimedFor n s → ∀ a, s.sched.active = some a → a.slot = n → p.state = .recording → SettledIn .record s → MinuteDue s →
    (p.next + p.duration) * 60 = s.clock.time + 1 → p.pattern = .once →
    let now := s.clock.time + 1
    let ended := { p.secondOn s with
      state := .done, deferral := none, outcome := some (if p.run.deferrals = 0 then .complete else .truncated)
      cause := if p.run.deferrals = 0 then none else some ((a.latest.map (·.outcomeCause)).getD .clockSet) }
    let minute := fun (after : State → Prop) => ∃ t, exec .secondBoundary s = .next t ∧ t.program n = some ended ∧ after t
    (OnlyPrograms [n] s → minute fun t => t.sched.active = none ∧ t.sched.endAction = some (n, p.endAction) ∧
      t.mech = .timer (.endAction n) ∧ t.tunerOf = .timer (.endAction n) ∧
      (p.endAction = .rewind → t.transport.target = some .windRev ∧ t.transport.change = some (.servo .windRev)) ∧
      (p.endAction ≠ .rewind → t.transport.target = some (if p.endAction = .eject then .empty else .stop) ∧
        t.transport.mode = .unthreading ∧ t.transport.change = some (.mech .unthreading))) ∧
    (s.transport.recordTab → s.transport.dew = false → ∀ k : Nat, k ≤ 16 → k ≠ n → OnlyPrograms [n, k] s → ∀ q, s.program k = some q →
      q.carried = false → 1 ≤ q.duration → q.preset ≤ 99 →
      let handed := fun (after : Active → Prop) (r : Program) => minute fun t => t.program k = some r ∧ ClaimedFor k t ∧ Pausing t ∧
        t.sched.endAction = none ∧ t.tuner.selection = .preset q.preset ∧ ∃ b, t.sched.active = some b ∧ b.slot = k ∧ after b
      let handOver := fun (b : Active) => b.phase = .changing ∧ b.reason = some .handOver
      (q.state = .armed → q.next * 60 = now → handed handOver { cued q with state := .recording }) ∧
      (q.state = .armed → (q.next * 60 = now + 60 ∨ q.next * 60 = now + 120) → handed Active.ahead (cued q)) ∧
      (q.state = .deferred → q.next * 60 ≤ now → now + 60 ≤ (q.next + q.duration) * 60 →
        handed (fun b => handOver b ∧ b.late ∧ b.latest = q.deferral) { cued q with state := .recording }))) ∧
  (OnlyPrograms [n] s → (∃ c, s.mech = .protect c) → s.transport.mode = .unthreading → s.transport.change = some (.mech .unthreading) →
    s.transport.target = some .stop → s.transport.unthreadEnd = .plain → s.transport.rewindDue = false →
    s.transport.recovering = false → s.transport.recordTab → s.transport.dew = false → p.preset ≤ 99 →
    let taken := fun (after : Active → Prop) => ∃ t, exec .unthreadingComplete s = .next t ∧ t.program n = some (cued p) ∧ ClaimedFor n t ∧
      t.transport.mode = .threading ∧ Pausing t ∧ ∃ b, t.sched.active = some b ∧ after b
    (s.sched.active = none → (s.tunerOf = .free ∨ s.tunerOf = .direct) → p.state = .deferred → p.carried = false →
      p.next * 60 ≤ s.clock.time → s.clock.time + 60 ≤ (p.next + p.duration) * 60 →
      taken fun b => b.slot = n ∧ b.phase = .starting ∧ b.late ∧ b.latest = p.deferral) ∧
    (∀ a, s.sched.active = some a → a.slot = n → a.mechWait → p.state = .cueing → p.deferral = none →
      s.tunerOf = .timer (.program n) → taken fun b => b = { a with mechWait := false }))

/-! ### Power -/

/-- R190 to R193: POWER: STANDBY is refused BUSY_TIMER while a program is CUEING or RECORDING, answered OK in STANDBY and while STOPPING, abandons
a wake, and otherwise begins STOPPING, which ends at once where the transport stands in STOP; OPERATE wakes the part or abandons STOPPING. The
end of the 3 s of a wake makes the part OPERATING, and the selection is tuned. -/
def Obligations.PowerServed : Prop := ∀ s : State, PortReady s → NothingDue s →
  (s.programActive → exec .powerStandby s = .next (answered .power { status := .busyTimer } s)) ∧
  (s.programActive = false →
    ((s.power.state = .standby ∧ s.power.transition = .none ∨ s.power.state = .operating ∧ ∃ r, s.power.transition = .stopping r) →
      exec .powerStandby s = .next (answered .power { status := .ok } s)) ∧
    (s.power.state = .standby → ∀ r, s.power.transition = .waking r →
      ∃ t, exec .powerStandby s = .next t ∧ Replied .power { status := .ok } t ∧
        t.power = { s.power with transition := .none } ∧ Announced .power t.powerBytes t ∧ KeepsBut [.power, .sending] s t) ∧
    (Steady s → MechDirect s → s.scan.state = .idle →
      (SettledIn .stop s →
        ∃ t, exec .powerStandby s = .next t ∧ Replied .power { status := .accepted } t ∧
          t.power = { s.power with state := .standby, transition := .none, lastChange := .host } ∧ t.mech = .free ∧
          (s.tunerOf = .direct → t.tunerOf = .free) ∧
          t.tuner = { s.tuner with state := .idle, correction := 0, atLimit := false, settled := false, failSince := none } ∧
          Announced .tune t.tuningBytes t ∧ Announced .power t.powerBytes t ∧
          KeepsBut [.transport, .tuner, .tunerOf, .mech, .power, .sending] s t) ∧
      (s.transport.mode.threaded → s.transport.change = none → s.transport.target = none →
        ∃ t, exec .powerStandby s = .next t ∧ Replied .power { status := .accepted } t ∧
          t.power = { s.power with transition := .stopping .host } ∧ t.mech = .operator .direct ∧
          t.transport.mode = .unthreading ∧ t.transport.target = some .stop ∧ t.transport.change = some (.mech .unthreading) ∧
          Announced .power t.powerBytes t ∧
          KeepsBut [.transport, .counter, .estimate, .marks, .mech, .power, .sending] s t))) ∧
  ((s.power.state = .operating ∧ s.power.transition = .none ∨ s.power.state = .standby ∧ ∃ r, s.power.transition = .waking r) →
    exec .powerOperate s = .next (answered .power { status := .ok } s)) ∧
  (s.power.state = .operating → ∀ r, s.power.transition = .stopping r →
    ∃ t, exec .powerOperate s = .next t ∧ Replied .power { status := .ok } t ∧ t.power = { s.power with transition := .none } ∧
      Announced .power t.powerBytes t ∧ KeepsBut [.power, .sending] s t) ∧
  (s.power.state = .standby → s.power.transition = .none →
    ∃ t, exec .powerOperate s = .next t ∧ Replied .power { status := .accepted } t ∧
      t.power = { s.power with transition := .waking .host, wakeStart := s.now } ∧ Announced .power t.powerBytes t ∧
      KeepsBut [.power, .sending] s t) ∧
  (s.power.state = .standby → NoPrograms s → s.transport.resetInFlight = false → ∀ r, s.power.transition = .waking r →
    s.now ≤ s.power.wakeStart + 3 * 12288000 →
    ∃ t, exec .wakeComplete s = .next t ∧ t.now = s.power.wakeStart + 3 * 12288000 ∧
      t.power = { s.power with state := .operating, transition := .none, lastChange := r } ∧
      TuningBegun s.tuner.selection s t ∧ Announced .power t.powerBytes t ∧ KeepsBut [.time, .nav, .tuner, .power, .sending] s t)

/-- R27, R46, R62, R86, R108, R122, R135, R189, R194, R195, R208: a mains loss, by the gap or by the supply monitor: BACKUP, the claims free, what is
not in the backup domain lost, the clock on its crystal. In BACKUP a mains cycle starts the qualification, and so does a NORMAL report after LOW
while the gap since the last cycle is below 60 ms (DEDUCED, log 60); a LOW report or a gap ends it, and a failure of the backup supply loses the
domain. What the lost state stands at meanwhile is log 13's. -/
def Obligations.MainsFails : Prop := ∀ s : State,
  (s.power.state ≠ .backup → NoPrograms s →
    let lost := fun (at_ : Nat) (o : Host.Outcome State Fault Refusal) => ∃ t, o = .next t ∧ t.now = at_ ∧
      t.power = { s.power with
        state := .backup, transition := .none, mains := false, qualSince := none, lastChange := .mainsLoss, domainKept := true } ∧
      t.mech = .free ∧ t.tunerOf = .free ∧
      t.transport = { Transport.cold with
        keptThreaded := s.transport.mode.threaded || s.transport.mode == .threading || s.transport.mode == .unthreading,
        keptCassette := s.transport.cassettePresent } ∧
      t.tape = { TapePosition.cold with
        cls := s.tape.cls, origin := s.tape.origin, counter := s.tape.counter, quality := s.tape.quality } ∧
      t.marks = .cold ∧ t.nav = .cold ∧ t.scan = .cold ∧ t.link = .cold ∧
      t.tuner = { Tuner.cold with presets := s.tuner.presets, output := s.tuner.output } ∧
      (s.clock.time + 1 < 3155760000 → t.sched = s.sched) ∧
      t.settings = s.settings ∧ t.clock.set = s.clock.set ∧ t.clock.setting = s.clock.setting ∧ t.clock.source = .crystal ∧
      t.clock.reading = .absent ∧ t.clock.previous = none ∧ t.clock.windowStart = none ∧
      (s.clock.source = .crystal ∨ s.clock.sinceBoundary + (at_ - s.now) < 12288000 → t.clock.time = s.clock.time)
    let gap := s.power.lastCycle + (if s.clock.reading = .hz60 then 50 else 60) * 12288
    (s.now ≤ gap → lost gap (exec .mainsLoss s)) ∧ lost s.now (exec (.supplyMonitorChange .low) s)) ∧
  (s.power.state ≠ .backup → s.pins.supply = .low →
    ∃ t, exec (.supplyMonitorChange .normal) s = .next t ∧ t.pins = { s.pins with supply := .normal } ∧
      Announced .power t.powerBytes t ∧ KeepsBut [.pins, .sending] s t) ∧
  (s.power.state = .backup →
    (exec .mainsCycle s = .next { s with power := { s.power with
      lastCycle := s.now,
      qualSince := if s.pins.supply = .normal ∧ s.power.domainKept ∧ s.power.qualSince = none then some s.now
        else s.power.qualSince } }) ∧
    (exec (.supplyMonitorChange .low) s = .next { s with pins.supply := .low, power.qualSince := none }) ∧
    (exec (.supplyMonitorChange .normal) s = .next { s with
      pins.supply := .normal
      power.qualSince :=
        if s.pins.supply = .low ∧ s.now < s.power.lastCycle + 60 * 12288 ∧ s.power.domainKept ∧ s.power.qualSince = none then some s.now
        else s.power.qualSince }) ∧
    (s.power.qualSince ≠ none → s.now ≤ s.power.lastCycle + 60 * 12288 →
      ∃ t, exec .qualificationGap s = .next t ∧ t.now = s.power.lastCycle + 60 * 12288 ∧ t.power.qualSince = none ∧
        KeepsBut [.time, .nav, .power] s t) ∧
    (∃ t, exec .backupSupplyFail s = .next t ∧ t.power.domainKept = false ∧ t.power.state = .backup ∧
      t.sched.slots = List.replicate 16 none ∧ t.tuner.presets = List.replicate 99 none ∧ t.clock.set = false ∧
      t.settings = .cold ∧ t.tape = .cold ∧ t.pins = s.pins ∧ t.pending = s.pending))

/-- R26, R27, R108, R135, R136, R195, R196, R208: the end of the 2 s of qualification restores the part to STANDBY with the backup domain as kept,
and the mechanism is dealt with by what was kept and what its switches read; a cold start gives every unit its cold start values, and
STANDBY or BACKUP by the supply. The positions that R26 and R27 do not name are logs 9 and 10, and the direction in which the loading motor
turns in the UNTHREADING of a restore is log 38 (DEDUCED). -/
def Obligations.MainsReturns : Prop := ∀ s : State,
  (s.power.state = .backup → s.pins.supply = .normal → s.power.domainKept → NoPrograms s → s.mech = .free →
    ∀ q, s.power.qualSince = some q →
    s.now ≤ q + 2 * 12288000 → ∀ w : Switches,
    ∃ t, exec (.mainsRestore w) s = .next t ∧ t.now = q + 2 * 12288000 ∧
      t.power = { s.power with
        state := .standby, transition := .none, mains := true, qualSince := none, lastChange := .restore } ∧
      t.pins = { s.pins with position := w.position, cassetteIn := w.cassetteIn, recordTab := w.recordTab } ∧
      t.mech = .free ∧ t.tuner.presets = s.tuner.presets ∧ t.tuner.output = s.tuner.output ∧ t.tuner.state = s.tuner.state ∧
      t.settings = s.settings ∧ t.clock = { s.clock with
        windowStart := some t.now, windowCount := 0, sinceBoundary := t.clock.sinceBoundary } ∧
      t.link.receiver = .hunt ∧ t.link.flow ∧ t.link.period = 0 ∧ t.link.replies = [] ∧ t.link.input = [] ∧
      (s.transport.keptThreaded ∨ w.position = .threaded →
        t.transport.mode = .unthreading ∧ t.transport.change = some (.mech .unthreading) ∧ t.transport.cassettePresent ∧
          t.drum = .off ∧ t.capstan = .off ∧ t.loadingMotor = .outward ∧ t.takesInSlack) ∧
      (s.transport.keptThreaded = false → w.position = .loaded → t.transport.mode = .stop ∧ t.transport.change = none ∧
        t.transport.cassettePresent ∧ t.transport.recordTab = w.recordTab) ∧
      (s.transport.keptThreaded = false → w.position = .out → s.transport.keptCassette = false → w.cassetteIn = false →
        t.transport.mode = .empty ∧ t.transport.cassettePresent = false) ∧
      Announced .power t.powerBytes t) ∧
  (∀ (level : Supply) (w : Switches) (dew : Bool),
    ∃ t, exec (.coldStart level w dew) s = .next t ∧ t.now = s.now ∧ t.pending = s.pending ∧ t.sched = .cold ∧ t.tuner = .cold ∧
      t.scan = .cold ∧ t.nav = .cold ∧ t.marks = .cold ∧ t.settings = .cold ∧ t.mech = .free ∧ t.tunerOf = .free ∧
      t.clock.time = 0 ∧ t.clock.set = false ∧ t.clock.setting = .auto ∧ t.clock.source = .crystal ∧ t.clock.reading = .absent ∧
      t.tape.counter = 0 ∧ t.tape.cls = none ∧ t.power.lastChange = .coldStart ∧ t.power.transition = .none ∧
      (level = .low → t.power.state = .backup ∧ t.transport = .cold ∧ t.link = .cold) ∧
      (level = .normal → t.power.state = .standby ∧ t.clock.windowStart = some s.now ∧ t.transport.dew = dew ∧
        Announced .power t.powerBytes t ∧
        (w.position = .threaded → t.transport.mode = .unthreading ∧ t.transport.cassettePresent) ∧
        (w.position = .loaded → t.transport.mode = .loading ∧ t.transport.cassettePresent) ∧
        (w.position = .out → w.cassetteIn = false → t.transport.mode = .empty ∧ t.transport.cassettePresent = false)))

/-! ### Deck link -/

/-- R198 to R205: NOTE_FLOW and SYSTEM_SET with their checks and clamps; a frame with a bad check, with no request code, or with a wrong length is
answered with a link-error reply of kind 0x7F that echoes its first byte; a frame that finds a reply outstanding waits in the input queue,
and one that finds four entries there is answered OVERRUN; when a frame ends, the oldest reply is sent, or the first note. -/
def Obligations.LinkServed : Prop := ∀ s : State,
  (PortReady s →
    (∀ flow period : Byte,
      (1 < flow.toNat → exec (.noteFlow flow period) s = .next (answered .noteFlow { status := .range } s)) ∧
      (flow.toNat ≤ 1 → exec (.noteFlow flow period) s = .next (answered .noteFlow
        { status := if 60 < period.toNat then .clamped else .ok }
        { s with link.flow := flow == 1, link.period := min 60 period.toNat }))) ∧
    (∀ fr rewind present code : Byte,
      let bad := (fr ≠ 25 ∧ fr ≠ 30) ∨ 1 < rewind.toNat ∨ 1 < present.toNat
      let run := exec (.systemSet fr rewind present code) s
      (bad → run = .next (answered .systemSet { status := .range } s)) ∧
      (¬ bad → fr.toNat ≠ s.settings.frameRate → s.transport.mode ≠ .empty →
        run = .next (answered .systemSet { status := .notReady } s)) ∧
      (¬ bad → (fr.toNat = s.settings.frameRate ∨ s.transport.mode = .empty) →
        run = .next (answered .systemSet { status := .ok } { s with settings :=
          { frameRate := fr.toNat, autoRewind := rewind == 1, defaultMark := if present = 1 then some code else none } }))) ∧
    (∀ (b : Byte) (rest : List Byte), rest.length ≤ 59 →
      let error := fun (st : Byte) => chooseFrame
        { s with link.replies := s.link.replies ++ [{ origin := .dispatched, kind := 0x7F, payload := [st, b] }] }
      exec (.badCheck (b :: rest)) s = .next (error 0x43) ∧
      (RequestKind.ofByte b = none → exec (.badKind b rest) s = .next (error 0x40)) ∧
      (∀ k, RequestKind.ofByte b = some k → k.admitsLength rest.length = false →
        exec (.badLength b rest) s = .next (error 0x41)))) ∧
  (s.power.state ≠ .backup → ∀ c : Instr, ∀ r, requestOf c = some r → r.2.length ≤ 59 →
    (s.link.input.length < 4 → s.link.replyOutstanding →
      exec c s = .next (chooseFrame { s with link.input := s.link.input ++ [{ body := r.1.code :: r.2, good := true }] })) ∧
    (s.link.input.length = 4 → s.link.replies.countP (fun f => f.origin == .overrun) < 4 →
      exec c s = .next (chooseFrame
        { s with link.replies := s.link.replies ++ [{ origin := .overrun, kind := 0x7F, payload := [0x42, r.1.code] }] })) ∧
    (s.link.input.length = 4 → 4 ≤ s.link.replies.countP (fun f => f.origin == .overrun) → exec c s = .next (chooseFrame s))) ∧
  (s.power.state ≠ .backup → ∀ f, s.link.line = some f → (f.origin ≠ .dispatched ∨ s.link.input = []) →
    (∀ r, s.link.replies.head? = some r →
      exec .transmitEnd s = .next { s with link.line := some r, link.replies := s.link.replies.tail }) ∧
    (s.link.replies = [] → (s.link.flow = false ∨ s.link.outbox = []) → exec .transmitEnd s = .next { s with link.line := none }) ∧
    (s.link.replies = [] → s.link.flow → ∀ n, s.link.outbox.head? = some n →
      ∃ t, exec .transmitEnd s = .next t ∧ t.link.outbox = s.link.outbox.tail ∧
        t.link.line = some { origin := .note, kind := n.key.kind, payload := n.key.byte :: byteOf n.count ::
          (if n.key = .tape then s.tapeBytes else n.content) } ∧
        (n.key = .mark → t.marks.passCount = 0) ∧ (n.key ≠ .mark → t.marks.passCount = s.marks.passCount) ∧
        KeepsBut [.sending] s t))

/-- R197 to R200: the bytes of a request frame, received one after another with the line settled, do what the request does, and those of a
frame with another check byte what BAD_CHECK does; a gap above 20 ms and a missing stop bit abandon a frame, and HUNT waits for the lead
byte. RECEIVE_GAP_TIMEOUT comes one unit of time after the 20 ms, the first moment of a gap above them (DEDUCED, log 34). -/
def Obligations.BytesDeliverTheFrame : Prop := ∀ s : State, s.power.state ≠ .backup →
  (s.link.receiver = .hunt → chooseFrame s = s →
    (∀ c : Instr, ∀ r, requestOf c = some r → r.2.length ≤ 59 →
      receiveAll (frameBytes (r.1.code :: r.2) (goodCheck (r.1.code :: r.2))) s = exec c { s with link.lastByte := s.now }) ∧
    (∀ (body : List Byte) (check : Byte), 1 ≤ body.length → body.length ≤ 60 → check ≠ goodCheck body →
      receiveAll (frameBytes body check) s = exec (.badCheck body) { s with link.lastByte := s.now })) ∧
  (∀ b : Byte,
    (∃ t, exec (.byteReceived b false) s = .next t ∧ t.link.receiver = .hunt ∧ t.link.lastByte = s.link.lastByte ∧
      t.link.input = s.link.input ∧ KeepsBut [.reception, .sending] s t) ∧
    (s.link.receiver = .hunt → ∃ t, exec (.byteReceived b true) s = .next t ∧
      t.link.receiver = (if b = 0xC3 then .length else .hunt) ∧ t.link.input = s.link.input ∧
      KeepsBut [.reception, .sending] s t)) ∧
  (s.link.receiver ≠ .hunt → s.now ≤ s.link.lastByte + 20 * 12288 →
    ∃ t, exec .receiveGapTimeout s = .next t ∧ t.now = s.link.lastByte + 20 * 12288 + 1 ∧ t.link = { s.link with receiver := .hunt } ∧
      KeepsBut [.time, .nav, .reception] s t)

/-- R40, R60, R92, R101, R119, R134, R147, R149, R205, R207: the read requests are answered OK with the records as they stand and change nothing,
but for TUNER_READ, which clears the latch it reports; an index or a number outside its range is refused RANGE. An index equal to or above
the number of items gives a reply with no items. -/
def Obligations.ReadsServed : Prop := ∀ s : State, PortReady s →
  let ok := fun (k : RequestKind) (fields : List Byte) => answered k { status := .ok, fields := fields } s
  exec .ident s = .next (ok .ident [0x2E, 0x61, 0x12, 0x0C, 2]) ∧ exec .tapeRead s = .next (ok .tapeRead s.tapeBytes) ∧
  exec .clockRead s = .next (ok .clockRead s.clockBytes) ∧
  exec .tunerRead s = .next (answered .tunerRead { status := .ok, fields := s.tuningBytes ++ [byteOf s.pins.strength.toNat] }
    { s with tuner.latch := false }) ∧
  (∀ b : Byte,
    exec (.markList b) s = .next (if 15 < b.toNat then answered .markList { status := .range } s
      else ok .markList (byteOf s.marks.history.length :: b :: ((s.marks.history.drop b.toNat).take 10).flatMap (·.bytes))) ∧
    exec (.runRead b) s = .next (if b.toNat < 1 ∨ 12 < b.toNat then answered .runRead { status := .range } s
      else ok .runRead ([s.nav.run.state.byte, byteOf s.nav.run.state.segment, optionByte EndAction.byte s.nav.run.endAction,
        optionByte RunResult.byte s.nav.run.result, byteOf s.nav.run.segments.length, b] ++
        (if s.nav.run.segments.length ≤ b.toNat then []
          else (s.nav.run.segments.drop (b.toNat - 1)).take 8).flatMap (·.bytes))) ∧
    exec (.scanRead b) s = .next (if 98 < b.toNat then answered .scanRead { status := .range } s
      else ok .scanRead (s.scanBytes ++ b :: ((s.scan.found.drop b.toNat).take 12).flatMap
        fun e => [byteOf (e.1 / 256), byteOf e.1, byteOf e.2])) ∧
    exec (.presetRead b) s = .next (if 99 < b.toNat then answered .presetRead { status := .range } s
      else ok .presetRead (presetBytes b.toNat (s.preset b.toNat) (s.references b.toNat))) ∧
    exec (.progRead b) s = .next (if b.toNat < 1 ∨ 16 < b.toNat then answered .progRead { status := .range } s
      else ok .progRead (programBytes b.toNat (s.program b.toNat) ++ match s.program b.toNat with
        | some p => minuteBytes (p.next + p.duration) ++ wideBytes (if p.carried = false ∧ p.next * 60 ≤ s.clock.time ∧
            s.clock.time < (p.next + p.duration) * 60 then some ((p.next + p.duration) * 60 - s.clock.time) else none)
        | none => [0, 0, 0, 0, 0, 0xFF, 0xFF])) ∧
    ∀ part : Byte, exec (.progOrder part b) s =
      .next (if (part ≠ 1 ∧ part ≠ 2) ∨ 15 < b.toNat then answered .progOrder { status := .range } s
      else ok .progOrder ((s.activeProgram.elim [0, 0] fun ap => [byteOf ap.1.slot, ap.2.state.byte]) ++
        [byteOf s.pendingList.length, byteOf (s.slotsIn .deferred).length, part, b] ++
        (if part = 1 then ((s.pendingList.drop b.toNat).take 8).flatMap (pendingEntry s)
          else (((s.slotsIn .deferred).drop b.toNat).take 8).flatMap (deferredEntry s)))))

/-! ### What every step keeps -/

/-- R198, R199, R201, R203: every step keeps the bounds of the port's lists: at most four entries in the input queue, one dispatched reply in the
reply list or on the line, four OVERRUN replies, and one note under each key. -/
def Obligations.LinkSoundKept : Prop := ∀ s t : State, LinkSound s.link → step s = .next t → LinkSound t.link

/-- R29, R42, R59, R61, R74, R88, R99, R111, R124, R137, R205: every step of a sound machine leaves it sound: the counter within the range of the
larger frame system, the tables at their sizes, the history and the found list within theirs, the found list's entries 20 apart, the time in the
calendar. A step that leaves the frame system as it is also keeps the counter within that system's own range. -/
def Obligations.SoundKept : Prop := ∀ s t : State, Sound s → step s = .next t →
  Sound t ∧ (t.settings.frameRate = s.settings.frameRate → CounterInRange s → CounterInRange t)

/-- R26, R46, R62, R86, R108, R122, R136, R158, R190, R196, R205, R208: the machine after reset is sound, and stands in STANDBY, EMPTY, with its
tables empty, the claims free, the clock UNSET at the calendar's first second, and the POWER note on the line (the supply and the switches
are log 5's). -/
def Obligations.SoundAtReset : Prop := Sound State.reset ∧
  State.reset.power.state = .standby ∧ State.reset.power.lastChange = .coldStart ∧ State.reset.transport.mode = .empty ∧
  State.reset.transport.recordSpeed = .standard ∧ State.reset.mech = .free ∧ State.reset.tunerOf = .free ∧
  State.reset.tape.counter = 0 ∧ State.reset.tape.quality = .exact ∧ State.reset.tape.cls = none ∧
  State.reset.marks.history = [] ∧ NoWatches State.reset ∧ NoNavigation State.reset ∧ State.reset.tuner.selection = .preset 0 ∧
  State.reset.tuner.state = .idle ∧ (∀ n, State.reset.preset n = none) ∧ State.reset.tuner.output = .auto ∧
  State.reset.scan.state = .idle ∧ State.reset.scan.found = [] ∧ State.reset.clock.time = 0 ∧ State.reset.clock.set = false ∧
  State.reset.clock.setting = .auto ∧ State.reset.clock.source = .crystal ∧ (∀ n, State.reset.program n = none) ∧
  State.reset.settings = { frameRate := 25, autoRewind := false, defaultMark := some 0 } ∧ State.reset.link.receiver = .hunt ∧
  State.reset.link.input = [] ∧ State.reset.link.flow ∧ State.reset.link.period = 0 ∧ State.reset.pending = [] ∧
  ∃ f, State.reset.link.line = some f ∧ f.kind = 0x8A ∧ f.payload.drop 2 = State.reset.powerBytes
end

