-- ==== Sys2Proof/Laws/State.lean ====
section
/-! SUPPORT. One lemma for each component of the state and each named update of it: what the update leaves as it was. -/

namespace Sys2Proof.Machine

variable (s : State)

/-! ### Time -/

@[simp] theorem elapse_pins (d : Nat) : (elapse d s).pins = s.pins := rfl
@[simp] theorem elapse_transport (d : Nat) : (elapse d s).transport = s.transport := rfl
@[simp] theorem elapse_tape (d : Nat) : (elapse d s).tape = s.tape := rfl
@[simp] theorem elapse_marks (d : Nat) : (elapse d s).marks = s.marks := rfl
@[simp] theorem elapse_tuner (d : Nat) : (elapse d s).tuner = s.tuner := rfl
@[simp] theorem elapse_scan (d : Nat) : (elapse d s).scan = s.scan := rfl
@[simp] theorem elapse_sched (d : Nat) : (elapse d s).sched = s.sched := rfl
@[simp] theorem elapse_mech (d : Nat) : (elapse d s).mech = s.mech := rfl
@[simp] theorem elapse_tunerOf (d : Nat) : (elapse d s).tunerOf = s.tunerOf := rfl
@[simp] theorem elapse_power (d : Nat) : (elapse d s).power = s.power := rfl
@[simp] theorem elapse_link (d : Nat) : (elapse d s).link = s.link := rfl
@[simp] theorem elapse_settings (d : Nat) : (elapse d s).settings = s.settings := rfl
@[simp] theorem elapse_pending (d : Nat) : (elapse d s).pending = s.pending := rfl

@[simp] theorem elapse_now (d : Nat) : (elapse d s).now = s.now + d := rfl
@[simp] theorem elapse_watches (d : Nat) : (elapse d s).nav.watches = s.nav.watches := rfl
@[simp] theorem elapse_time (d : Nat) : (elapse d s).clock.time = s.clock.time := rfl

@[simp] theorem leapTo_pins (t : Nat) : (leapTo t s).pins = s.pins := rfl
@[simp] theorem leapTo_transport (t : Nat) : (leapTo t s).transport = s.transport := rfl
@[simp] theorem leapTo_tape (t : Nat) : (leapTo t s).tape = s.tape := rfl
@[simp] theorem leapTo_marks (t : Nat) : (leapTo t s).marks = s.marks := rfl
@[simp] theorem leapTo_tuner (t : Nat) : (leapTo t s).tuner = s.tuner := rfl
@[simp] theorem leapTo_scan (t : Nat) : (leapTo t s).scan = s.scan := rfl
@[simp] theorem leapTo_sched (t : Nat) : (leapTo t s).sched = s.sched := rfl
@[simp] theorem leapTo_mech (t : Nat) : (leapTo t s).mech = s.mech := rfl
@[simp] theorem leapTo_tunerOf (t : Nat) : (leapTo t s).tunerOf = s.tunerOf := rfl
@[simp] theorem leapTo_power (t : Nat) : (leapTo t s).power = s.power := rfl
@[simp] theorem leapTo_link (t : Nat) : (leapTo t s).link = s.link := rfl
@[simp] theorem leapTo_settings (t : Nat) : (leapTo t s).settings = s.settings := rfl
@[simp] theorem leapTo_pending (t : Nat) : (leapTo t s).pending = s.pending := rfl

@[simp] theorem leapTo_watches (t : Nat) : (leapTo t s).nav.watches = s.nav.watches := rfl
@[simp] theorem leapTo_time (t : Nat) : (leapTo t s).clock.time = s.clock.time := rfl
theorem leapTo_now (t : Nat) : (leapTo t s).now = max s.now t := by simp only [leapTo, elapse_now]; omega

/-! ### Notes -/

@[simp] theorem post_now (k : NoteKey) (b : List Byte) : (post k b s).now = s.now := by unfold post; split <;> rfl
@[simp] theorem post_pins (k : NoteKey) (b : List Byte) : (post k b s).pins = s.pins := by unfold post; split <;> rfl
@[simp] theorem post_transport (k : NoteKey) (b : List Byte) : (post k b s).transport = s.transport := by unfold post; split <;> rfl
@[simp] theorem post_tape (k : NoteKey) (b : List Byte) : (post k b s).tape = s.tape := by unfold post; split <;> rfl
@[simp] theorem post_marks (k : NoteKey) (b : List Byte) : (post k b s).marks = s.marks := by unfold post; split <;> rfl
@[simp] theorem post_nav (k : NoteKey) (b : List Byte) : (post k b s).nav = s.nav := by unfold post; split <;> rfl
@[simp] theorem post_tuner (k : NoteKey) (b : List Byte) : (post k b s).tuner = s.tuner := by unfold post; split <;> rfl
@[simp] theorem post_scan (k : NoteKey) (b : List Byte) : (post k b s).scan = s.scan := by unfold post; split <;> rfl
@[simp] theorem post_clock (k : NoteKey) (b : List Byte) : (post k b s).clock = s.clock := by unfold post; split <;> rfl
@[simp] theorem post_sched (k : NoteKey) (b : List Byte) : (post k b s).sched = s.sched := by unfold post; split <;> rfl
@[simp] theorem post_mech (k : NoteKey) (b : List Byte) : (post k b s).mech = s.mech := by unfold post; split <;> rfl
@[simp] theorem post_tunerOf (k : NoteKey) (b : List Byte) : (post k b s).tunerOf = s.tunerOf := by unfold post; split <;> rfl
@[simp] theorem post_power (k : NoteKey) (b : List Byte) : (post k b s).power = s.power := by unfold post; split <;> rfl
@[simp] theorem post_settings (k : NoteKey) (b : List Byte) : (post k b s).settings = s.settings := by unfold post; split <;> rfl
@[simp] theorem post_pending (k : NoteKey) (b : List Byte) : (post k b s).pending = s.pending := by unfold post; split <;> rfl

@[simp] theorem postMode_now : (postMode s).now = s.now := by simp [postMode]
@[simp] theorem postMode_pins : (postMode s).pins = s.pins := by simp [postMode]
@[simp] theorem postMode_transport : (postMode s).transport = s.transport := by simp [postMode]
@[simp] theorem postMode_tape : (postMode s).tape = s.tape := by simp [postMode]
@[simp] theorem postMode_marks : (postMode s).marks = s.marks := by simp [postMode]
@[simp] theorem postMode_nav : (postMode s).nav = s.nav := by simp [postMode]
@[simp] theorem postMode_tuner : (postMode s).tuner = s.tuner := by simp [postMode]
@[simp] theorem postMode_scan : (postMode s).scan = s.scan := by simp [postMode]
@[simp] theorem postMode_clock : (postMode s).clock = s.clock := by simp [postMode]
@[simp] theorem postMode_sched : (postMode s).sched = s.sched := by simp [postMode]
@[simp] theorem postMode_mech : (postMode s).mech = s.mech := by simp [postMode]
@[simp] theorem postMode_tunerOf : (postMode s).tunerOf = s.tunerOf := by simp [postMode]
@[simp] theorem postMode_power : (postMode s).power = s.power := by simp [postMode]
@[simp] theorem postMode_settings : (postMode s).settings = s.settings := by simp [postMode]
@[simp] theorem postMode_pending : (postMode s).pending = s.pending := by simp [postMode]

@[simp] theorem postMark_now (r : MarkRecord) : (postMark r s).now = s.now := by simp [postMark]
@[simp] theorem postMark_pins (r : MarkRecord) : (postMark r s).pins = s.pins := by simp [postMark]
@[simp] theorem postMark_transport (r : MarkRecord) : (postMark r s).transport = s.transport := by simp [postMark]
@[simp] theorem postMark_tape (r : MarkRecord) : (postMark r s).tape = s.tape := by simp [postMark]
@[simp] theorem postMark_marks (r : MarkRecord) : (postMark r s).marks = s.marks := by simp [postMark]
@[simp] theorem postMark_nav (r : MarkRecord) : (postMark r s).nav = s.nav := by simp [postMark]
@[simp] theorem postMark_tuner (r : MarkRecord) : (postMark r s).tuner = s.tuner := by simp [postMark]
@[simp] theorem postMark_scan (r : MarkRecord) : (postMark r s).scan = s.scan := by simp [postMark]
@[simp] theorem postMark_clock (r : MarkRecord) : (postMark r s).clock = s.clock := by simp [postMark]
@[simp] theorem postMark_sched (r : MarkRecord) : (postMark r s).sched = s.sched := by simp [postMark]
@[simp] theorem postMark_mech (r : MarkRecord) : (postMark r s).mech = s.mech := by simp [postMark]
@[simp] theorem postMark_tunerOf (r : MarkRecord) : (postMark r s).tunerOf = s.tunerOf := by simp [postMark]
@[simp] theorem postMark_power (r : MarkRecord) : (postMark r s).power = s.power := by simp [postMark]
@[simp] theorem postMark_settings (r : MarkRecord) : (postMark r s).settings = s.settings := by simp [postMark]
@[simp] theorem postMark_pending (r : MarkRecord) : (postMark r s).pending = s.pending := by simp [postMark]

@[simp] theorem postGoto_now : (postGoto s).now = s.now := by simp [postGoto]
@[simp] theorem postGoto_pins : (postGoto s).pins = s.pins := by simp [postGoto]
@[simp] theorem postGoto_transport : (postGoto s).transport = s.transport := by simp [postGoto]
@[simp] theorem postGoto_tape : (postGoto s).tape = s.tape := by simp [postGoto]
@[simp] theorem postGoto_marks : (postGoto s).marks = s.marks := by simp [postGoto]
@[simp] theorem postGoto_nav : (postGoto s).nav = s.nav := by simp [postGoto]
@[simp] theorem postGoto_tuner : (postGoto s).tuner = s.tuner := by simp [postGoto]
@[simp] theorem postGoto_scan : (postGoto s).scan = s.scan := by simp [postGoto]
@[simp] theorem postGoto_clock : (postGoto s).clock = s.clock := by simp [postGoto]
@[simp] theorem postGoto_sched : (postGoto s).sched = s.sched := by simp [postGoto]
@[simp] theorem postGoto_mech : (postGoto s).mech = s.mech := by simp [postGoto]
@[simp] theorem postGoto_tunerOf : (postGoto s).tunerOf = s.tunerOf := by simp [postGoto]
@[simp] theorem postGoto_power : (postGoto s).power = s.power := by simp [postGoto]
@[simp] theorem postGoto_settings : (postGoto s).settings = s.settings := by simp [postGoto]
@[simp] theorem postGoto_pending : (postGoto s).pending = s.pending := by simp [postGoto]

@[simp] theorem postRun_now : (postRun s).now = s.now := by simp [postRun]
@[simp] theorem postRun_pins : (postRun s).pins = s.pins := by simp [postRun]
@[simp] theorem postRun_transport : (postRun s).transport = s.transport := by simp [postRun]
@[simp] theorem postRun_tape : (postRun s).tape = s.tape := by simp [postRun]
@[simp] theorem postRun_marks : (postRun s).marks = s.marks := by simp [postRun]
@[simp] theorem postRun_nav : (postRun s).nav = s.nav := by simp [postRun]
@[simp] theorem postRun_tuner : (postRun s).tuner = s.tuner := by simp [postRun]
@[simp] theorem postRun_scan : (postRun s).scan = s.scan := by simp [postRun]
@[simp] theorem postRun_clock : (postRun s).clock = s.clock := by simp [postRun]
@[simp] theorem postRun_sched : (postRun s).sched = s.sched := by simp [postRun]
@[simp] theorem postRun_mech : (postRun s).mech = s.mech := by simp [postRun]
@[simp] theorem postRun_tunerOf : (postRun s).tunerOf = s.tunerOf := by simp [postRun]
@[simp] theorem postRun_power : (postRun s).power = s.power := by simp [postRun]
@[simp] theorem postRun_settings : (postRun s).settings = s.settings := by simp [postRun]
@[simp] theorem postRun_pending : (postRun s).pending = s.pending := by simp [postRun]

@[simp] theorem postTune_now : (postTune s).now = s.now := by simp [postTune]
@[simp] theorem postTune_pins : (postTune s).pins = s.pins := by simp [postTune]
@[simp] theorem postTune_transport : (postTune s).transport = s.transport := by simp [postTune]
@[simp] theorem postTune_tape : (postTune s).tape = s.tape := by simp [postTune]
@[simp] theorem postTune_marks : (postTune s).marks = s.marks := by simp [postTune]
@[simp] theorem postTune_nav : (postTune s).nav = s.nav := by simp [postTune]
@[simp] theorem postTune_tuner : (postTune s).tuner = s.tuner := by simp [postTune]
@[simp] theorem postTune_scan : (postTune s).scan = s.scan := by simp [postTune]
@[simp] theorem postTune_clock : (postTune s).clock = s.clock := by simp [postTune]
@[simp] theorem postTune_sched : (postTune s).sched = s.sched := by simp [postTune]
@[simp] theorem postTune_mech : (postTune s).mech = s.mech := by simp [postTune]
@[simp] theorem postTune_tunerOf : (postTune s).tunerOf = s.tunerOf := by simp [postTune]
@[simp] theorem postTune_power : (postTune s).power = s.power := by simp [postTune]
@[simp] theorem postTune_settings : (postTune s).settings = s.settings := by simp [postTune]
@[simp] theorem postTune_pending : (postTune s).pending = s.pending := by simp [postTune]

@[simp] theorem postScan_now : (postScan s).now = s.now := by simp [postScan]
@[simp] theorem postScan_pins : (postScan s).pins = s.pins := by simp [postScan]
@[simp] theorem postScan_transport : (postScan s).transport = s.transport := by simp [postScan]
@[simp] theorem postScan_tape : (postScan s).tape = s.tape := by simp [postScan]
@[simp] theorem postScan_marks : (postScan s).marks = s.marks := by simp [postScan]
@[simp] theorem postScan_nav : (postScan s).nav = s.nav := by simp [postScan]
@[simp] theorem postScan_tuner : (postScan s).tuner = s.tuner := by simp [postScan]
@[simp] theorem postScan_scan : (postScan s).scan = s.scan := by simp [postScan]
@[simp] theorem postScan_clock : (postScan s).clock = s.clock := by simp [postScan]
@[simp] theorem postScan_sched : (postScan s).sched = s.sched := by simp [postScan]
@[simp] theorem postScan_mech : (postScan s).mech = s.mech := by simp [postScan]
@[simp] theorem postScan_tunerOf : (postScan s).tunerOf = s.tunerOf := by simp [postScan]
@[simp] theorem postScan_power : (postScan s).power = s.power := by simp [postScan]
@[simp] theorem postScan_settings : (postScan s).settings = s.settings := by simp [postScan]
@[simp] theorem postScan_pending : (postScan s).pending = s.pending := by simp [postScan]

@[simp] theorem postClock_now : (postClock s).now = s.now := by simp [postClock]
@[simp] theorem postClock_pins : (postClock s).pins = s.pins := by simp [postClock]
@[simp] theorem postClock_transport : (postClock s).transport = s.transport := by simp [postClock]
@[simp] theorem postClock_tape : (postClock s).tape = s.tape := by simp [postClock]
@[simp] theorem postClock_marks : (postClock s).marks = s.marks := by simp [postClock]
@[simp] theorem postClock_nav : (postClock s).nav = s.nav := by simp [postClock]
@[simp] theorem postClock_tuner : (postClock s).tuner = s.tuner := by simp [postClock]
@[simp] theorem postClock_scan : (postClock s).scan = s.scan := by simp [postClock]
@[simp] theorem postClock_clock : (postClock s).clock = s.clock := by simp [postClock]
@[simp] theorem postClock_sched : (postClock s).sched = s.sched := by simp [postClock]
@[simp] theorem postClock_mech : (postClock s).mech = s.mech := by simp [postClock]
@[simp] theorem postClock_tunerOf : (postClock s).tunerOf = s.tunerOf := by simp [postClock]
@[simp] theorem postClock_power : (postClock s).power = s.power := by simp [postClock]
@[simp] theorem postClock_settings : (postClock s).settings = s.settings := by simp [postClock]
@[simp] theorem postClock_pending : (postClock s).pending = s.pending := by simp [postClock]

@[simp] theorem postPower_now : (postPower s).now = s.now := by simp [postPower]
@[simp] theorem postPower_pins : (postPower s).pins = s.pins := by simp [postPower]
@[simp] theorem postPower_transport : (postPower s).transport = s.transport := by simp [postPower]
@[simp] theorem postPower_tape : (postPower s).tape = s.tape := by simp [postPower]
@[simp] theorem postPower_marks : (postPower s).marks = s.marks := by simp [postPower]
@[simp] theorem postPower_nav : (postPower s).nav = s.nav := by simp [postPower]
@[simp] theorem postPower_tuner : (postPower s).tuner = s.tuner := by simp [postPower]
@[simp] theorem postPower_scan : (postPower s).scan = s.scan := by simp [postPower]
@[simp] theorem postPower_clock : (postPower s).clock = s.clock := by simp [postPower]
@[simp] theorem postPower_sched : (postPower s).sched = s.sched := by simp [postPower]
@[simp] theorem postPower_mech : (postPower s).mech = s.mech := by simp [postPower]
@[simp] theorem postPower_tunerOf : (postPower s).tunerOf = s.tunerOf := by simp [postPower]
@[simp] theorem postPower_power : (postPower s).power = s.power := by simp [postPower]
@[simp] theorem postPower_settings : (postPower s).settings = s.settings := by simp [postPower]
@[simp] theorem postPower_pending : (postPower s).pending = s.pending := by simp [postPower]

@[simp] theorem postProg_now (n : Nat) : (postProg n s).now = s.now := by simp [postProg]
@[simp] theorem postProg_pins (n : Nat) : (postProg n s).pins = s.pins := by simp [postProg]
@[simp] theorem postProg_transport (n : Nat) : (postProg n s).transport = s.transport := by simp [postProg]
@[simp] theorem postProg_tape (n : Nat) : (postProg n s).tape = s.tape := by simp [postProg]
@[simp] theorem postProg_marks (n : Nat) : (postProg n s).marks = s.marks := by simp [postProg]
@[simp] theorem postProg_nav (n : Nat) : (postProg n s).nav = s.nav := by simp [postProg]
@[simp] theorem postProg_tuner (n : Nat) : (postProg n s).tuner = s.tuner := by simp [postProg]
@[simp] theorem postProg_scan (n : Nat) : (postProg n s).scan = s.scan := by simp [postProg]
@[simp] theorem postProg_clock (n : Nat) : (postProg n s).clock = s.clock := by simp [postProg]
@[simp] theorem postProg_sched (n : Nat) : (postProg n s).sched = s.sched := by simp [postProg]
@[simp] theorem postProg_mech (n : Nat) : (postProg n s).mech = s.mech := by simp [postProg]
@[simp] theorem postProg_tunerOf (n : Nat) : (postProg n s).tunerOf = s.tunerOf := by simp [postProg]
@[simp] theorem postProg_power (n : Nat) : (postProg n s).power = s.power := by simp [postProg]
@[simp] theorem postProg_settings (n : Nat) : (postProg n s).settings = s.settings := by simp [postProg]
@[simp] theorem postProg_pending (n : Nat) : (postProg n s).pending = s.pending := by simp [postProg]

@[simp] theorem postTape_now : (postTape s).now = s.now := by simp [postTape]
@[simp] theorem postTape_pins : (postTape s).pins = s.pins := by simp [postTape]
@[simp] theorem postTape_transport : (postTape s).transport = s.transport := by simp [postTape]
@[simp] theorem postTape_marks : (postTape s).marks = s.marks := by simp [postTape]
@[simp] theorem postTape_nav : (postTape s).nav = s.nav := by simp [postTape]
@[simp] theorem postTape_tuner : (postTape s).tuner = s.tuner := by simp [postTape]
@[simp] theorem postTape_scan : (postTape s).scan = s.scan := by simp [postTape]
@[simp] theorem postTape_clock : (postTape s).clock = s.clock := by simp [postTape]
@[simp] theorem postTape_sched : (postTape s).sched = s.sched := by simp [postTape]
@[simp] theorem postTape_mech : (postTape s).mech = s.mech := by simp [postTape]
@[simp] theorem postTape_tunerOf : (postTape s).tunerOf = s.tunerOf := by simp [postTape]
@[simp] theorem postTape_power : (postTape s).power = s.power := by simp [postTape]
@[simp] theorem postTape_settings : (postTape s).settings = s.settings := by simp [postTape]
@[simp] theorem postTape_pending : (postTape s).pending = s.pending := by simp [postTape]

@[simp] theorem postTape_tape : (postTape s).tape = { s.tape with lastReport := s.now, reportPeriod := s.link.period } := by
  simp [postTape]

/-! ### Tables and claims -/

@[simp] theorem setMech_now (c : MechClaim) : (setMech c s).now = s.now := rfl
@[simp] theorem setMech_pins (c : MechClaim) : (setMech c s).pins = s.pins := rfl
@[simp] theorem setMech_transport (c : MechClaim) : (setMech c s).transport = s.transport := rfl
@[simp] theorem setMech_tape (c : MechClaim) : (setMech c s).tape = s.tape := rfl
@[simp] theorem setMech_marks (c : MechClaim) : (setMech c s).marks = s.marks := rfl
@[simp] theorem setMech_nav (c : MechClaim) : (setMech c s).nav = s.nav := rfl
@[simp] theorem setMech_tuner (c : MechClaim) : (setMech c s).tuner = s.tuner := rfl
@[simp] theorem setMech_scan (c : MechClaim) : (setMech c s).scan = s.scan := rfl
@[simp] theorem setMech_clock (c : MechClaim) : (setMech c s).clock = s.clock := rfl
@[simp] theorem setMech_sched (c : MechClaim) : (setMech c s).sched = s.sched := rfl
@[simp] theorem setMech_tunerOf (c : MechClaim) : (setMech c s).tunerOf = s.tunerOf := rfl
@[simp] theorem setMech_power (c : MechClaim) : (setMech c s).power = s.power := rfl
@[simp] theorem setMech_link (c : MechClaim) : (setMech c s).link = s.link := rfl
@[simp] theorem setMech_settings (c : MechClaim) : (setMech c s).settings = s.settings := rfl
@[simp] theorem setMech_pending (c : MechClaim) : (setMech c s).pending = s.pending := rfl

@[simp] theorem setMech_mech (c : MechClaim) : (setMech c s).mech = c := rfl

@[simp] theorem setTunerClaim_now (c : TunerClaim) : (setTunerClaim c s).now = s.now := by unfold setTunerClaim; split <;> simp
@[simp] theorem setTunerClaim_pins (c : TunerClaim) : (setTunerClaim c s).pins = s.pins := by unfold setTunerClaim; split <;> simp
@[simp] theorem setTunerClaim_transport (c : TunerClaim) : (setTunerClaim c s).transport = s.transport := by unfold setTunerClaim; split <;> simp
@[simp] theorem setTunerClaim_tape (c : TunerClaim) : (setTunerClaim c s).tape = s.tape := by unfold setTunerClaim; split <;> simp
@[simp] theorem setTunerClaim_marks (c : TunerClaim) : (setTunerClaim c s).marks = s.marks := by unfold setTunerClaim; split <;> simp
@[simp] theorem setTunerClaim_nav (c : TunerClaim) : (setTunerClaim c s).nav = s.nav := by unfold setTunerClaim; split <;> simp
@[simp] theorem setTunerClaim_tuner (c : TunerClaim) : (setTunerClaim c s).tuner = s.tuner := by unfold setTunerClaim; split <;> simp
@[simp] theorem setTunerClaim_scan (c : TunerClaim) : (setTunerClaim c s).scan = s.scan := by unfold setTunerClaim; split <;> simp
@[simp] theorem setTunerClaim_clock (c : TunerClaim) : (setTunerClaim c s).clock = s.clock := by unfold setTunerClaim; split <;> simp
@[simp] theorem setTunerClaim_sched (c : TunerClaim) : (setTunerClaim c s).sched = s.sched := by unfold setTunerClaim; split <;> simp
@[simp] theorem setTunerClaim_mech (c : TunerClaim) : (setTunerClaim c s).mech = s.mech := by unfold setTunerClaim; split <;> simp
@[simp] theorem setTunerClaim_power (c : TunerClaim) : (setTunerClaim c s).power = s.power := by unfold setTunerClaim; split <;> simp
@[simp] theorem setTunerClaim_settings (c : TunerClaim) : (setTunerClaim c s).settings = s.settings := by unfold setTunerClaim; split <;> simp
@[simp] theorem setTunerClaim_pending (c : TunerClaim) : (setTunerClaim c s).pending = s.pending := by unfold setTunerClaim; split <;> simp

@[simp] theorem setTunerClaim_tunerOf (c : TunerClaim) : (setTunerClaim c s).tunerOf = c := by
  unfold setTunerClaim; split <;> simp_all

@[simp] theorem withPreset_now (n : Nat) (p : Option Preset) : (s.withPreset n p).now = s.now := rfl
@[simp] theorem withPreset_pins (n : Nat) (p : Option Preset) : (s.withPreset n p).pins = s.pins := rfl
@[simp] theorem withPreset_transport (n : Nat) (p : Option Preset) : (s.withPreset n p).transport = s.transport := rfl
@[simp] theorem withPreset_tape (n : Nat) (p : Option Preset) : (s.withPreset n p).tape = s.tape := rfl
@[simp] theorem withPreset_marks (n : Nat) (p : Option Preset) : (s.withPreset n p).marks = s.marks := rfl
@[simp] theorem withPreset_nav (n : Nat) (p : Option Preset) : (s.withPreset n p).nav = s.nav := rfl
@[simp] theorem withPreset_scan (n : Nat) (p : Option Preset) : (s.withPreset n p).scan = s.scan := rfl
@[simp] theorem withPreset_clock (n : Nat) (p : Option Preset) : (s.withPreset n p).clock = s.clock := rfl
@[simp] theorem withPreset_sched (n : Nat) (p : Option Preset) : (s.withPreset n p).sched = s.sched := rfl
@[simp] theorem withPreset_mech (n : Nat) (p : Option Preset) : (s.withPreset n p).mech = s.mech := rfl
@[simp] theorem withPreset_tunerOf (n : Nat) (p : Option Preset) : (s.withPreset n p).tunerOf = s.tunerOf := rfl
@[simp] theorem withPreset_power (n : Nat) (p : Option Preset) : (s.withPreset n p).power = s.power := rfl
@[simp] theorem withPreset_link (n : Nat) (p : Option Preset) : (s.withPreset n p).link = s.link := rfl
@[simp] theorem withPreset_settings (n : Nat) (p : Option Preset) : (s.withPreset n p).settings = s.settings := rfl
@[simp] theorem withPreset_pending (n : Nat) (p : Option Preset) : (s.withPreset n p).pending = s.pending := rfl

@[simp] theorem withWatch_now (n : Nat) (w : Option Watch) : (s.withWatch n w).now = s.now := rfl
@[simp] theorem withWatch_pins (n : Nat) (w : Option Watch) : (s.withWatch n w).pins = s.pins := rfl
@[simp] theorem withWatch_transport (n : Nat) (w : Option Watch) : (s.withWatch n w).transport = s.transport := rfl
@[simp] theorem withWatch_tape (n : Nat) (w : Option Watch) : (s.withWatch n w).tape = s.tape := rfl
@[simp] theorem withWatch_marks (n : Nat) (w : Option Watch) : (s.withWatch n w).marks = s.marks := rfl
@[simp] theorem withWatch_tuner (n : Nat) (w : Option Watch) : (s.withWatch n w).tuner = s.tuner := rfl
@[simp] theorem withWatch_scan (n : Nat) (w : Option Watch) : (s.withWatch n w).scan = s.scan := rfl
@[simp] theorem withWatch_clock (n : Nat) (w : Option Watch) : (s.withWatch n w).clock = s.clock := rfl
@[simp] theorem withWatch_sched (n : Nat) (w : Option Watch) : (s.withWatch n w).sched = s.sched := rfl
@[simp] theorem withWatch_mech (n : Nat) (w : Option Watch) : (s.withWatch n w).mech = s.mech := rfl
@[simp] theorem withWatch_tunerOf (n : Nat) (w : Option Watch) : (s.withWatch n w).tunerOf = s.tunerOf := rfl
@[simp] theorem withWatch_power (n : Nat) (w : Option Watch) : (s.withWatch n w).power = s.power := rfl
@[simp] theorem withWatch_link (n : Nat) (w : Option Watch) : (s.withWatch n w).link = s.link := rfl
@[simp] theorem withWatch_settings (n : Nat) (w : Option Watch) : (s.withWatch n w).settings = s.settings := rfl
@[simp] theorem withWatch_pending (n : Nat) (w : Option Watch) : (s.withWatch n w).pending = s.pending := rfl

@[simp] theorem withSlot_now (n : Nat) (p : Option Program) : (s.withSlot n p).now = s.now := rfl
@[simp] theorem withSlot_pins (n : Nat) (p : Option Program) : (s.withSlot n p).pins = s.pins := rfl
@[simp] theorem withSlot_transport (n : Nat) (p : Option Program) : (s.withSlot n p).transport = s.transport := rfl
@[simp] theorem withSlot_tape (n : Nat) (p : Option Program) : (s.withSlot n p).tape = s.tape := rfl
@[simp] theorem withSlot_marks (n : Nat) (p : Option Program) : (s.withSlot n p).marks = s.marks := rfl
@[simp] theorem withSlot_nav (n : Nat) (p : Option Program) : (s.withSlot n p).nav = s.nav := rfl
@[simp] theorem withSlot_tuner (n : Nat) (p : Option Program) : (s.withSlot n p).tuner = s.tuner := rfl
@[simp] theorem withSlot_scan (n : Nat) (p : Option Program) : (s.withSlot n p).scan = s.scan := rfl
@[simp] theorem withSlot_clock (n : Nat) (p : Option Program) : (s.withSlot n p).clock = s.clock := rfl
@[simp] theorem withSlot_mech (n : Nat) (p : Option Program) : (s.withSlot n p).mech = s.mech := rfl
@[simp] theorem withSlot_tunerOf (n : Nat) (p : Option Program) : (s.withSlot n p).tunerOf = s.tunerOf := rfl
@[simp] theorem withSlot_power (n : Nat) (p : Option Program) : (s.withSlot n p).power = s.power := rfl
@[simp] theorem withSlot_link (n : Nat) (p : Option Program) : (s.withSlot n p).link = s.link := rfl
@[simp] theorem withSlot_settings (n : Nat) (p : Option Program) : (s.withSlot n p).settings = s.settings := rfl
@[simp] theorem withSlot_pending (n : Nat) (p : Option Program) : (s.withSlot n p).pending = s.pending := rfl

@[simp] theorem putProgram_now (n : Nat) (p : Program) : (putProgram n p s).now = s.now := by simp only [putProgram]; split <;> simp
@[simp] theorem putProgram_pins (n : Nat) (p : Program) : (putProgram n p s).pins = s.pins := by simp only [putProgram]; split <;> simp
@[simp] theorem putProgram_transport (n : Nat) (p : Program) : (putProgram n p s).transport = s.transport := by simp only [putProgram]; split <;> simp
@[simp] theorem putProgram_tape (n : Nat) (p : Program) : (putProgram n p s).tape = s.tape := by simp only [putProgram]; split <;> simp
@[simp] theorem putProgram_marks (n : Nat) (p : Program) : (putProgram n p s).marks = s.marks := by simp only [putProgram]; split <;> simp
@[simp] theorem putProgram_nav (n : Nat) (p : Program) : (putProgram n p s).nav = s.nav := by simp only [putProgram]; split <;> simp
@[simp] theorem putProgram_tuner (n : Nat) (p : Program) : (putProgram n p s).tuner = s.tuner := by simp only [putProgram]; split <;> simp
@[simp] theorem putProgram_scan (n : Nat) (p : Program) : (putProgram n p s).scan = s.scan := by simp only [putProgram]; split <;> simp
@[simp] theorem putProgram_clock (n : Nat) (p : Program) : (putProgram n p s).clock = s.clock := by simp only [putProgram]; split <;> simp
@[simp] theorem putProgram_mech (n : Nat) (p : Program) : (putProgram n p s).mech = s.mech := by simp only [putProgram]; split <;> simp
@[simp] theorem putProgram_tunerOf (n : Nat) (p : Program) : (putProgram n p s).tunerOf = s.tunerOf := by simp only [putProgram]; split <;> simp
@[simp] theorem putProgram_power (n : Nat) (p : Program) : (putProgram n p s).power = s.power := by simp only [putProgram]; split <;> simp
@[simp] theorem putProgram_settings (n : Nat) (p : Program) : (putProgram n p s).settings = s.settings := by simp only [putProgram]; split <;> simp
@[simp] theorem putProgram_pending (n : Nat) (p : Program) : (putProgram n p s).pending = s.pending := by simp only [putProgram]; split <;> simp

@[simp] theorem putProgram_sched (n : Nat) (p : Program) : (putProgram n p s).sched = (s.withSlot n (some p)).sched := by
  simp only [putProgram]; split <;> simp

@[simp] theorem withReel_now (r : Reel) (m : ReelMeter) : (s.withReel r m).now = s.now := by cases r <;> rfl
@[simp] theorem withReel_pins (r : Reel) (m : ReelMeter) : (s.withReel r m).pins = s.pins := by cases r <;> rfl
@[simp] theorem withReel_transport (r : Reel) (m : ReelMeter) : (s.withReel r m).transport = s.transport := by cases r <;> rfl
@[simp] theorem withReel_marks (r : Reel) (m : ReelMeter) : (s.withReel r m).marks = s.marks := by cases r <;> rfl
@[simp] theorem withReel_nav (r : Reel) (m : ReelMeter) : (s.withReel r m).nav = s.nav := by cases r <;> rfl
@[simp] theorem withReel_tuner (r : Reel) (m : ReelMeter) : (s.withReel r m).tuner = s.tuner := by cases r <;> rfl
@[simp] theorem withReel_scan (r : Reel) (m : ReelMeter) : (s.withReel r m).scan = s.scan := by cases r <;> rfl
@[simp] theorem withReel_clock (r : Reel) (m : ReelMeter) : (s.withReel r m).clock = s.clock := by cases r <;> rfl
@[simp] theorem withReel_sched (r : Reel) (m : ReelMeter) : (s.withReel r m).sched = s.sched := by cases r <;> rfl
@[simp] theorem withReel_mech (r : Reel) (m : ReelMeter) : (s.withReel r m).mech = s.mech := by cases r <;> rfl
@[simp] theorem withReel_tunerOf (r : Reel) (m : ReelMeter) : (s.withReel r m).tunerOf = s.tunerOf := by cases r <;> rfl
@[simp] theorem withReel_power (r : Reel) (m : ReelMeter) : (s.withReel r m).power = s.power := by cases r <;> rfl
@[simp] theorem withReel_link (r : Reel) (m : ReelMeter) : (s.withReel r m).link = s.link := by cases r <;> rfl
@[simp] theorem withReel_settings (r : Reel) (m : ReelMeter) : (s.withReel r m).settings = s.settings := by cases r <;> rfl
@[simp] theorem withReel_pending (r : Reel) (m : ReelMeter) : (s.withReel r m).pending = s.pending := by cases r <;> rfl

@[simp] theorem reel_withReel (r : Reel) (m : ReelMeter) : (s.withReel r m).reel r = m := by cases r <;> rfl

/-! ### Link -/

@[simp] theorem putReply_now (f : Frame) : (putReply f s).now = s.now := rfl
@[simp] theorem putReply_pins (f : Frame) : (putReply f s).pins = s.pins := rfl
@[simp] theorem putReply_transport (f : Frame) : (putReply f s).transport = s.transport := rfl
@[simp] theorem putReply_tape (f : Frame) : (putReply f s).tape = s.tape := rfl
@[simp] theorem putReply_marks (f : Frame) : (putReply f s).marks = s.marks := rfl
@[simp] theorem putReply_nav (f : Frame) : (putReply f s).nav = s.nav := rfl
@[simp] theorem putReply_tuner (f : Frame) : (putReply f s).tuner = s.tuner := rfl
@[simp] theorem putReply_scan (f : Frame) : (putReply f s).scan = s.scan := rfl
@[simp] theorem putReply_clock (f : Frame) : (putReply f s).clock = s.clock := rfl
@[simp] theorem putReply_sched (f : Frame) : (putReply f s).sched = s.sched := rfl
@[simp] theorem putReply_mech (f : Frame) : (putReply f s).mech = s.mech := rfl
@[simp] theorem putReply_tunerOf (f : Frame) : (putReply f s).tunerOf = s.tunerOf := rfl
@[simp] theorem putReply_power (f : Frame) : (putReply f s).power = s.power := rfl
@[simp] theorem putReply_settings (f : Frame) : (putReply f s).settings = s.settings := rfl
@[simp] theorem putReply_pending (f : Frame) : (putReply f s).pending = s.pending := rfl

@[simp] theorem noteSent_now (k : NoteKey) : (noteSent k s).now = s.now := by cases k <;> rfl
@[simp] theorem noteSent_pins (k : NoteKey) : (noteSent k s).pins = s.pins := by cases k <;> rfl
@[simp] theorem noteSent_transport (k : NoteKey) : (noteSent k s).transport = s.transport := by cases k <;> rfl
@[simp] theorem noteSent_tape (k : NoteKey) : (noteSent k s).tape = s.tape := by cases k <;> rfl
@[simp] theorem noteSent_tuner (k : NoteKey) : (noteSent k s).tuner = s.tuner := by cases k <;> rfl
@[simp] theorem noteSent_scan (k : NoteKey) : (noteSent k s).scan = s.scan := by cases k <;> rfl
@[simp] theorem noteSent_clock (k : NoteKey) : (noteSent k s).clock = s.clock := by cases k <;> rfl
@[simp] theorem noteSent_sched (k : NoteKey) : (noteSent k s).sched = s.sched := by cases k <;> rfl
@[simp] theorem noteSent_mech (k : NoteKey) : (noteSent k s).mech = s.mech := by cases k <;> rfl
@[simp] theorem noteSent_tunerOf (k : NoteKey) : (noteSent k s).tunerOf = s.tunerOf := by cases k <;> rfl
@[simp] theorem noteSent_power (k : NoteKey) : (noteSent k s).power = s.power := by cases k <;> rfl
@[simp] theorem noteSent_link (k : NoteKey) : (noteSent k s).link = s.link := by cases k <;> rfl
@[simp] theorem noteSent_settings (k : NoteKey) : (noteSent k s).settings = s.settings := by cases k <;> rfl
@[simp] theorem noteSent_pending (k : NoteKey) : (noteSent k s).pending = s.pending := by cases k <;> rfl

@[simp] theorem chooseFrame_now : (chooseFrame s).now = s.now := by
  unfold chooseFrame; split
  · rfl
  · split
    · rfl
    · split
      · split <;> simp
      · rfl
@[simp] theorem chooseFrame_pins : (chooseFrame s).pins = s.pins := by
  unfold chooseFrame; split
  · rfl
  · split
    · rfl
    · split
      · split <;> simp
      · rfl
@[simp] theorem chooseFrame_transport : (chooseFrame s).transport = s.transport := by
  unfold chooseFrame; split
  · rfl
  · split
    · rfl
    · split
      · split <;> simp
      · rfl
@[simp] theorem chooseFrame_tape : (chooseFrame s).tape = s.tape := by
  unfold chooseFrame; split
  · rfl
  · split
    · rfl
    · split
      · split <;> simp
      · rfl
@[simp] theorem chooseFrame_tuner : (chooseFrame s).tuner = s.tuner := by
  unfold chooseFrame; split
  · rfl
  · split
    · rfl
    · split
      · split <;> simp
      · rfl
@[simp] theorem chooseFrame_scan : (chooseFrame s).scan = s.scan := by
  unfold chooseFrame; split
  · rfl
  · split
    · rfl
    · split
      · split <;> simp
      · rfl
@[simp] theorem chooseFrame_clock : (chooseFrame s).clock = s.clock := by
  unfold chooseFrame; split
  · rfl
  · split
    · rfl
    · split
      · split <;> simp
      · rfl
@[simp] theorem chooseFrame_sched : (chooseFrame s).sched = s.sched := by
  unfold chooseFrame; split
  · rfl
  · split
    · rfl
    · split
      · split <;> simp
      · rfl
@[simp] theorem chooseFrame_mech : (chooseFrame s).mech = s.mech := by
  unfold chooseFrame; split
  · rfl
  · split
    · rfl
    · split
      · split <;> simp
      · rfl
@[simp] theorem chooseFrame_tunerOf : (chooseFrame s).tunerOf = s.tunerOf := by
  unfold chooseFrame; split
  · rfl
  · split
    · rfl
    · split
      · split <;> simp
      · rfl
@[simp] theorem chooseFrame_power : (chooseFrame s).power = s.power := by
  unfold chooseFrame; split
  · rfl
  · split
    · rfl
    · split
      · split <;> simp
      · rfl
@[simp] theorem chooseFrame_settings : (chooseFrame s).settings = s.settings := by
  unfold chooseFrame; split
  · rfl
  · split
    · rfl
    · split
      · split <;> simp
      · rfl
@[simp] theorem chooseFrame_pending : (chooseFrame s).pending = s.pending := by
  unfold chooseFrame; split
  · rfl
  · split
    · rfl
    · split
      · split <;> simp
      · rfl

/-! ### Reels emptied, and the drives -/

@[simp] theorem ReelMeter.empty_state (m : ReelMeter) (st : PeriodState) : (m.empty st).state = st := rfl
@[simp] theorem ReelMeter.empty_intervals (m : ReelMeter) (st : PeriodState) : (m.empty st).intervals = [] := rfl
@[simp] theorem ReelMeter.empty_opened (m : ReelMeter) (st : PeriodState) : (m.empty st).opened = false := rfl
@[simp] theorem ReelMeter.empty_lastAccepted (m : ReelMeter) (st : PeriodState) : (m.empty st).lastAccepted = m.lastAccepted := rfl

/-- The drum and the capstan are off outside OPERATING (R25, R190). -/
theorem drives_off (h : s.power.state ≠ .operating) : s.drum = .off ∧ s.capstan = .off := by simp [State.drum, State.capstan, h]

/-- In OPERATING the drum is driven by the mode (R3). -/
theorem drum_operating (h : s.power.state = .operating) : s.drum = s.transport.mode.drum := by simp [State.drum, h]

/-- Outside BACKUP a mechanical step drives the loading motor its way (R8 to R11). -/
theorem loadingMotor_step {k : MechStep} (h : s.power.state ≠ .backup) (hc : s.transport.change = some (.mech k)) :
    s.loadingMotor = k.motor := by
  simp [State.loadingMotor, h, hc]

end Sys2Proof.Machine
end

