-- ==== Sys2Proof/Laws/Link.lean ====
section
/-! SUPPORT. What the port does with a request frame, what the choice of the next frame and the end of a deck event may change. -/

namespace Sys2Proof.Machine

theorem ofByte_code (k : RequestKind) : RequestKind.ofByte k.code = some k := by cases k <;> decide

/-- With the port ready a frame of an admitted length is served at its arrival, and its reply is the next on the list (R199). -/
theorem requestFrame_ready {s : State} {k : RequestKind} {p : List Byte} (h : PortReady s) (hp : k.admitsLength p.length = true) :
    requestFrame k p s =
      answered k (serve k p s).2 (if k.settles then settleUnits s (serve k p s).1 else (serve k p s).1) := by
  obtain ⟨hb, hi, hr⟩ := h
  have e : ({ s with link := { s.link with input := [] } } : State) = s := by rw [← hi]
  have e2 : ({ s with link.input := ([] : List Entry) } : State) = s := e
  simp only [requestFrame, hb, if_false, endLinkEvent, frameArrives, hi, List.length_nil, Nat.zero_lt_succ, if_true, List.nil_append]
  simp only [dispatch]
  have hr2 : ({ s.link with input := [{ body := k.code :: p, good := true }] } : Link).replyOutstanding = false := hr
  simp only [hr2, Bool.false_eq_true, if_false, dispatchEntry, byteAt, List.getD_cons_zero, ofByte_code, List.length_cons,
    Nat.add_sub_cancel, hp, List.tail_cons, Bool.not_true, if_true, answered]
  rw [e2]

/-- The clearing of the fires of a place leaves every entry as it is otherwise. -/
theorem clearFires_unfired (n : Nat) (l : List (Option Watch)) :
    (clearFires n l).map (·.map Watch.unfired) = l.map (·.map Watch.unfired) := by
  unfold clearFires
  split
  · rfl
  · apply List.ext_getElem (by simp)
    intro j h1 h2
    simp only [List.length_map] at h2
    simp only [List.getElem_map, List.getElem_modify]
    split
    · cases l[j] <;> rfl
    · rfl

/-- The sending of a note returns to 0 what it has told, and changes nothing else (R61, R74). -/
theorem noteSent_keeps (k : NoteKey) (s : State) : KeepsBut [.sending] s (noteSent k s) := by
  refine ⟨fun p hp => ?_⟩
  cases k <;> cases p <;> simp_all [SamePart, noteSent, clearFires_unfired]

theorem KeepsBut.trans {l : List Part} {s t u : State} (h : KeepsBut l s t) (h' : KeepsBut l t u) : KeepsBut l s u := by
  refine ⟨fun p hp => ?_⟩
  have a := h.same p hp
  have b := h'.same p hp
  cases p <;> simp_all [SamePart]

theorem KeepsBut.mono {l m : List Part} {s t : State} (h : KeepsBut l s t) (hl : ∀ p, p ∈ l → p ∈ m) : KeepsBut m s t :=
  ⟨fun p hp => h.same p fun q => hp (hl p q)⟩

theorem KeepsBut.refl (l : List Part) (s : State) : KeepsBut l s s := by
  refine ⟨fun p _ => ?_⟩
  cases p <;> simp [SamePart]

/-- The choice of the next frame changes nothing but the sending side (R202). -/
theorem chooseFrame_keeps (s : State) : KeepsBut [.sending] s (chooseFrame s) := by
  have line : ∀ (f : Option Frame) (r : List Frame) (o : List Note),
      KeepsBut [.sending] s { s with link.line := f, link.replies := r, link.outbox := o } := by
    intro f r o
    refine ⟨fun p hp => ?_⟩
    cases p <;> simp_all [SamePart]
  unfold chooseFrame
  split
  · exact .refl _ _
  · split
    · exact line _ _ s.link.outbox
    · split
      · split
        · exact .refl _ _
        · exact (line _ s.link.replies _).trans (noteSent_keeps _ _)
      · exact .refl _ _

/-- RUN_READ carries at most eight segments, one run of the list from the segment it names (R207). -/
theorem Run.part_of_index {r : Run} {first : Nat} (h : first < r.segments.length) :
    r.part first = (r.segments.drop (first - 1)).take 8 := if_neg (Nat.not_le.mpr h)

/-- RUN_READ carries no segment at an index equal to their number or above it (R207). -/
theorem Run.part_past_end {r : Run} {first : Nat} (h : r.segments.length ≤ first) : r.part first = [] := if_pos h

end Sys2Proof.Machine
end

