-- ==== Sys2Proof/Laws/Frames.lean ====
section
/-! SUPPORT. The frames of the shared operations: which parts each may change, said once. -/

namespace Sys2Proof.Machine

set_option Elab.async false

namespace KeepsBut

/-- The last operation first. -/
theorem after {l : List Part} {s t u : State} (h' : KeepsBut l t u) (h : KeepsBut l s t) : KeepsBut l s u := h.trans h'

theorem pins {l : List Part} {s t : State} (h : KeepsBut l s t) (m : Part.pins ∉ l := by decide) : t.pins = s.pins := h.same .pins m
theorem transport {l : List Part} {s t : State} (h : KeepsBut l s t) (m : Part.transport ∉ l := by decide) :
    t.transport = s.transport := h.same .transport m
theorem tuner {l : List Part} {s t : State} (h : KeepsBut l s t) (m : Part.tuner ∉ l := by decide) : t.tuner = s.tuner := h.same .tuner m
theorem scan {l : List Part} {s t : State} (h : KeepsBut l s t) (m : Part.scan ∉ l := by decide) : t.scan = s.scan := h.same .scan m
theorem sched {l : List Part} {s t : State} (h : KeepsBut l s t) (m : Part.sched ∉ l := by decide) : t.sched = s.sched := h.same .sched m
theorem mech {l : List Part} {s t : State} (h : KeepsBut l s t) (m : Part.mech ∉ l := by decide) : t.mech = s.mech := h.same .mech m
theorem tunerOf {l : List Part} {s t : State} (h : KeepsBut l s t) (m : Part.tunerOf ∉ l := by decide) :
    t.tunerOf = s.tunerOf := h.same .tunerOf m
theorem power {l : List Part} {s t : State} (h : KeepsBut l s t) (m : Part.power ∉ l := by decide) : t.power = s.power := h.same .power m
theorem settings {l : List Part} {s t : State} (h : KeepsBut l s t) (m : Part.settings ∉ l := by decide) :
    t.settings = s.settings := h.same .settings m
theorem goto {l : List Part} {s t : State} (h : KeepsBut l s t) (m : Part.nav ∉ l := by decide) : t.nav.goto = s.nav.goto :=
  (h.same .nav m).1
theorem run {l : List Part} {s t : State} (h : KeepsBut l s t) (m : Part.nav ∉ l := by decide) : t.nav.run = s.nav.run :=
  (h.same .nav m).2.1

end KeepsBut

/-! ### Notes -/

theorem post_keeps (k : NoteKey) (c : List Byte) (s : State) : KeepsBut [.sending] s (post k c s) := by
  unfold post
  split
  · exact .refl _ _
  · refine ⟨fun p hp => ?_⟩
    cases p <;> simp_all [SamePart]

theorem postMode_keeps (s : State) : KeepsBut [.sending] s (postMode s) := post_keeps ..
theorem postMark_keeps (r : MarkRecord) (s : State) : KeepsBut [.sending] s (postMark r s) := post_keeps ..
theorem postGoto_keeps (s : State) : KeepsBut [.sending] s (postGoto s) := post_keeps ..
theorem postRun_keeps (s : State) : KeepsBut [.sending] s (postRun s) := post_keeps ..
theorem postTune_keeps (s : State) : KeepsBut [.sending] s (postTune s) := post_keeps ..
theorem postScan_keeps (s : State) : KeepsBut [.sending] s (postScan s) := post_keeps ..
theorem postClock_keeps (s : State) : KeepsBut [.sending] s (postClock s) := post_keeps ..
theorem postPower_keeps (s : State) : KeepsBut [.sending] s (postPower s) := post_keeps ..
theorem postProg_keeps (n : Nat) (s : State) : KeepsBut [.sending] s (postProg n s) := post_keeps ..

/-- A TAPE note starts its period again (R41). -/
theorem postTape_keeps (s : State) : KeepsBut [.estimate, .sending] s (postTape s) := by
  unfold postTape
  refine KeepsBut.trans (t := { s with tape.lastReport := s.now, tape.reportPeriod := s.link.period }) ?_
    ((post_keeps ..).mono (by simp))
  refine ⟨fun p hp => ?_⟩
  cases p <;> simp_all [SamePart]

theorem mem_postInto (k : NoteKey) (c : List Byte) (l : List Note) : ∃ n ∈ postInto k c l, n.key = k ∧ n.content = c := by
  induction l with
  | nil => exact ⟨_, List.mem_singleton.mpr rfl, rfl, rfl⟩
  | cons a l ih =>
    simp only [postInto]
    split
    · next h => exact ⟨_, List.mem_cons_self .., h, rfl⟩
    · obtain ⟨n, hn, h⟩ := ih
      exact ⟨n, List.mem_cons_of_mem _ hn, h⟩

/-- A note that a unit posts waits in the outbox (R203). -/
theorem post_mem {k : NoteKey} {c : List Byte} {s : State} (h : s.power.state ≠ .backup) :
    ∃ n ∈ (post k c s).link.outbox, n.key = k ∧ n.content = c := by
  unfold post
  rw [if_neg h]
  exact mem_postInto k c s.link.outbox

/-- A note in the outbox is still there, or is on the line, after the choice of the next frame; the TAPE note is formed when it is sent. -/
theorem announced_chooseFrame {k : NoteKey} {c : List Byte} {s : State} (hk : k ≠ .tape)
    (h : ∃ n ∈ s.link.outbox, n.key = k ∧ n.content = c) : Announced k c (chooseFrame s) := by
  unfold chooseFrame
  split
  · exact .inl h
  · split
    · exact .inl h
    · split
      · split
        · exact .inl h
        · next a rest e =>
          obtain ⟨n, hn, rfl, rfl⟩ := h
          rw [e] at hn
          rcases List.mem_cons.mp hn with rfl | hn
          · refine .inr ⟨noteFrame n s, ?_, ?_⟩
            · cases n.key <;> rfl
            · simp [noteFrame, hk]
          · refine .inl ⟨n, ?_, rfl, rfl⟩
            cases a.key <;> exact hn
      · exact .inl h

/-- The reply that has joined the reply list is there, or is on the line, after the choice of the next frame. -/
theorem replied_answered (k : RequestKind) (r : Reply) (s : State) : Replied k r (answered k r s) := by
  unfold answered chooseFrame
  split
  · exact .inr (by simp [putReply])
  · split
    · next f rest e =>
      have m : replyFrame k r ∈ f :: rest := by rw [← e]; simp [putReply]
      rcases List.mem_cons.mp m with h | h
      · exact .inl (by rw [h])
      · exact .inr h
    · next e => simp [putReply] at e

theorem answered_keeps (k : RequestKind) (r : Reply) (s : State) : KeepsBut [.sending] s (answered k r s) := by
  refine KeepsBut.trans (t := putReply (replyFrame k r) s) ?_ (chooseFrame_keeps _)
  refine ⟨fun p hp => ?_⟩
  cases p <;> simp_all [SamePart, putReply]

theorem announced_answered {k : NoteKey} {c : List Byte} {s : State} (q : RequestKind) (r : Reply) (hk : k ≠ .tape)
    (h : ∃ n ∈ s.link.outbox, n.key = k ∧ n.content = c) : Announced k c (answered q r s) :=
  announced_chooseFrame hk h

/-! ### The end of an event -/

theorem checkIdentifying_keeps (s : State) : KeepsBut [.estimate] s (checkIdentifying s) := by
  refine ⟨fun p hp => ?_⟩
  cases p <;> simp_all [SamePart, checkIdentifying]
  all_goals (split <;> simp)

theorem checkHeld_keeps (s : State) : KeepsBut [.estimate, .sending] s (checkHeld s) := by
  unfold checkHeld
  split
  · refine KeepsBut.trans (t := { s with tape.held := true }) ?_ (postTape_keeps _)
    refine ⟨fun p hp => ?_⟩
    cases p <;> simp_all [SamePart]
  · exact .refl _ _

/-- Outside STOPPING the end of an event that no DECK_RESET sequence ends touches the estimate alone (R33, R38). -/
theorem settleUnits_keeps {b s : State} (hr : b.transport.resetInFlight = false ∨ s.transport.resetInFlight = true)
    (hp : ∀ r, s.power.transition ≠ .stopping r) : KeepsBut [.estimate, .sending] s (settleUnits b s) := by
  have hb : (b.transport.resetInFlight && !s.transport.resetInFlight) = false := by rcases hr with h | h <;> simp [h]
  have k := (checkHeld_keeps s).trans ((checkIdentifying_keeps (checkHeld s)).mono (m := [.estimate, .sending]) (by simp))
  simp only [settleUnits, hb]
  have hpw : (checkIdentifying (checkHeld s)).power = s.power := k.power
  have : checkStandby (checkIdentifying (checkHeld s)) = checkIdentifying (checkHeld s) := by
    unfold checkStandby
    rw [hpw]
    split
    · next r _ h => exact absurd h (hp r)
    · rfl
  simpa [this] using k

/-! ### The transport -/

theorem emptyLists_keeps (p : PeriodState) (s : State) : KeepsBut [.reels] s (emptyLists p s) := by
  refine ⟨fun q hq => ?_⟩
  cases q <;> simp_all [SamePart, emptyLists]

theorem startReels_keeps (p : PeriodState) (s : State) : KeepsBut [.reels] s (startReels p s) := by
  refine ⟨fun q hq => ?_⟩
  cases q <;> simp_all [SamePart, startReels]

theorem tapeAtMode_keeps (m : Mode) (s : State) : KeepsBut [.reels, .counter] s (tapeAtMode m s) := by
  refine ⟨fun q hq => ?_⟩
  cases q <;> simp_all [SamePart, tapeAtMode, emptyLists]
  all_goals (split <;> simp)

theorem recordPass_keeps (r : MarkRecord) (s : State) : KeepsBut [.marks, .sending] s (recordPass r s) := by
  refine ⟨fun q hq => ?_⟩
  cases q <;> simp_all [SamePart, recordPass]

theorem startMark_keeps (c : Byte) (s : State) : KeepsBut [.marks] s (startMark c s) := by
  refine ⟨fun q hq => ?_⟩
  cases q <;> simp_all [SamePart, startMark]

theorem cutMark_keeps (s : State) : KeepsBut [.marks, .sending] s (cutMark s) := by
  unfold cutMark
  split
  · exact .refl _ _
  · refine KeepsBut.after ((postMark_keeps _ _).mono (by simp)) (KeepsBut.after (recordPass_keeps _ _) ?_)
    refine ⟨fun q hq => ?_⟩
    cases q <;> simp_all [SamePart]

theorem writerAtMode_keeps (left m : Mode) (s : State) : KeepsBut [.marks, .sending] s (writerAtMode left m s) := by
  unfold writerAtMode
  split
  · split
    · exact (startMark_keeps _ _).mono (by simp)
    · exact .refl _ _
  · split
    · exact cutMark_keeps s
    · exact .refl _ _

/-- The parts that a mode reached event may change (R7). -/
def modeParts : List Part := [.transport, .reels, .counter, .marks, .sending]

theorem enterMode_keeps (m : Mode) (c : Option Change) (s : State) : KeepsBut modeParts s (enterMode m c s) := by
  simp only [enterMode]
  refine KeepsBut.after ((writerAtMode_keeps ..).mono (by simp [modeParts])) (KeepsBut.after ((postMode_keeps _).mono (by simp [modeParts]))
    (KeepsBut.after ((tapeAtMode_keeps ..).mono (by simp [modeParts])) ?_))
  refine ⟨fun q hq => ?_⟩
  cases q <;> simp_all [SamePart, modeParts]

theorem beginMech_keeps (k : MechStep) (s : State) : KeepsBut modeParts s (beginMech k s) := by
  refine KeepsBut.after (enterMode_keeps ..) ⟨fun q hq => ?_⟩
  cases q <;> simp_all [SamePart, modeParts]

theorem beginUnthreading_keeps (e : UnthreadEnd) (s : State) : KeepsBut modeParts s (beginUnthreading e s) := by
  refine KeepsBut.after (beginMech_keeps ..) ⟨fun q hq => ?_⟩
  cases q <;> simp_all [SamePart, modeParts]

theorem beginServo_keeps (m : Mode) (s : State) : KeepsBut [.transport] s (beginServo m s) := by
  refine ⟨fun q hq => ?_⟩
  cases q <;> simp_all [SamePart, beginServo]

theorem dropTarget_keeps (s : State) : KeepsBut [.transport, .sending] s (dropTarget s) := by
  refine KeepsBut.after ((postMode_keeps _).mono (by simp)) ⟨fun q hq => ?_⟩
  cases q <;> simp_all [SamePart]

theorem choosePath_keeps (s : State) : KeepsBut modeParts s (choosePath s) := by
  have clear : KeepsBut modeParts s { s with transport.target := none } := by
    refine ⟨fun q hq => ?_⟩
    cases q <;> simp_all [SamePart, modeParts]
  unfold choosePath
  repeat' split
  all_goals first
    | exact .refl _ _
    | exact beginMech_keeps ..
    | exact beginUnthreading_keeps ..
    | exact clear
    | exact (dropTarget_keeps _).mono (by simp [modeParts])
    | exact (beginServo_keeps ..).mono (by simp [modeParts])

theorem noteChange_keeps (o : Transport) (s : State) : KeepsBut [.sending] s (noteChange o s) := by
  unfold noteChange
  split
  · exact postMode_keeps s
  · exact .refl _ _

theorem setTarget_keeps (m : Mode) (c : Option StopCause) (s : State) : KeepsBut modeParts s (setTarget m c s) := by
  have take : KeepsBut modeParts s { s with transport := { s.transport with target := some m, stopCause := c } } := by
    refine ⟨fun q hq => ?_⟩
    cases q <;> simp_all [SamePart, modeParts]
  have note : ∀ o t, KeepsBut modeParts t (noteChange o t) := fun o t => (noteChange_keeps o t).mono (by simp [modeParts])
  simp only [setTarget]
  repeat' split
  · exact .refl _ _
  · exact take.trans (note _ _)
  · exact take.trans (choosePath_keeps _)
  · exact take.trans ((choosePath_keeps _).trans (note _ _))

theorem giveTarget_keeps (m : Mode) (s : State) : KeepsBut modeParts s (giveTarget m s) := setTarget_keeps ..

/-! ### Operations of the navigation unit and of the claims -/

theorem setMech_keeps (c : MechClaim) (s : State) : KeepsBut [.mech] s (setMech c s) := by
  refine ⟨fun q hq => ?_⟩
  cases q <;> simp_all [SamePart]

theorem releaseIfStill_keeps (s : State) : KeepsBut [.mech] s (releaseIfStill s) := by
  unfold releaseIfStill
  split
  · exact setMech_keeps ..
  · exact .refl _ _

theorem closeGoto_keeps (o : GotoOutcome) (s : State) : KeepsBut [.nav, .sending] s (closeGoto o s) := by
  refine KeepsBut.after ((postGoto_keeps _).mono (by simp)) ⟨fun q hq => ?_⟩
  cases q <;> simp_all [SamePart]

theorem closeRun_keeps (r : RunResult) (s : State) : KeepsBut [.nav, .sending] s (closeRun r s) := by
  refine KeepsBut.after ((postRun_keeps _).mono (by simp)) ⟨fun q hq => ?_⟩
  cases q <;> simp_all [SamePart]

theorem endOperator_keeps (o : GotoOutcome) (r : RunResult) (s : State) : KeepsBut [.nav, .sending] s (endOperator o r s) := by
  unfold endOperator
  split
  · split
    · exact closeGoto_keeps ..
    · exact .refl _ _
  · split
    · dsimp only
      split
      · exact (closeGoto_keeps ..).trans (closeRun_keeps ..)
      · exact closeGoto_keeps ..
    · dsimp only
      split
      · exact closeRun_keeps ..
      · exact .refl _ _
  all_goals exact .refl _ _

/-- With the mechanism free or under the direct activity nothing ends as it is taken. -/
theorem endOperator_direct {s : State} (h : MechDirect s) (o : GotoOutcome) (r : RunResult) : endOperator o r s = s := by
  unfold endOperator
  rcases h with h | h <;> rw [h]

theorem grantOperator_keeps (a : OperatorActivity) (s : State) :
    KeepsBut [.nav, .sending, .mech, .transport] s (grantOperator a s) := by
  refine KeepsBut.after ((setMech_keeps ..).mono (by simp)) ?_
  refine KeepsBut.trans ((endOperator_keeps .replaced .replaced s).mono (by simp)) ⟨fun q hq => ?_⟩
  cases q <;> simp_all [SamePart]

/-! ### What a mode reached event leaves (R7) -/

/-- The transport record after a mode reached event. -/
def Transport.reached (t : Transport) (m : Mode) (c : Option Change) (now : Nat) : Transport :=
  { t with
    mode := m, change := c, target := if t.target = some m then none else t.target, recordClass := t.classAt m,
    leaderSeen := false, relockPending := false, lockLostAt := none,
    resetInFlight := t.resetInFlight && m != .stop && m != .empty && m != .fault, modeReachedAt := now,
    detect := if m = .play then some { start := now, count := 0 } else none,
    lastPlayPulse := if m = .play then now else t.lastPlayPulse }

theorem enterMode_transport (m : Mode) (c : Option Change) (s : State) :
    (enterMode m c s).transport = s.transport.reached m c s.now := by
  simp only [enterMode]
  rw [(writerAtMode_keeps ..).transport, (postMode_keeps _).transport]
  exact ((tapeAtMode_keeps ..).transport).trans rfl

/-- The content of the MODE note is the transport record. -/
theorem transportBytes_congr {s t : State} (h : t.transport = s.transport) : t.transportBytes = s.transportBytes := by
  simp only [State.transportBytes, h]

theorem postInto_mem {k j : NoteKey} {c d : List Byte} {l : List Note} (hk : j ≠ k)
    (h : ∃ n ∈ l, n.key = k ∧ n.content = d) : ∃ n ∈ postInto j c l, n.key = k ∧ n.content = d := by
  obtain ⟨n, hn, rfl, rfl⟩ := h
  induction l with
  | nil => cases hn
  | cons a l ih =>
    simp only [postInto]
    rcases List.mem_cons.mp hn with rfl | hn'
    · rw [if_neg (Ne.symm hk)]
      exact ⟨n, List.mem_cons_self .., rfl, rfl⟩
    · split
      · exact ⟨n, List.mem_cons_of_mem _ hn', rfl, rfl⟩
      · obtain ⟨x, hx, e⟩ := ih hn'
        exact ⟨x, List.mem_cons_of_mem _ hx, e⟩

/-- The MODE note with the present record waits in the outbox. -/
def ModeNoted (s : State) : Prop := ∃ n ∈ s.link.outbox, n.key = .mode ∧ n.content = s.transportBytes

theorem postMode_noted {s : State} (h : s.power.state ≠ .backup) : ModeNoted (postMode s) := by
  have k : (postMode s).transport = s.transport := (postMode_keeps s).transport
  rw [ModeNoted, transportBytes_congr k]
  exact post_mem h

theorem ModeNoted.post {s : State} (h : ModeNoted s) {j : NoteKey} (hj : j ≠ .mode) (c : List Byte) : ModeNoted (post j c s) := by
  rw [ModeNoted, transportBytes_congr (post_keeps j c s).transport]
  unfold Machine.post
  split
  · exact h
  · exact postInto_mem hj h

theorem ModeNoted.of {s t : State} (h : ModeNoted s) (ht : t.transport = s.transport) (hl : t.link.outbox = s.link.outbox) : ModeNoted t := by
  rw [ModeNoted, hl, transportBytes_congr ht]
  exact h

theorem ModeNoted.writerAtMode {s : State} (h : ModeNoted s) (l m : Mode) : ModeNoted (writerAtMode l m s) := by
  unfold Machine.writerAtMode
  split
  · split
    · exact h.of rfl rfl
    · exact h
  · split
    · unfold cutMark
      split
      · exact h
      · next w _ =>
        exact ModeNoted.post (j := .mark)
          (s := recordPass (writtenRecord (s.cutPosition w) .damaged) { s with marks.writer := none }) (h.of rfl rfl) (by simp) _
    · exact h

theorem enterMode_noted (m : Mode) (c : Option Change) {s : State} (h : s.power.state ≠ .backup) : ModeNoted (enterMode m c s) := by
  simp only [enterMode]
  refine ModeNoted.writerAtMode (postMode_noted ?_) _ _
  rw [(tapeAtMode_keeps ..).power]
  exact h

theorem ModeNoted.checkHeld {s : State} (h : ModeNoted s) : ModeNoted (checkHeld s) := by
  unfold Machine.checkHeld
  split
  · exact ModeNoted.post (s := { s with tape := { s.tape with held := true, lastReport := s.now, reportPeriod := s.link.period } })
      (h.of rfl rfl) (by simp) _
  · exact h

theorem ModeNoted.settleUnits {b s : State} (h : ModeNoted s)
    (hr : b.transport.resetInFlight = false ∨ s.transport.resetInFlight = true)
    (hp : ∀ r, s.power.transition ≠ .stopping r) : ModeNoted (settleUnits b s) := by
  have hb : (b.transport.resetInFlight && !s.transport.resetInFlight) = false := by rcases hr with h | h <;> simp [h]
  have hi : ModeNoted (checkIdentifying (Machine.checkHeld s)) := h.checkHeld.of (checkIdentifying_keeps _).transport (by
    unfold checkIdentifying; split <;> rfl)
  have k := (checkHeld_keeps s).trans ((checkIdentifying_keeps (Machine.checkHeld s)).mono (m := [.estimate, .sending]) (by simp))
  simp only [Machine.settleUnits, hb]
  have : checkStandby (checkIdentifying (Machine.checkHeld s)) = checkIdentifying (Machine.checkHeld s) := by
    unfold checkStandby
    rw [k.power]
    split
    · next r _ h => exact absurd h (hp r)
    · rfl
  simpa [this] using hi

theorem ModeNoted.announced {s : State} (h : ModeNoted s) : Announced .mode (chooseFrame s).transportBytes (chooseFrame s) := by
  rw [transportBytes_congr (chooseFrame_keeps s).transport]
  exact announced_chooseFrame (by simp) h

theorem ModeNoted.answered {s : State} (h : ModeNoted s) (k : RequestKind) (r : Reply) :
    Announced .mode (answered k r s).transportBytes (answered k r s) :=
  ModeNoted.announced (s := putReply (replyFrame k r) s) (h.of rfl rfl)

/-! ### The qualification -/

/-- The beginning of a qualification changes its time alone (R195). -/
theorem beginQualification_eq (s : State) : beginQualification s = { s with power.qualSince :=
    if s.pins.supply = .normal ∧ s.power.domainKept ∧ s.power.qualSince = none then some s.now else s.power.qualSince } := by
  unfold beginQualification
  split <;> rfl

end Sys2Proof.Machine
end

