-- ==== Sys2Proof/Laws/Kept.lean ====
section
/-! SUPPORT. What the units of the deck keep, whatever they do: the port's queue, replies and line, at most one note under each key,
the connections, the settings, the waiting commands, the bounds of `UnitsSound`, and the counter's range. One lemma says it for each operation; the
next ones cite it. This file: the relation, the shared operations, tuner, scan, cue marks, tape, transport. -/

namespace Sys2Proof.Machine

set_option Elab.async false

/-- The outbox holds at most one note under each key (R203). -/
def OneNoteEach (l : Link) : Prop := (l.outbox.map (·.key)).Nodup

/-- From one state to another the deck's units have kept what is not theirs, and their own bounds. -/
structure Kept (s t : State) : Prop where
  input    : t.link.input = s.link.input
  replies  : t.link.replies = s.link.replies
  line     : t.link.line = s.link.line
  outbox   : OneNoteEach s.link → OneNoteEach t.link
  pins     : t.pins = s.pins
  settings : t.settings = s.settings
  pending  : t.pending = s.pending
  units    : UnitsSound s → UnitsSound t
  range    : CounterInRange s → CounterInRange t

namespace Kept

theorem refl (s : State) : Kept s s := ⟨rfl, rfl, rfl, id, rfl, rfl, rfl, id, id⟩

theorem trans {s t u : State} (h : Kept s t) (k : Kept t u) : Kept s u :=
  ⟨k.input.trans h.input, k.replies.trans h.replies, k.line.trans h.line, k.outbox ∘ h.outbox, k.pins.trans h.pins,
    k.settings.trans h.settings, k.pending.trans h.pending, k.units ∘ h.units, k.range ∘ h.range⟩

/-- The last operation first, so that the state between is known when the first is met. -/
theorem after {s t u : State} (k : Kept t u) (h : Kept s t) : Kept s u := h.trans k

/-- An update that touches none of the bounded fields. -/
theorem same {s t : State} (link : t.link = s.link := by rfl) (pins : t.pins = s.pins := by rfl)
    (settings : t.settings = s.settings := by rfl) (pending : t.pending = s.pending := by rfl)
    (counter : t.tape.counter = s.tape.counter := by rfl) (history : t.marks.history = s.marks.history := by rfl)
    (passCount : t.marks.passCount = s.marks.passCount := by rfl) (watches : t.nav.watches = s.nav.watches := by rfl)
    (presets : t.tuner.presets = s.tuner.presets := by rfl) (correction : t.tuner.correction = s.tuner.correction := by rfl)
    (found : t.scan.found = s.scan.found := by rfl) (time : t.clock.time = s.clock.time := by rfl)
    (slots : t.sched.slots = s.sched.slots := by rfl) : Kept s t where
  input := by rw [link]
  replies := by rw [link]
  line := by rw [link]
  outbox := by rw [link]; exact id
  pins := pins
  settings := settings
  pending := pending
  range h := by rw [CounterInRange, counter, settings]; exact h
  units h := by
    refine ⟨?_, ?_, ?_, ?_, ?_, ?_, ?_, ?_, ?_, ?_, ?_⟩
    · rw [counter]; exact h.counter
    · rw [history]; exact h.history
    · rw [passCount]; exact h.passCount
    · rw [watches]; exact h.watches
    · rw [presets]; exact h.presets
    · rw [correction]; exact h.correction
    · rw [found]; exact h.found
    · rw [found]; exact h.spaced
    · rw [time]; exact h.time
    · rw [slots]; exact h.slots
    · rw [settings]; exact h.frameRate

/-- An update that leaves the link alone and keeps the bounds. -/
theorem ofUnits {s t : State} (units : UnitsSound s → UnitsSound t) (link : t.link = s.link := by rfl)
    (pins : t.pins = s.pins := by rfl) (settings : t.settings = s.settings := by rfl)
    (pending : t.pending = s.pending := by rfl) (range : CounterInRange s → CounterInRange t := by exact id) : Kept s t where
  input := by rw [link]
  replies := by rw [link]
  line := by rw [link]
  outbox := by rw [link]; exact id
  pins := pins
  settings := settings
  pending := pending
  units := units
  range := range

end Kept

/-! ### Shared operations -/

theorem mem_keys_postInto (k x : NoteKey) (b : List Byte) (l : List Note) :
    x ∈ (postInto k b l).map (·.key) ↔ x = k ∨ x ∈ l.map (·.key) := by
  induction l with
  | nil => simp [postInto]
  | cons n ns ih =>
    unfold postInto
    split
    · rename_i h; subst h; simp
    · simp only [List.map_cons, List.mem_cons, ih]; tauto

theorem nodup_postInto (k : NoteKey) (b : List Byte) (l : List Note) (h : (l.map (·.key)).Nodup) :
    ((postInto k b l).map (·.key)).Nodup := by
  induction l with
  | nil => simp [postInto]
  | cons n ns ih =>
    unfold postInto
    split
    · exact h
    · rename_i hk
      simp only [List.map_cons, List.nodup_cons] at h ⊢
      refine ⟨?_, ih h.2⟩
      rw [mem_keys_postInto]
      rintro (e | e)
      · exact hk e
      · exact h.1 e

theorem kept_post (k : NoteKey) (b : List Byte) (s : State) : Kept s (post k b s) := by
  unfold post
  split
  · exact .refl s
  · exact ⟨rfl, rfl, rfl, nodup_postInto k b _, rfl, rfl, rfl, fun h => ⟨h.1, h.2, h.3, h.4, h.5, h.6, h.7, h.8, h.9, h.10, h.11⟩, id⟩

theorem kept_postMode (s : State) : Kept s (postMode s) := kept_post ..
theorem kept_postTape (s : State) : Kept s (postTape s) := Kept.after (kept_post ..) .same
theorem kept_postMark (r : MarkRecord) (s : State) : Kept s (postMark r s) := kept_post ..
theorem kept_postGoto (s : State) : Kept s (postGoto s) := kept_post ..
theorem kept_postRun (s : State) : Kept s (postRun s) := kept_post ..
theorem kept_postTune (s : State) : Kept s (postTune s) := kept_post ..
theorem kept_postScan (s : State) : Kept s (postScan s) := kept_post ..
theorem kept_postClock (s : State) : Kept s (postClock s) := kept_post ..
theorem kept_postPower (s : State) : Kept s (postPower s) := kept_post ..
theorem kept_postProg (n : Nat) (s : State) : Kept s (postProg n s) := kept_post ..

theorem kept_elapse (d : Nat) (s : State) : Kept s (elapse d s) := .same
theorem kept_leapTo (t : Nat) (s : State) : Kept s (leapTo t s) := .same
theorem kept_setMech (c : MechClaim) (s : State) : Kept s (setMech c s) := .same

theorem kept_setTunerClaim (c : TunerClaim) (s : State) : Kept s (setTunerClaim c s) := by
  unfold setTunerClaim
  split
  · exact .refl s
  · exact Kept.after (kept_postTune _) .same

theorem kept_withPreset (n : Nat) (p : Option Preset) (s : State) : Kept s (s.withPreset n p) :=
  .ofUnits fun h => { h with presets := by simpa [State.withPreset] using h.presets }

theorem kept_withWatch (n : Nat) (w : Option Watch) (s : State) : Kept s (s.withWatch n w) :=
  .ofUnits fun h => { h with watches := by simpa [State.withWatch] using h.watches }

theorem kept_withSlot (n : Nat) (p : Option Program) (s : State) : Kept s (s.withSlot n p) :=
  .ofUnits fun h => { h with slots := by simpa [State.withSlot] using h.slots }

theorem kept_putProgram (n : Nat) (p : Program) (s : State) : Kept s (putProgram n p s) := by
  simp only [putProgram]
  split
  · exact (kept_withSlot ..).trans (kept_postProg ..)
  · exact kept_withSlot ..

theorem kept_releaseIfStill (s : State) : Kept s (releaseIfStill s) := by
  unfold releaseIfStill
  split
  · exact kept_setMech ..
  · exact .refl s

/-! ### Tuner -/

theorem kept_beginTuning (sel : Selection) (s : State) : Kept s (beginTuning sel s) := by
  exact Kept.after (kept_postTune _) (.ofUnits fun h => { h with correction := Nat.zero_le _ })

theorem kept_retune (s : State) : Kept s (retune s) := kept_beginTuning ..

theorem kept_enterLocked (s : State) : Kept s (enterLocked s) := Kept.after (kept_postTune _) .same
theorem kept_enterNoSignal (s : State) : Kept s (enterNoSignal s) := Kept.after (kept_postTune _) .same

theorem kept_lockTest (s : State) : Kept s (lockTest s) := by
  unfold lockTest
  split
  · exact .refl s
  · split
    · split
      · exact kept_enterLocked s
      · exact .refl s
    · exact .same
    · exact .refl s
    · exact .refl s

theorem aftStep_within (c : Int) (d : Discriminator) (h : c.natAbs ≤ 8) : (aftStep c d).natAbs ≤ 8 := by
  cases d <;> simp only [aftStep] <;> (try split) <;> omega

theorem kept_aftRead (d : Discriminator) (s : State) : Kept s (aftRead d s) := by
  have key (t : Tuner) (hp : t.presets = s.tuner.presets) (hc : t.correction = aftStep s.tuner.correction d) :
      Kept s { s with tuner := t } :=
    .ofUnits fun h => { h with
      presets := by rw [hp]; exact h.presets
      correction := by rw [hc]; exact aftStep_within _ d h.correction }
  simp only [aftRead]
  split
  · split
    · exact key _ rfl rfl
    · exact Kept.after (kept_postTune _) (key _ rfl rfl)
  · split <;> split
    · exact key _ rfl rfl
    · exact Kept.after (kept_postTune _) (key _ rfl rfl)
    · exact key _ rfl rfl
    · exact Kept.after (kept_postTune _) (key _ rfl rfl)

theorem kept_tunerOff (s : State) : Kept s (tunerOff s) :=
  Kept.after (kept_postTune _) (.ofUnits fun h => { h with correction := Nat.zero_le _ })

theorem kept_releaseTimerTuner (s : State) : Kept s (releaseTimerTuner s) := by
  simp only [releaseTimerTuner]
  split
  · split
    · exact kept_setTunerClaim ..
    · split
      · exact (kept_setTunerClaim _ s).trans (Kept.after (kept_postTune _) .same)
      · exact (kept_setTunerClaim _ s).trans (kept_retune _)
  · exact .refl s

theorem kept_tuningWrite (n : Nat) (c : Bool) (s : State) : Kept s (tuningWrite n c s) := by
  unfold tuningWrite
  split
  · exact .refl s
  · split
    · exact kept_retune s
    · exact kept_retune s
    · exact .refl s
    · split
      · exact .refl s
      · exact Kept.after (kept_postTune _) .same

theorem kept_writePreset (n : Nat) (p : Preset) (s : State) : Kept s (writePreset n p s) :=
  (kept_withPreset ..).trans (kept_tuningWrite ..)

/-! ### Scan -/

theorem kept_loadScan (f : Nat) (s : State) : Kept s (loadScan f s) := .same
theorem kept_stepScan (f : Nat) (s : State) : Kept s (stepScan f s) := .same
theorem kept_endScan (e : ScanEnding) (b : Option ScanStopper) (s : State) : Kept s (endScan e b s) :=
  Kept.after (kept_postScan _) .same

theorem kept_endScanToDirect (e : ScanEnding) (b : Option ScanStopper) (s : State) : Kept s (endScanToDirect e b s) :=
  (kept_endScan e b s).trans ((kept_setTunerClaim ..).trans (kept_retune _))

theorem kept_cutScan (e : ScanEnding) (b : Option ScanStopper) (s : State) : Kept s (cutScan e b s) := by
  unfold cutScan
  split
  · exact kept_endScan ..
  · exact .refl s

theorem kept_walkOn (f : Nat) (s : State) : Kept s (walkOn f s) := by
  unfold walkOn
  split
  · exact kept_stepScan ..
  · exact kept_endScanToDirect ..

theorem kept_beginPeak (f : Nat) (s : State) : Kept s (beginPeak f s) := .same

theorem kept_passFind (f x : Nat) (s : State) : Kept s (passFind f x s) := by
  simp only [passFind]
  split
  · exact kept_endScanToDirect ..
  · exact kept_stepScan ..

theorem insertEntry_length (e : Nat × Nat) (l : List (Nat × Nat)) : (insertEntry e l).length = l.length + 1 := by
  induction l with
  | nil => rfl
  | cons h t ih => unfold insertEntry; split <;> simp [ih]

/-- A find never takes the found list past 99 entries (R111, R115). -/
theorem enterFind_length {x v : Nat} {l m : List (Nat × Nat)} (hl : l.length ≤ 99) (h : enterFind x v l = some m) :
    m.length ≤ 99 := by
  simp only [enterFind] at h
  split at h
  · split at h
    · cases h
    · rename_i hn
      cases h
      rw [insertEntry_length]
      by_cases hr : l.filter (conflicts x) = []
      · have := List.length_filter_le (fun e => !conflicts x e) l
        have h99 : ¬ 99 ≤ l.length := fun h => hn ⟨hr, h⟩
        omega
      · have hpos : 0 < (l.filter (conflicts x)).length := List.length_pos_iff.mpr hr
        have hsum : (l.filter (conflicts x)).length + (l.filter fun e => !conflicts x e).length = l.length := by
          have := List.countP_eq_length_filter (p := conflicts x) (l := l)
          have h2 := List.length_eq_countP_add_countP (conflicts x) (l := l)
          rw [List.countP_eq_length_filter, List.countP_eq_length_filter] at h2
          convert h2.symm using 3
          simp
        omega
  · cases h

theorem mem_insertEntry {e a : Nat × Nat} {l : List (Nat × Nat)} : a ∈ insertEntry e l ↔ a = e ∨ a ∈ l := by
  induction l with
  | nil => simp [insertEntry]
  | cons h t ih => unfold insertEntry; split <;> simp [ih]; tauto

theorem insertEntry_spaced {e : Nat × Nat} {l : List (Nat × Nat)} (hl : l.Pairwise fun a b => a.1 + 20 ≤ b.1)
    (apart : ∀ a ∈ l, e.1 + 20 ≤ a.1 ∨ a.1 + 20 ≤ e.1) : (insertEntry e l).Pairwise fun a b => a.1 + 20 ≤ b.1 := by
  induction l with
  | nil => simp [insertEntry]
  | cons h t ih =>
    have hh := List.pairwise_cons.mp hl
    have first := apart h (.head _)
    unfold insertEntry
    split
    · refine List.pairwise_cons.mpr ⟨fun a ha => ?_, hl⟩
      rcases List.mem_cons.mp ha with rfl | ha
      · omega
      · have := hh.1 a ha; omega
    · refine List.pairwise_cons.mpr ⟨fun a ha => ?_, ih hh.2 fun a ha => apart a (.tail _ ha)⟩
      rcases mem_insertEntry.mp ha with rfl | ha
      · omega
      · exact hh.1 a ha

/-- A find keeps the entries of the found list 20 channel steps apart (R115). -/
theorem enterFind_spaced {x v : Nat} {l m : List (Nat × Nat)} (hl : l.Pairwise fun a b => a.1 + 20 ≤ b.1)
    (h : enterFind x v l = some m) : m.Pairwise fun a b => a.1 + 20 ≤ b.1 := by
  simp only [enterFind] at h
  split at h
  · split at h
    · cases h
    · cases h
      refine insertEntry_spaced (hl.sublist List.filter_sublist) fun a ha => ?_
      have := (List.mem_filter.mp ha).2
      simp only [conflicts, Bool.not_eq_true', Bool.and_eq_false_iff, decide_eq_false_iff_not] at this
      omega
  · cases h

theorem kept_concludePeak (f : Nat) (b : Nat × Nat) (s : State) : Kept s (concludePeak f b s) := by
  simp only [concludePeak]
  split
  · exact kept_walkOn ..
  · split
    · exact kept_passFind ..
    · rename_i found hf
      have k : Kept s (postScan { s with scan.found := found, scan.finds := Nat.min 255 (s.scan.finds + 1) }) :=
        Kept.after (kept_postScan _) (.ofUnits fun h => { h with found := enterFind_length h.found hf, spaced := enterFind_spaced h.spaced hf })
      split
      · exact k.trans (kept_endScanToDirect ..)
      · exact k.trans (kept_passFind ..)

theorem kept_stepRead (s : State) : Kept s (stepRead s) := by
  unfold stepRead
  split
  · exact .refl s
  · split
    · exact kept_beginPeak ..
    · exact kept_walkOn ..

theorem kept_peakRead (s : State) : Kept s (peakRead s) := by
  simp only [peakRead]
  split
  · split
    · exact Kept.after (kept_loadScan ..) .same
    · exact Kept.after (kept_concludePeak ..) .same
  · exact .refl s

theorem kept_startScan (f : Nat) (l : List (Nat × Nat)) (s : State) (hl : l = [] ∨ l = s.scan.found) :
    Kept s (startScan f l s) := by
  refine Kept.after (kept_postScan _) (Kept.after (kept_stepScan ..) (.ofUnits fun h => { h with found := ?_, spaced := ?_ }))
  · rcases hl with rfl | rfl
    · exact Nat.zero_le _
    · exact h.found
  · rcases hl with rfl | rfl
    · exact .nil
    · exact h.spaced

theorem kept_adoptStep (replace : Bool) (a : Adoption) (n : Nat) : Kept a.state (adoptStep replace a n).state := by
  unfold adoptStep
  split
  · exact .refl _
  · split
    · exact kept_writePreset ..
    · exact .refl _

theorem kept_adopt (replace : Bool) (p : Nat) (s : State) : Kept s (adopt replace p s).state := by
  have key : ∀ (l : List Nat) (a : Adoption), Kept a.state (l.foldl (adoptStep replace) a).state := by
    intro l
    induction l with
    | nil => exact fun a => .refl _
    | cons n l ih => exact fun a => (kept_adoptStep replace a n).trans (ih _)
  exact key _ { state := s, written := [], left := s.scan.found }

/-! ### Cue marks -/

theorem kept_recordPass (r : MarkRecord) (s : State) : Kept s (recordPass r s) := by
  refine .ofUnits fun h => { h with history := ?_, passCount := Nat.min_le_left _ _ }
  simp only [recordPass, List.length_drop]
  omega

theorem kept_startMark (code : Byte) (s : State) : Kept s (startMark code s) := .same

theorem kept_cutMark (s : State) : Kept s (cutMark s) := by
  simp only [cutMark]
  split
  · exact .refl s
  · exact Kept.after (kept_postMark ..) (Kept.after (kept_recordPass ..) .same)

/-! ### Tape -/

theorem kept_emptyLists (p : PeriodState) (s : State) : Kept s (emptyLists p s) := .same

theorem kept_startReels (p : PeriodState) (s : State) : Kept s (startReels p s) := .same

theorem kept_withReel (r : Reel) (m : ReelMeter) (s : State) : Kept s (s.withReel r m) := by
  cases r <;> exact .same

theorem kept_checkIdentifying (s : State) : Kept s (checkIdentifying s) := by
  unfold checkIdentifying
  split
  · exact .refl s
  · exact .same

theorem kept_checkHeld (s : State) : Kept s (checkHeld s) := by
  unfold checkHeld
  split
  · exact Kept.after (kept_postTape _) .same
  · exact .refl s

theorem kept_identify (c : CassetteClass) (s : State) : Kept s (identify c s) := Kept.after (kept_postTape _) .same

theorem kept_identificationComputation (s : State) : Kept s (identificationComputation s) := by
  simp only [identificationComputation]
  repeat' split
  all_goals first
    | exact .same
    | exact Kept.after (kept_identify ..) .same

theorem kept_refreshIdentification (s : State) : Kept s (refreshIdentification s) := by
  unfold refreshIdentification
  split
  · exact kept_identificationComputation s
  · exact .refl s

theorem kept_estimateComputation (s : State) : Kept s (estimateComputation s) := by
  simp only [estimateComputation]
  split
  · exact .refl s
  · split
    · exact Kept.after (kept_postTape _) .same
    · exact .same

theorem kept_drift (s : State) : Kept s (drift s) := by
  simp only [drift]
  split
  · exact .refl s
  · exact Kept.after (kept_postTape _) .same

theorem counterBound_le {s : State} (h : UnitsSound s) : s.counterBound ≤ 1079999 := by
  rcases h.frameRate with e | e <;> simp [State.counterBound, e]

theorem kept_countPulse (d : Direction) (s : State) : Kept s (countPulse d s) := by
  have k : Kept s { s with
    tape.spanStart := some s.now, nav.goto := s.nav.goto.tracked, nav.run := s.nav.run.tracked } := .same
  cases d <;> simp only [countPulse] <;> split
  · rename_i hc
    refine .ofUnits (fun h => { h with counter := ?_ }) (range := fun h => ?_)
    · have := counterBound_le h
      have h1 := h.counter
      simp only [State.counterBound] at hc this ⊢
      omega
    · simp only [State.counterBound, CounterInRange] at hc h ⊢
      omega
  · exact k.trans (kept_drift _)
  · rename_i hc
    refine .ofUnits (fun h => { h with counter := ?_ }) (range := fun h => ?_)
    · have := counterBound_le h
      have h1 := h.counter
      simp only [State.counterBound] at hc this ⊢
      omega
    · simp only [State.counterBound, CounterInRange] at hc h ⊢
      omega
  · exact k.trans (kept_drift _)

theorem kept_driftByReel (s : State) : Kept s (driftByReel s) := by
  unfold driftByReel
  split
  · exact .refl s
  · split
    · exact kept_drift s
    · exact .refl s

theorem kept_resetCassette (p : PeriodState) (s : State) : Kept s (resetCassette p s) := by
  simp only [resetCassette]
  exact Kept.after (kept_postTape _) (.ofUnits (fun h => { h with counter := Nat.zero_le _ }) (range := fun _ => Nat.zero_le _))

/-! ### Transport -/

theorem kept_tapeAtMode (m : Mode) (s : State) : Kept s (tapeAtMode m s) := by
  unfold tapeAtMode
  split <;> exact .same

theorem kept_writerAtMode (l m : Mode) (s : State) : Kept s (writerAtMode l m s) := by
  unfold writerAtMode
  split
  · split
    · exact kept_startMark ..
    · exact .refl s
  · split
    · exact kept_cutMark s
    · exact .refl s

theorem kept_enterMode (m : Mode) (c : Option Change) (s : State) : Kept s (enterMode m c s) := by
  simp only [enterMode]
  exact Kept.after ((kept_tapeAtMode ..).trans ((kept_postMode _).trans (kept_writerAtMode ..))) .same

theorem kept_beginMech (m : MechStep) (s : State) : Kept s (beginMech m s) := Kept.after (kept_enterMode ..) .same
theorem kept_beginUnthreading (e : UnthreadEnd) (s : State) : Kept s (beginUnthreading e s) :=
  Kept.after (kept_beginMech ..) .same
theorem kept_beginServo (m : Mode) (s : State) : Kept s (beginServo m s) := .same
theorem kept_dropTarget (s : State) : Kept s (dropTarget s) := Kept.after (kept_postMode _) .same

theorem kept_choosePath (s : State) : Kept s (choosePath s) := by
  unfold choosePath
  repeat' split
  all_goals first
    | exact .refl s
    | exact .same
    | exact kept_beginMech ..
    | exact kept_dropTarget s
    | exact kept_beginUnthreading ..

theorem kept_noteChange (t : Transport) (s : State) : Kept s (noteChange t s) := by
  unfold noteChange
  split
  · exact kept_postMode s
  · exact .refl s

theorem kept_setTarget (m : Mode) (c : Option StopCause) (s : State) : Kept s (setTarget m c s) := by
  simp only [setTarget]
  repeat' split
  · exact .refl s
  · exact Kept.after (kept_noteChange ..) .same
  · exact Kept.after (kept_choosePath _) .same
  · exact Kept.after ((kept_choosePath _).trans (kept_noteChange ..)) .same

theorem kept_giveTarget (m : Mode) (s : State) : Kept s (giveTarget m s) := kept_setTarget ..
theorem kept_giveRecord (o : RecordOrder) (s : State) : Kept s (giveRecord o s) := Kept.after (kept_giveTarget ..) .same

theorem kept_cassetteLoad (s : State) : Kept s (cassetteLoad s) :=
  (kept_resetCassette .collecting s).trans (.ofUnits fun h => { h with history := Nat.zero_le _ })

end Sys2Proof.Machine
end

