-- ==== Sys2Proof/Laws/KeptDeck.lean ====
section
/-! SUPPORT. What the navigation unit, the power manager, the scheduler and the protections keep (`Kept`): one lemma for each
operation. -/

namespace Sys2Proof.Machine

set_option Elab.async false

/-! ### Navigation -/

theorem kept_closeGoto (o : GotoOutcome) (s : State) : Kept s (closeGoto o s) := Kept.after (kept_postGoto _) .same
theorem kept_closeRun (r : RunResult) (s : State) : Kept s (closeRun r s) := Kept.after (kept_postRun _) .same

/-- The go-to in flight, if any, is closed. -/
theorem kept_closeGotoIf (o : GotoOutcome) (s : State) : Kept s (if s.nav.goto.active then closeGoto o s else s) := by
  split
  · exact kept_closeGoto ..
  · exact .refl s

/-- The run in flight, if any, is closed. -/
theorem kept_closeRunIf (r : RunResult) (s : State) : Kept s (if s.nav.run.state.active then closeRun r s else s) := by
  split
  · exact kept_closeRun ..
  · exact .refl s

theorem kept_endOperator (o : GotoOutcome) (r : RunResult) (s : State) : Kept s (endOperator o r s) := by
  unfold endOperator
  split
  · exact kept_closeGotoIf ..
  · exact (kept_closeGotoIf o s).trans (kept_closeRunIf r _)
  all_goals exact .refl s

theorem kept_grantOperator (a : OperatorActivity) (s : State) : Kept s (grantOperator a s) :=
  (kept_endOperator .replaced .replaced s).trans .same

theorem kept_giveRest (s : State) : Kept s (giveRest s) := by
  simp only [giveRest]
  repeat' split
  · exact kept_giveTarget ..
  · exact kept_giveTarget ..
  · exact .refl s

theorem kept_passToDirect (s : State) : Kept s (passToDirect s) := (kept_setMech ..).trans (kept_releaseIfStill _)

theorem kept_failGoto (o : GotoOutcome) (r : RunResult) (s : State) : Kept s (failGoto o r s) := by
  simp only [failGoto]
  have k := (kept_closeGoto o s).trans (kept_giveRest _)
  split
  · exact k.trans (kept_passToDirect _)
  · exact k.trans ((kept_closeRun ..).trans (kept_passToDirect _))

theorem kept_fillGoto (o : Owner) (f : GotoForm) (a : FinalAction) (s : State) : Kept s (fillGoto o f a s) := .same

theorem kept_landTarget (s : State) : Kept s (landTarget s) := by
  simp only [landTarget]
  split
  · exact .same
  · exact Kept.after (kept_giveTarget ..) .same

theorem kept_pursue (p : GotoPhase) (d : Direction) (m : Mode) (s : State) : Kept s (pursue p d m s) :=
  Kept.after (kept_giveTarget ..) .same

theorem kept_aimGoto (s : State) : Kept s (aimGoto s) := by
  simp only [aimGoto]
  repeat' split
  all_goals first
    | exact kept_landTarget s
    | exact kept_pursue ..
    | exact .same

theorem kept_setRunState (r : RunState) (s : State) : Kept s (setRunState r s) := Kept.after (kept_postRun _) .same

theorem kept_beginEnding (s : State) : Kept s (beginEnding s) := Kept.after (kept_giveTarget ..) (kept_setRunState ..)

theorem kept_openSegment (i : Nat) (s : State) : Kept s (openSegment i s) := by
  simp only [openSegment]
  exact ((kept_setRunState (.seeking i) s).trans (kept_fillGoto ..)).trans (kept_aimGoto _)

theorem kept_enterPlaying (i : Nat) (s : State) : Kept s (enterPlaying i s) :=
  Kept.after (kept_setRunState ..) (Kept.after .same (kept_closeGoto .done s))

theorem kept_seekSegments (n i : Nat) (s : State) : Kept s (seekSegments n i s) := by
  induction n generalizing i s with
  | zero => exact .refl s
  | succ n ih =>
    simp only [seekSegments]
    have k := kept_openSegment i s
    have e := k.trans (kept_enterPlaying i _)
    repeat' split
    · exact e.trans (ih ..)
    · exact e.trans (kept_beginEnding _)
    · exact e
    · exact k

theorem kept_endSegment (i : Nat) (s : State) : Kept s (endSegment i s) := by
  unfold endSegment
  split
  · exact kept_seekSegments ..
  · exact kept_beginEnding s

theorem kept_gotoDone (s : State) : Kept s (gotoDone s) := by
  simp only [gotoDone]
  split
  · exact (kept_closeGoto ..).trans (kept_passToDirect _)
  · split
    · exact (kept_enterPlaying ..).trans (kept_endSegment ..)
    · exact kept_enterPlaying ..

theorem kept_landGoto (s : State) : Kept s (landGoto s) := by
  simp only [landGoto]
  split
  · exact (kept_landTarget s).trans (kept_gotoDone _)
  · exact kept_landTarget s

theorem kept_startGoto (o : Owner) (f : GotoForm) (a : FinalAction) (s : State) : Kept s (startGoto o f a s) := by
  simp only [startGoto]
  have k : Kept s (aimGoto (fillGoto o f a s)) := (kept_fillGoto o f a s).trans (kept_aimGoto _)
  split
  · exact k.trans (kept_gotoDone _)
  · exact k

theorem kept_crossTarget (d : Direction) (s : State) : Kept s (crossTarget d s) := by
  simp only [crossTarget]
  repeat' split
  · exact Kept.after (kept_failGoto ..) .same
  · exact Kept.after (kept_pursue ..) .same
  · exact kept_landGoto s

theorem kept_gotoStep (d : Direction) (s : State) : Kept s (gotoStep d s) := by
  simp only [gotoStep]
  repeat' split
  all_goals first
    | exact .refl s
    | exact kept_crossTarget ..
    | exact kept_pursue ..
    | exact kept_failGoto ..

theorem kept_gotoMark (r : MarkRecord) (s : State) : Kept s (gotoMark r s) := by
  simp only [gotoMark]
  repeat' split
  all_goals first
    | exact .refl s
    | exact .same
    | exact Kept.after (kept_landGoto _) .same
    | exact Kept.after (kept_pursue ..) .same

theorem kept_gotoAtMode (s : State) : Kept s (gotoAtMode s) := by
  simp only [gotoAtMode]
  repeat' split
  all_goals first
    | exact .refl s
    | exact kept_gotoDone s
    | exact kept_pursue ..

theorem kept_runStep (d : Direction) (s : State) : Kept s (runStep d s) := by
  simp only [runStep]
  repeat' split
  all_goals first
    | exact .refl s
    | exact kept_endSegment ..

theorem kept_runMark (r : MarkRecord) (s : State) : Kept s (runMark r s) := by
  simp only [runMark]
  repeat' split
  all_goals first
    | exact .refl s
    | exact kept_endSegment ..

theorem kept_fireWatch (n : Nat) (w : Watch) (f : Firing) (a : Fired) : Kept a.state (fireWatch n w f a).state := by
  simp only [fireWatch]
  exact Kept.after (kept_post ..) (kept_withWatch ..)

theorem kept_matchWatch (n : Nat) (w : Watch) (f : Firing) (a : Fired) : Kept a.state (matchWatch n w f a).state := by
  unfold matchWatch
  split
  · exact kept_fireWatch ..
  · exact kept_withWatch ..

theorem kept_offerPlace (f : Firing) (a : Fired) (n : Nat) : Kept a.state (offerPlace f a n).state := by
  unfold offerPlace
  repeat' split
  all_goals first
    | exact .refl _
    | exact kept_matchWatch ..

/-- What each place of a walk keeps, the walk keeps. -/
theorem kept_walk {g : Fired → Nat → Fired} (h : ∀ a n, Kept a.state (g a n).state) (l : List Nat) (a : Fired) :
    Kept a.state (l.foldl g a).state := by
  induction l generalizing a with
  | nil => exact .refl _
  | cons n l ih => exact (h a n).trans (ih _)

theorem kept_offerWatches (f : Firing) (a : Fired) : Kept a.state (offerWatches f a).state :=
  kept_walk (kept_offerPlace f) _ a

theorem kept_remainPlace (r : Nat) (a : Fired) (n : Nat) : Kept a.state (remainPlace r a n).state := by
  simp only [remainPlace]
  repeat' split
  all_goals first
    | exact .refl _
    | exact kept_matchWatch ..
    | exact kept_withWatch ..

theorem kept_giveAction (a : Fired) : Kept a.state (giveAction a) := by
  unfold giveAction
  split
  · exact .refl _
  · exact (kept_giveTarget ..).trans (kept_releaseIfStill _)
  · exact kept_giveTarget ..
  · exact kept_giveTarget ..

theorem kept_evaluateRemain (s : State) : Kept s (evaluateRemain s) := by
  unfold evaluateRemain
  split
  · exact Kept.after (kept_giveAction _) (kept_walk (kept_remainPlace _) _ { state := s, action := .note })
  · exact .refl s

theorem kept_forgetSides (s : State) : Kept s (forgetSides s) :=
  .ofUnits fun h => { h with watches := by simpa [forgetSides] using h.watches }

/-- The steps and marks that follow the watches. -/
theorem kept_meet (d : Option Direction) (r : Option MarkRecord) (s : State) :
    Kept s (r.elim (d.elim s fun d => runStep d (gotoStep d s)) fun r =>
      runMark r (gotoMark r (d.elim s fun d => runStep d (gotoStep d s)))) := by
  have steps : Kept s (d.elim s fun d => runStep d (gotoStep d s)) := by
    cases d
    · exact .refl s
    · exact (kept_gotoStep ..).trans (kept_runStep ..)
  generalize d.elim s (fun d => runStep d (gotoStep d s)) = t at steps
  cases r
  · exact steps
  · exact steps.trans ((kept_gotoMark ..).trans (kept_runMark ..))

theorem kept_navigate (d : Option Direction) (r : Option MarkRecord) (s : State) : Kept s (navigate d r s) := by
  have last : ∀ (a : Fired) (t : State), Kept s t → Kept s (giveAction { a with state := t }) :=
    fun a t h => h.trans (kept_giveAction { a with state := t })
  have meet : ∀ a : Fired, Kept s a.state → Kept s (giveAction ⟨
      r.elim (d.elim a.state fun d => runStep d (gotoStep d a.state)) (fun r =>
        runMark r (gotoMark r (d.elim a.state fun d => runStep d (gotoStep d a.state)))), a.action⟩) :=
    fun a h => last a _ (h.trans (kept_meet d r a.state))
  have step : Kept s (d.elim ({ state := s, action := .note } : Fired) fun d =>
      offerWatches (.counter s.tape.counter d) { state := s, action := .note }).state := by
    cases d with
    | none => exact .refl s
    | some d =>
      have k := kept_offerWatches (.counter s.tape.counter d) { state := s, action := .note }
      rw [Option.elim_some]
      exact k
  have mark : ∀ a : Fired, Kept s a.state → Kept s (r.elim a fun r => offerWatches (.mark r) a).state := by
    intro a h
    cases r with
    | none => exact h
    | some r =>
      have k := h.trans (kept_offerWatches (.mark r) a)
      rw [Option.elim_some]
      exact k
  exact meet _ (mark _ step)

theorem kept_ejectNavigation (s : State) : Kept s (ejectNavigation s) := by
  simp only [ejectNavigation]
  exact ((kept_closeGotoIf .replaced s).trans (kept_closeRunIf .replaced _)).trans (.ofUnits fun h => { h with watches := rfl })

/-! ### Power -/

theorem kept_endTransition (s : State) : Kept s (endTransition s) := Kept.after (kept_postPower _) .same

theorem kept_dropOperatorTuner (s : State) : Kept s (dropOperatorTuner s) := by
  unfold dropOperatorTuner
  split
  · exact .refl s
  · exact kept_setTunerClaim ..

theorem kept_enterStandby (r : PowerCause) (s : State) : Kept s (enterStandby r s) :=
  Kept.after (kept_postPower _)
    (((kept_cutScan ..).trans ((kept_tunerOff _).trans (kept_dropOperatorTuner _))).trans .same)

theorem kept_checkStandby (s : State) : Kept s (checkStandby s) := by
  unfold checkStandby
  repeat' split
  all_goals first
    | exact .refl s
    | exact kept_enterStandby ..

theorem kept_beginStopping (r : PowerCause) (s : State) : Kept s (beginStopping r s) := by
  simp only [beginStopping]
  have k : Kept s { s with power.transition := .stopping r } := .same
  split
  all_goals first
    | exact Kept.after (kept_checkStandby _) (Kept.after (kept_postPower _) (Kept.after (kept_releaseIfStill _)
        (Kept.after (kept_giveTarget ..) (Kept.after (kept_grantOperator ..) k))))
    | exact Kept.after (kept_checkStandby _) (Kept.after (kept_postPower _) k)

theorem kept_requestStandby (r : PowerCause) (s : State) : Kept s (requestStandby r s).1 := by
  unfold requestStandby
  repeat' split
  all_goals first
    | exact .refl s
    | exact kept_endTransition s
    | exact kept_beginStopping ..

theorem kept_requestOperate (s : State) : Kept s (requestOperate s).1 := by
  unfold requestOperate
  repeat' split
  all_goals first
    | exact .refl s
    | exact kept_endTransition s
    | exact Kept.after (kept_postPower _) .same

theorem kept_wakeForTimer (s : State) : Kept s (wakeForTimer s) := by
  unfold wakeForTimer
  repeat' split
  all_goals first
    | exact .refl s
    | exact .same
    | exact kept_endTransition s
    | exact Kept.after (kept_postPower _) .same

theorem kept_arriveOperating (r : PowerCause) (s : State) : Kept s (arriveOperating r s) :=
  Kept.after (kept_retune _) (Kept.after (kept_postPower _) .same)

/-! ### Scheduler -/

theorem kept_finishSlot (n : Nat) (o : Outcome) (c : Option OutcomeCause) (s : State) : Kept s (finishSlot n o c s) := by
  unfold finishSlot
  split
  · exact kept_putProgram ..
  · exact .refl s

theorem kept_finishShort (n : Nat) (c : OutcomeCause) (s : State) : Kept s (finishShort n c s) := by
  unfold finishShort
  split
  · exact kept_finishSlot ..
  · exact .refl s

theorem kept_deferSlot (n : Nat) (c : DeferralCause) (s : State) : Kept s (deferSlot n c s) := by
  unfold deferSlot
  split
  · exact kept_putProgram ..
  · exact .refl s

/-- What each slot of a walk keeps, the walk keeps. -/
theorem kept_slots {g : State → Nat → State} (h : ∀ s n, Kept s (g s n)) (l : List Nat) (s : State) : Kept s (l.foldl g s) := by
  induction l generalizing s with
  | nil => exact .refl _
  | cons n l ih => exact (h s n).trans (ih _)

theorem kept_deferSlots (c : DeferralCause) (l : List Nat) (s : State) : Kept s (deferSlots c l s) :=
  kept_slots (g := fun s n => deferSlot n c s) (fun s n => kept_deferSlot n c s) l s

theorem kept_dropActive (s : State) : Kept s (dropActive s) := .same

theorem kept_deferActive (c : DeferralCause) (s : State) : Kept s (deferActive c s) := by
  unfold deferActive
  split
  · exact Kept.after (kept_deferSlot ..) .same
  · exact .refl s

theorem kept_finishActive (c : OutcomeCause) (s : State) : Kept s (finishActive c s) := by
  unfold finishActive
  split
  · exact Kept.after (kept_finishShort ..) .same
  · exact .refl s

theorem kept_releaseTimerMech (s : State) : Kept s (releaseTimerMech s) := by
  unfold releaseTimerMech
  split
  · exact kept_setMech ..
  · exact .refl s

theorem kept_releaseTimer (s : State) : Kept s (releaseTimer s) := (kept_releaseTimerMech s).trans (kept_releaseTimerTuner _)

theorem kept_askMech (n : Nat) (s : State) : Kept s (askMech n s) := by
  simp only [askMech]
  split
  · exact .same
  all_goals exact (kept_endOperator .preempted .preempted s).trans .same

theorem kept_askTuner (n : Nat) (s : State) : Kept s (askTuner n s) := by
  unfold askTuner
  split
  · exact (kept_cutScan ..).trans (kept_setTunerClaim ..)
  · exact kept_setTunerClaim ..

theorem kept_tuneFor (p : Nat) (b : Bool) (s : State) : Kept s (tuneFor p b s) := by
  unfold tuneFor
  split
  · exact .refl s
  · exact kept_beginTuning ..

theorem kept_holdDeck (n : Nat) (s : State) : Kept s (holdDeck n s) := by
  unfold holdDeck
  split
  · exact kept_giveTarget ..
  · exact .refl s

theorem kept_bringUp (b : Bool) (s : State) : Kept s (bringUp b s) := by
  simp only [bringUp]
  split
  · exact .refl s
  · split
    · exact kept_wakeForTimer s
    · exact (kept_wakeForTimer s).trans ((kept_tuneFor ..).trans (kept_holdDeck ..))

theorem kept_makeActive (n : Nat) (a : Active) (s : State) : Kept s (makeActive n a s) := by
  simp only [makeActive]
  split
  · exact .refl s
  · exact Kept.after (kept_askMech ..) (Kept.after (kept_askTuner ..) (Kept.after (kept_putProgram ..) .same))

theorem kept_makeCueing (n : Nat) (l : Bool) (c : Option DeferralCause) (s : State) : Kept s (makeCueing n l c s) :=
  Kept.after (kept_bringUp ..) (kept_makeActive ..)

theorem kept_beginRecord (s : State) : Kept s (beginRecord s) := by
  simp only [beginRecord]
  split
  · exact .refl s
  · exact Kept.after (kept_giveRecord ..) (Kept.after (kept_putProgram ..) .same)

theorem kept_reenterRecord (s : State) : Kept s (reenterRecord s) := by
  simp only [reenterRecord]
  split
  · exact .refl s
  · exact Kept.after (kept_giveRecord ..) .same

theorem kept_programAtRecPause (s : State) : Kept s (programAtRecPause s) := by
  unfold programAtRecPause
  repeat' split
  all_goals first
    | exact .refl s
    | exact kept_beginRecord s
    | exact kept_reenterRecord s

theorem kept_programAtRecord (s : State) : Kept s (programAtRecord s) := by
  simp only [programAtRecord]
  repeat' split
  all_goals first
    | exact .refl s
    | exact kept_putProgram ..

theorem kept_changeSpeed (v : Speed) (s : State) : Kept s (changeSpeed v s) := Kept.after (kept_giveTarget ..) .same

theorem kept_setShortTape (n : Nat) (s : State) : Kept s (setShortTape n s) := by
  unfold setShortTape
  split
  · exact kept_putProgram ..
  · exact .refl s

/-- The end of the choice pending. -/
theorem kept_endPending (a : Option Active) (s : State) : Kept s { s with sched.active := a } := .same

theorem kept_evaluateFit (s : State) : Kept s (evaluateFit s) := by
  unfold evaluateFit
  split
  · next a p v _ _ =>
    split
    · dsimp only
      split
      · have k := kept_endPending (some { a with choicePending := false }) s
        have k' : ∀ b : Bool, Kept s (if b then setShortTape a.slot { s with sched.active := some { a with choicePending := false } }
            else { s with sched.active := some { a with choicePending := false } }) := by
          intro b
          cases b
          · exact k
          · exact k.trans (kept_setShortTape ..)
        split
        · exact k' _
        · exact (k' _).trans (kept_changeSpeed ..)
      · repeat' split
        all_goals first
          | exact .refl s
          | exact kept_setShortTape ..
          | exact kept_changeSpeed ..
    · exact .refl s
  · exact .refl s

theorem kept_passChecks (s : State) : Kept s (passChecks s) := by
  simp only [passChecks]
  split
  · exact Kept.after (kept_beginRecord _) .same
  · exact .same

theorem kept_meetChecks {f : State → State} (h : ∀ s, Kept s (f s)) (s : State) : Kept s (meetChecks f s) := by
  unfold meetChecks
  split
  · exact h s
  · exact (kept_finishActive ..).trans (kept_releaseTimer _)
  · exact (kept_deferActive ..).trans (kept_releaseTimer _)

theorem kept_startPoint {f : State → State} (h : ∀ s, Kept s (f s)) (s : State) : Kept s (startPoint f s) := by
  unfold startPoint
  split
  · exact .same
  · exact kept_meetChecks h s

theorem kept_cueUp (s : State) : Kept s (cueUp s) := by
  unfold cueUp
  repeat' split
  all_goals first
    | exact .refl s
    | exact kept_makeCueing ..

theorem kept_expireSlot (s : State) (n : Nat) : Kept s (expireSlot s n) := by
  unfold expireSlot
  repeat' split
  all_goals first
    | exact .refl s
    | exact kept_finishShort ..

theorem kept_expireDeferred (s : State) : Kept s (expireDeferred s) := kept_slots kept_expireSlot _ s

theorem kept_lateStart (n : Nat) (c : Option DeferralCause) (s : State) : Kept s (lateStart n c s) := by
  simp only [lateStart]
  split
  · exact kept_makeCueing ..
  · exact (kept_makeCueing ..).trans (kept_startPoint kept_passChecks _)

theorem kept_pick (n : Nat) (s : State) : Kept s (pick n s) := kept_lateStart ..

theorem kept_applyRulesFor (k : Nat) (s : State) : Kept s (applyRulesFor k s) := by
  induction k generalizing s with
  | zero => exact .refl s
  | succ k ih =>
    simp only [applyRulesFor]
    have c := kept_cueUp s
    have e := c.trans (kept_expireDeferred _)
    repeat' split
    · exact .refl s
    · exact c
    · exact e
    · exact e.trans (kept_pick ..)
    · exact e.trans ((kept_pick ..).trans (ih _))

theorem kept_applyRules (s : State) : Kept s (applyRules s) := kept_applyRulesFor ..

theorem kept_rulesIfFree (s : State) : Kept s (rulesIfFree s) := by
  unfold rulesIfFree
  split
  · exact kept_applyRules s
  · exact .refl s

theorem kept_changeOver (r : ChangeReason) (s : State) : Kept s (changeOver r s) := by
  simp only [changeOver]
  split
  · exact .refl s
  · rename_i a p _
    have k : Kept s (putProgram a.slot { p with state := .recording }
        { s with sched.active := some { a with
          phase := .changing, reason := some r, speedToEnter := some (s.chooseSpeed p).speed, pointCome := true } }) :=
      Kept.after (kept_putProgram ..) .same
    split
    · split
      · exact k.trans (kept_beginRecord _)
      · exact k.trans ((kept_beginTuning ..).trans (kept_beginRecord _))
    · have g := k.trans (kept_giveTarget .recPause _)
      split
      · exact g
      · exact g.trans (kept_beginTuning ..)

theorem kept_takeOver (n : Nat) (s : State) : Kept s (takeOver n s) := by
  simp only [takeOver]
  repeat' split
  all_goals first
    | exact Kept.after (kept_startPoint kept_passChecks _)
        (Kept.after (kept_bringUp ..) (Kept.after (kept_makeActive ..) (kept_deferActive ..)))
    | exact kept_finishShort ..
    | exact kept_deferSlot ..
    | exact Kept.after (kept_changeOver ..) (Kept.after (kept_makeActive ..) (kept_deferActive ..))
    | exact Kept.after (kept_passChecks _) (Kept.after (kept_bringUp ..) (Kept.after (kept_makeActive ..) (kept_deferActive ..)))

theorem kept_displace (n : Nat) (s : State) : Kept s (displace n s) := by
  simp only [displace]
  split
  · exact Kept.after (kept_startPoint kept_passChecks _)
      (Kept.after (kept_makeCueing ..) (Kept.after (kept_putProgram ..) .same))
  · exact Kept.after (kept_startPoint kept_passChecks _) (kept_makeCueing ..)

theorem kept_meetActive (a : Active) (p : Program) (n : Nat) (s : State) : Kept s (meetActive a p n s) := by
  unfold meetActive
  repeat' split
  · exact kept_deferSlot ..
  · exact kept_displace ..
  · exact kept_takeOver ..

theorem kept_meetStarters (s : State) : Kept s (meetStarters s) := by
  simp only [meetStarters]
  repeat' split
  all_goals first
    | exact .refl s
    | exact Kept.after (kept_deferSlots ..) (Kept.after (kept_startPoint kept_passChecks _) (kept_makeCueing ..))
    | exact Kept.after (kept_deferSlots ..) (kept_startPoint kept_passChecks _)
    | exact Kept.after (kept_deferSlots ..) (kept_meetActive ..)

theorem kept_handOver (n : Nat) (l : Bool) (c : Option DeferralCause) (s : State) : Kept s (handOver n l c s) :=
  Kept.after (kept_startPoint (kept_changeOver .handOver) _) (kept_makeActive ..)

theorem kept_completeEndAction (a : EndAction) (s : State) : Kept s (completeEndAction a s) := by
  simp only [completeEndAction]
  split
  · exact Kept.after (kept_requestStandby ..) (Kept.after (kept_releaseTimer _) .same)
  · exact Kept.after (kept_releaseTimer _) .same

theorem kept_beginEndAction (n : Nat) (a : EndAction) (s : State) : Kept s (beginEndAction n a s) := by
  simp only [beginEndAction]
  split
  · exact Kept.after (kept_completeEndAction ..) (Kept.after (kept_setTunerClaim ..) (Kept.after (kept_setMech ..) .same))
  · exact Kept.after (kept_giveTarget ..) (Kept.after (kept_setTunerClaim ..) (Kept.after (kept_setMech ..) .same))

/-- The expiry that a free deck makes before its pick. -/
theorem kept_expireIf (s : State) : Kept s (if s.deckFree then expireDeferred s else s) := by
  split
  · exact kept_expireDeferred s
  · exact .refl s

theorem kept_handOn (n : Nat) (a : EndAction) (s : State) : Kept s (handOn n a s) := by
  simp only [handOn]
  have e := kept_expireIf s
  split
  · split
    · exact kept_handOver ..
    · exact kept_makeCueing ..
  · split
    · exact Kept.after (kept_handOver ..) e
    · exact Kept.after (kept_beginEndAction ..) e

theorem kept_endOccurrence (s : State) : Kept s (endOccurrence s) := by
  simp only [endOccurrence]
  repeat' split
  all_goals first
    | exact .refl s
    | exact Kept.after (kept_rulesIfFree _) (Kept.after (kept_handOn ..) (Kept.after (kept_finishSlot ..) (kept_dropActive s)))
    | exact Kept.after (kept_rulesIfFree _) (Kept.after (kept_releaseTimer _) (kept_finishActive ..))

theorem kept_timerAtRest (s : State) : Kept s (timerAtRest s) := by
  unfold timerAtRest
  repeat' split
  all_goals first
    | exact .refl s
    | exact kept_completeEndAction ..
    | exact Kept.after (kept_releaseTimer _) .same

theorem kept_countSecond (s : State) : Kept s (countSecond s) := by
  simp only [countSecond]
  repeat' split
  all_goals first
    | exact .refl s
    | exact kept_putProgram ..

theorem kept_minuteEvent (s : State) : Kept s (minuteEvent s) :=
  (kept_endOccurrence s).trans ((kept_meetStarters _).trans ((kept_expireDeferred _).trans (kept_applyRules _)))

theorem kept_judgeSlot (c : DeferralCause) (s : State) (n : Nat) : Kept s (judgeSlot c s n) := by
  unfold judgeSlot
  split
  · exact kept_putProgram ..
  · exact .refl s

theorem kept_clockJump (c : DeferralCause) (s : State) : Kept s (clockJump c s) :=
  (kept_slots (kept_judgeSlot c) _ s).trans (kept_applyRules _)

theorem kept_timerPreempted (t : TimerActivity) (c : Protection) (s : State) : Kept s (timerPreempted t c s) := by
  unfold timerPreempted
  repeat' split
  all_goals first
    | exact .same
    | exact Kept.after (kept_releaseTimerTuner _) .same
    | exact Kept.after (kept_applyRules _) (Kept.after (kept_releaseTimerTuner _) (kept_finishActive ..))
    | exact Kept.after (kept_applyRules _) (Kept.after (kept_releaseTimerTuner _) (kept_deferActive ..))

theorem kept_programAtDew (s : State) : Kept s (programAtDew s) := by
  unfold programAtDew
  repeat' split
  all_goals first
    | exact .refl s
    | exact Kept.after (kept_applyRules _) (Kept.after (kept_releaseTimer _) (kept_deferActive ..))

theorem kept_protectReleased (s : State) : Kept s (protectReleased s) := by
  have tail : Kept s (if s.sched.rewindTail then releaseTimerTuner { s with sched.rewindTail := false } else s) := by
    split
    · exact Kept.after (kept_releaseTimerTuner _) .same
    · exact .refl s
  simp only [protectReleased]
  split
  · split
    · exact tail.trans ((kept_askMech ..).trans (kept_bringUp ..))
    · exact tail
  · exact tail.trans (kept_applyRules _)

theorem kept_holdAgain (s : State) : Kept s (holdAgain s) := by
  unfold holdAgain
  repeat' split
  all_goals first
    | exact .refl s
    | exact kept_holdDeck ..

theorem kept_programAtLoad (s : State) : Kept s (programAtLoad s) := by
  unfold programAtLoad
  repeat' split
  all_goals first
    | exact .refl s
    | exact Kept.after (kept_holdAgain _) (Kept.after (kept_rulesIfFree _) (kept_meetChecks kept_passChecks s))
    | exact kept_holdAgain s

theorem kept_programAtDry (s : State) : Kept s (programAtDry s) := (kept_holdAgain s).trans (kept_rulesIfFree _)

theorem kept_programAtArrival (s : State) : Kept s (programAtArrival s) := by
  simp only [programAtArrival]
  repeat' split
  all_goals first
    | exact .refl s
    | exact kept_bringUp ..
    | exact Kept.after (kept_rulesIfFree _) (Kept.after (kept_startPoint kept_passChecks _) (kept_bringUp ..))
    | exact Kept.after (kept_rulesIfFree _) (kept_startPoint kept_passChecks _)

theorem kept_standDown (c : DeferralCause) (s : State) : Kept s (standDown c s) := by
  unfold standDown
  repeat' split
  all_goals first
    | exact .refl s
    | exact kept_deferActive ..
    | exact Kept.after (kept_putProgram ..) .same

theorem kept_abandonTimer (c : DeferralCause) (s : State) : Kept s (abandonTimer c s) := (kept_standDown c s).trans .same

theorem kept_resumeAfterReset (s : State) : Kept s (resumeAfterReset s) := by
  simp only [resumeAfterReset]
  split
  · exact (kept_rulesIfFree s).trans (kept_releaseTimerTuner _)
  · exact kept_rulesIfFree s

/-! ### Protections and rest -/

theorem kept_takeProtect (c : Protection) (s : State) : Kept s (takeProtect c s) := by
  have k : Kept s (if c.isLeader then endOperator .tapeEnd s.nav.run.leaderResult s else endOperator .preempted .preempted s) := by
    split <;> exact kept_endOperator ..
  simp only [takeProtect]
  split
  · exact (k.trans (kept_setMech ..)).trans (kept_timerPreempted ..)
  all_goals exact k.trans (kept_setMech ..)

theorem kept_protectionStop (c : StopCause) (s : State) : Kept s (protectionStop c s) :=
  Kept.after (kept_setTarget ..) (Kept.after .same (kept_takeProtect ..))

theorem kept_replaceCause (c : StopCause) (s : State) : Kept s (replaceCause c s) := Kept.after (kept_postMode _) .same

theorem kept_heldAtFault (s : State) : Kept s (heldAtFault s) := by
  unfold heldAtFault
  repeat' split
  all_goals first
    | exact .refl s
    | exact Kept.after (kept_applyRules _) (Kept.after (kept_releaseTimer _) (kept_deferActive ..))

theorem kept_enterFault (m : MechStep) (s : State) : Kept s (enterFault m s) :=
  Kept.after (kept_heldAtFault _) (Kept.after (kept_takeProtect ..) (Kept.after (kept_enterMode ..) .same))

theorem kept_releaseProtect (s : State) : Kept s (releaseProtect s) := by
  unfold releaseProtect
  split
  · exact (kept_setMech ..).trans (kept_protectReleased _)
  · exact .refl s

theorem kept_endRecovery (s : State) : Kept s (endRecovery s) := .same

theorem kept_finishRun (s : State) : Kept s (finishRun s) := by
  have claim : ∀ t : State, Kept t (if t.mech = .operator .run then setMech .free t else t) := by
    intro t
    split
    · exact kept_setMech ..
    · exact .refl t
  simp only [finishRun]
  split
  · have k := (kept_closeRun .finished s).trans (claim _)
    split
    · exact k.trans (kept_requestStandby ..)
    · exact k
  · exact .refl s

theorem kept_comeToRest (s : State) : Kept s (comeToRest s) :=
  (kept_gotoAtMode s).trans ((kept_releaseIfStill _).trans ((kept_finishRun _).trans
    ((kept_timerAtRest _).trans (kept_releaseProtect _))))

theorem kept_autoRewind (s : State) : Kept s (autoRewind s) := Kept.after (kept_setTarget ..) .same

theorem kept_atStop (s : State) : Kept s (atStop s) := by
  simp only [atStop]
  repeat' split
  · exact kept_autoRewind s
  · exact Kept.after (kept_choosePath _) .same
  · exact Kept.after (kept_comeToRest _) .same

/-- A recovery that ends here has succeeded. -/
theorem kept_endRecoveryIf (b : Bool) (s : State) : Kept s (if b then endRecovery s else s) := by
  cases b
  · exact .refl s
  · exact kept_endRecovery s

theorem kept_enterStop (s : State) : Kept s (enterStop s) :=
  Kept.after (kept_atStop _) (Kept.after (kept_enterMode ..) (kept_endRecoveryIf _ s))

theorem kept_enterEmpty (s : State) : Kept s (enterEmpty s) := by
  simp only [enterEmpty]
  refine Kept.after (kept_comeToRest _) (Kept.after (kept_ejectNavigation _) ?_)
  refine Kept.trans (t := finishRun (enterMode .empty none (endRecovery _))) ?_
    (Kept.trans (kept_resetCassette .stalled _) (.ofUnits fun h => { h with history := Nat.zero_le _ }))
  exact Kept.after (kept_finishRun _) (Kept.after (kept_enterMode ..) (Kept.after (kept_endRecovery _) .same))

theorem kept_beginLoading (s : State) : Kept s (beginLoading s) := Kept.after (kept_beginMech ..) .same
theorem kept_beginEjecting (s : State) : Kept s (beginEjecting s) := Kept.after (kept_beginMech ..) .same

theorem kept_recover (e : Bool) (s : State) : Kept s (recover e s) := by
  unfold recover
  have k : Kept s { s with transport.recovering := true } := .same
  generalize ({ s with transport.recovering := true } : State) = t at k
  dsimp only
  split
  · exact k.trans (Kept.after (kept_beginUnthreading ..) .same)
  · exact k.trans (Kept.after (kept_beginUnthreading ..) .same)
  · cases e
    · exact k.trans (kept_enterStop t)
    · exact k.trans (kept_beginEjecting t)
  · cases e
    · exact k.trans (kept_beginLoading t)
    · exact k.trans (kept_beginEjecting t)
  · split
    · exact k.trans (kept_beginLoading t)
    · exact k.trans (kept_enterEmpty t)

theorem kept_turnRecovery (e : Bool) (s : State) : Kept s (turnRecovery e s) := by
  simp only [turnRecovery]
  split
  · exact .refl s
  · exact Kept.after (kept_noteChange ..) .same

theorem kept_settleUnits (b s : State) : Kept s (settleUnits b s) := by
  have k : Kept s (if b.transport.resetInFlight && !s.transport.resetInFlight then resumeAfterReset s else s) := by
    split
    · exact kept_resumeAfterReset s
    · exact .refl s
  exact k.trans ((kept_checkHeld _).trans ((kept_checkIdentifying _).trans (kept_checkStandby _)))

end Sys2Proof.Machine
end

