-- ==== Sys2Proof/Laws/Scheduler.lean ====
section
/-! SUPPORT. What the scheduler's collections hold when few programs wait, and what its rules then leave as it is. -/

namespace Sys2Proof.Machine

variable {s : State} {n k : Nat} {p q : Program}

/-! ### The table -/

/-- A slot of the table is one of 1 to 16. -/
theorem program_bounds (hl : s.sched.slots.length = 16) (h : s.program n = some p) : 1 ≤ n ∧ n ≤ 16 := by
  unfold State.program at h
  split at h
  · cases h
  · refine ⟨by omega, ?_⟩
    by_contra hn
    rw [List.getElem?_eq_none (by omega)] at h
    cases h

theorem mem_slotNumbers : n ∈ slotNumbers ↔ 1 ≤ n ∧ n ≤ 16 := by
  simp only [slotNumbers, List.mem_map, List.mem_range]
  exact ⟨by rintro ⟨a, ha, rfl⟩; omega, fun h => ⟨n - 1, by omega, by omega⟩⟩

theorem mem_slotsIn {st : SlotState} : n ∈ s.slotsIn st ↔ (1 ≤ n ∧ n ≤ 16) ∧ ∃ p, s.program n = some p ∧ p.state = st := by
  cases h : s.program n <;> simp [State.slotsIn, mem_slotNumbers, h]

/-! ### No program asks for the deck -/

theorem NoPrograms.slotsIn (h : NoPrograms s) {st : SlotState} (hs : st ≠ .done) : s.slotsIn st = [] := by
  refine List.eq_nil_iff_forall_not_mem.2 fun n hn => ?_
  obtain ⟨-, p, hp, rfl⟩ := mem_slotsIn.1 hn
  exact hs (h.slots n p hp)

@[simp] theorem sortByRank_nil (rank : Nat → Nat) : sortByRank rank [] = [] := rfl

@[simp] theorem sortByRank_one (rank : Nat → Nat) (n : Nat) : sortByRank rank [n] = [n] := rfl

theorem sortByRank_two (rank : Nat → Nat) (n k : Nat) : sortByRank rank [n, k] = if rank n < rank k then [n, k] else [k, n] := rfl

theorem NoPrograms.pendingList (h : NoPrograms s) : s.pendingList = [] := by
  rw [State.pendingList, h.slotsIn (by decide), sortByRank_nil]

theorem NoPrograms.deferredByPick (h : NoPrograms s) : s.deferredByPick = [] := by
  rw [State.deferredByPick, h.slotsIn (by decide), sortByRank_nil]

theorem NoPrograms.activeProgram (h : NoPrograms s) : s.activeProgram = none := by simp [State.activeProgram, h.active]

theorem NoPrograms.cueUp (h : NoPrograms s) : cueUp s = s := by simp [Machine.cueUp, h.active, h.pendingList]

theorem NoPrograms.expireDeferred (h : NoPrograms s) : expireDeferred s = s := by
  simp [Machine.expireDeferred, h.slotsIn (st := .deferred) (by decide)]

theorem NoPrograms.applyRules (h : NoPrograms s) : applyRules s = s := by
  simp [Machine.applyRules, applyRulesFor, h.cueUp, h.expireDeferred, h.deferredByPick]

theorem NoPrograms.minuteEvent (h : NoPrograms s) : minuteEvent s = s := by
  simp [Machine.minuteEvent, endOccurrence, meetStarters, h.activeProgram, h.pendingList, h.expireDeferred, h.applyRules]

theorem NoPrograms.countSecond (h : NoPrograms s) : countSecond s = s := by simp [Machine.countSecond, h.activeProgram]

/-! ### One program, or two -/

theorem filter_slotNumbers (f : Nat → Bool) (hn : 1 ≤ n ∧ n ≤ 16) (hf : ∀ k, k ≠ n → f k = false) :
    slotNumbers.filter f = if f n then [n] else [] := by
  have h : ∀ l : List Nat, l.Nodup → l.filter f = if n ∈ l ∧ f n then [n] else [] := by
    intro l hl
    induction l with
    | nil => simp
    | cons a l ih =>
      have hl := List.nodup_cons.1 hl
      by_cases ha : a = n
      · subst ha
        rw [List.filter_cons, ih hl.2]
        simp [hl.1]
      · simp [hf a ha, ih hl.2, Ne.symm ha]
  simp [h slotNumbers (by decide), mem_slotNumbers.2 hn]

/-- With one program that can ask for the deck, a collection of the table holds it or nothing. -/
theorem OnlyPrograms.slotsIn (h : OnlyPrograms [n] s) (hp : s.program n = some p) {st : SlotState} (hs : st ≠ .done) :
    s.slotsIn st = if p.state = st then [n] else [] := by
  rw [State.slotsIn, filter_slotNumbers _ (program_bounds h.slots hp)]
  · simp [hp]
  · intro k hk
    cases hq : s.program k with
    | none => rfl
    | some q => simpa [h.others k q (by simpa using hk) hq] using hs.symm

theorem OnlyPrograms.pendingList (h : OnlyPrograms [n] s) (hp : s.program n = some p) :
    s.pendingList = if p.state = .armed then [n] else [] := by
  rw [State.pendingList, h.slotsIn hp (by decide)]
  split <;> simp

theorem OnlyPrograms.deferredByPick (h : OnlyPrograms [n] s) (hp : s.program n = some p) :
    s.deferredByPick = if p.state = .deferred then [n] else [] := by
  rw [State.deferredByPick, h.slotsIn hp (by decide)]
  split <;> simp

/-- With two of them, it holds no other. -/
theorem OnlyPrograms.slotsIn_sub (h : OnlyPrograms [n, k] s) {st : SlotState} (hs : st ≠ .done) {m : Nat} (hm : m ∈ s.slotsIn st) :
    m = n ∨ m = k := by
  obtain ⟨-, p, hp, rfl⟩ := mem_slotsIn.1 hm
  by_contra hne
  push Not at hne
  exact hs (h.others m p (by simpa using hne) hp)

/-! ### The short endings (R150, R151) -/

theorem finished_once (h : p.pattern = .once) (o : Outcome) (c : Option OutcomeCause) (t : Nat) :
    p.finished o c t = { p with state := .done, deferral := none, outcome := some o, cause := c } := by
  simp [Program.finished, h]

theorem finished_short (h : p.pattern = .once) (c : OutcomeCause) (t : Nat) :
    p.finished p.shortOutcome (some c) t = p.short c := by
  simp [finished_once h, Program.short, Program.shortOutcome]

theorem deferredWith_eq (c : DeferralCause) : p.deferredWith c = p.putOff c := by
  simp [Program.deferredWith, Program.putOff]

end Sys2Proof.Machine
end

