-- ==== Sys2Proof/Tests/Slice0.lean ====
section
/-! SUPPORT. The checks that well-formedness makes, steps taken from the worked cases of the manual, and for every statement with
hypotheses a state that meets them. -/

namespace Sys2Proof.Tests

set_option Elab.async false

open Sys2Proof Machine

/-! ### Well-formedness: an ill-formed command for each check -/

theorem test_runLoad_needs_a_segment : Instr.wellFormed (.runLoad 1 1 1 []) = false := by decide
theorem test_runLoad_at_most_eight : Instr.wellFormed (.runLoad 1 9 1 (List.replicate 9 ⟨0, 1⟩)) = false := by decide
theorem test_runLoad_of_eight : Instr.wellFormed (.runLoad 1 8 1 (List.replicate 8 ⟨0, 1⟩)) = true := by decide
theorem test_badCheck_needs_a_body : Instr.wellFormed (.badCheck []) = false := by decide
theorem test_badCheck_at_most_sixty : Instr.wellFormed (.badCheck (List.replicate 61 7)) = false := by decide
theorem test_badKind_of_a_known_kind : Instr.wellFormed (.badKind 0x10 [4]) = false := by decide
theorem test_badKind_too_long : Instr.wellFormed (.badKind 0x77 (List.replicate 60 7)) = false := by decide
theorem test_badLength_of_the_right_length : Instr.wellFormed (.badLength 0x10 [4]) = false := by decide
theorem test_badLength_of_an_unknown_kind : Instr.wellFormed (.badLength 0x77 [4]) = false := by decide
theorem test_badLength_wellFormed : Instr.wellFormed (.badLength 0x10 [4, 4]) = true := by decide

/-! ### States to step from -/

/-- An OPERATING part with a cassette, settled in a mode, and nothing else going on. -/
def deck (m : Mode) : State :=
  { State.cold 1000 [] with
    power := { Power.cold 0 with state := .operating, lastChange := .host }
    transport := { Transport.cold with mode := m, cassettePresent := true, recordTab := true } }

/-- What most statements ask of the state: the port dispatches at once, and nothing waits for the end of an event. -/
def ready (s : State) : Bool :=
  decide (s.power.state ≠ .backup) && decide (s.link.input = []) && !s.link.replyOutstanding && decide (settleUnits s s = s)

/-- What the rest of them ask: OPERATING, no sequence, no program, the mechanism with the operator, no watch, no navigation. -/
def calm (s : State) : Bool :=
  ready s && decide (s.power.state = .operating) && decide (s.power.transition = .none) && !s.transport.resetInFlight &&
    (decide (s.mech = .free) || decide (s.mech = .operator .direct)) && decide (s.sched = .cold) && !s.nav.goto.active &&
    !s.nav.run.state.active && s.nav.watches.all (·.isNone)

theorem ready_meets {s : State} (h : ready s = true) : PortReady s ∧ NothingDue s := by
  simp only [ready, Bool.and_eq_true, decide_eq_true_eq, Bool.not_eq_true'] at h
  exact ⟨⟨h.1.1.1, h.1.1.2, h.1.2⟩, h.2⟩

theorem noPrograms_of_cold {s : State} (h : s.sched = .cold) : NoPrograms s := by
  have none_ : ∀ n, (List.replicate 16 (none : Option Program))[n]?.join = none := fun n => by
    rw [List.getElem?_replicate]
    split <;> rfl
  refine ⟨fun n p hp => ?_, ?_, ?_, ?_, ?_⟩
  · simp only [State.program, h, show Scheduler.cold.slots = List.replicate 16 none from rfl, none_] at hp
    split at hp <;> cases hp
  all_goals rw [h]; rfl

/-- What `calm` stands for. -/
theorem calm_meets {s : State} (h : calm s = true) :
    PortReady s ∧ NothingDue s ∧ Steady s ∧ MechDirect s ∧ NoPrograms s ∧ NoNavigation s ∧ NoWatches s ∧ NotStopping s := by
  simp only [calm, Bool.and_eq_true, decide_eq_true_eq, Bool.or_eq_true, Bool.not_eq_true', List.all_eq_true] at h
  obtain ⟨⟨⟨⟨⟨⟨⟨⟨hr, ho⟩, ht⟩, hf⟩, hm⟩, hc⟩, hg⟩, hn⟩, hw⟩ := h
  have r := ready_meets hr
  refine ⟨r.1, r.2, ⟨ho, ht, hf⟩, hm, noPrograms_of_cold hc, ⟨hg, hn⟩, fun w h => ?_, fun r h => ?_⟩
  · simpa using hw w h
  · rw [ht] at h; cases h

/-- No program outside some slots asks for the deck. -/
def only (l : List Nat) (s : State) : Bool :=
  decide (s.sched.slots.length = 16) && s.sched.endAction.isNone && s.sched.abortStop.isNone && !s.sched.rewindTail &&
    (List.range 17).all fun k => l.contains k || (s.program k).all fun p => p.state == .done

/-- What `only` stands for. -/
theorem only_meets {l : List Nat} {s : State} (h : only l s = true) : OnlyPrograms l s := by
  simp only [only, Bool.and_eq_true, decide_eq_true_eq, Bool.not_eq_true', List.all_eq_true, Option.isNone_iff_eq_none] at h
  obtain ⟨⟨⟨⟨hl, he⟩, ha⟩, ht⟩, hp⟩ := h
  refine ⟨fun k p hk hs => ?_, hl, he, ha, ht⟩
  by_cases hk16 : k < 17
  · have := hp k (List.mem_range.2 hk16)
    simp only [Bool.or_eq_true, List.contains_iff_mem] at this
    simpa [hs] using this.resolve_left hk
  · have hn : s.sched.slots[k - 1]? = none := List.getElem?_eq_none (by omega)
    simp [State.program, hn] at hs

/-! ### States that meet the hypotheses of the statements -/

/-- `deck m` with another transport. -/
def moving (m : Mode) (change : Option Change) (target : Option Mode) : State :=
  { deck m with transport := { (deck m).transport with change := change, target := target } }

theorem witness_StepRunsTheFront : (deck .stop).pending = [] ∧
    { deck .stop with pending := [Instr.ident, .motion 9] }.pending = .ident :: [.motion 9] := by
  decide +kernel

theorem witness_MovesRefused : calm (deck .empty) = true ∧ calm (deck .play) = true ∧ calm (deck .stop) = true ∧
    firstFailing (motionChecks 4 (deck .empty)) = some .notReady ∧ firstFailing (motionChecks 0 (deck .play)) = some .range ∧
    (deck .play).outOfRange 900000 = true ∧ (deck .play).outOfRange 899999 = false ∧ (deck .play).outOfRange (-899999) = false ∧
    firstFailing ((true, .range) :: moveChecks (deck .play)) = some .range ∧
    firstFailing ((false, .range) :: moveChecks (deck .loading)) = some .notReady ∧
    markFieldsBad 1 100 0 false = true ∧ markFieldsBad 1 99 1 false = false ∧ markFieldsBad 1 99 1 true = true ∧
    firstFailing (moveChecks (deck .play) ++ [(true, .notReady), (false, .busy)]) = some .notReady := by
  decide +kernel

theorem witness_MotionStarts : calm (deck .play) = true ∧ calm (deck .stop) = true ∧ Mode.play.threaded = true ∧
    motionTarget 4 = some .stop ∧ motionTarget 9 = some .play ∧ motionTarget 14 = some .windRev ∧
    firstFailing (motionChecks 4 (deck .play)) = none ∧ firstFailing (motionChecks 9 (deck .play)) = none ∧
    firstFailing (motionChecks 14 (deck .play)) = none ∧ firstFailing (motionChecks 9 (deck .stop)) = none ∧
    firstFailing (motionChecks 4 (deck .stop)) = none := by
  decide +kernel

theorem witness_MotionRedirects :
    let threading := moving .threading (some (.mech .threading)) (some .play)
    let servo := moving .still (some (.servo .play)) (some .play)
    calm threading = true ∧ Mode.threading = MechStep.threading.mode ∧ firstFailing (motionChecks 7 threading) = none ∧
    calm servo = true ∧ Mode.still.threaded = true ∧ firstFailing (motionChecks 4 servo) = none ∧
    firstFailing (motionChecks 13 servo) = none ∧ calm (moving .threading (some (.servo .play)) none) = true := by
  decide +kernel

theorem witness_EjectServed :
    let held := fun (c : MechClaim) => { deck .stop with mech := c }
    let fault := fun (p : Position) => { deck .fault with mech := .protect .mech, pins := { Pins.cold with position := p } }
    ready (deck .empty) = true ∧ ready (deck .ejecting) = true ∧ ready (held (.timer (.program 1))) = true ∧
    ready (held (.protect .dew)) = true ∧ calm (deck .stop) = true ∧ calm (deck .still) = true ∧ ready (fault .threaded) = true ∧
    ready (fault .loaded) = true ∧ ready (fault .betweenOutAndLoaded) = true ∧ ready (fault .betweenLoadedAndThreaded) = true ∧
    ready (fault .out) = true ∧ (fault .out).sched = .cold ∧ (fault .out).nav = .cold ∧ (fault .out).mech = .protect .mech ∧
    (fault .out).transport.change = none := by
  decide +kernel

theorem witness_RecSpeedSets :
    let known := { deck .stop with tape := { TapePosition.cold with cls := some .c120, fraction := some 6667 } }
    calm (deck .play) = true ∧ Speed.ofByte 0 = none ∧ Speed.ofByte 4 = none ∧ Speed.ofByte 1 = some .standard ∧
    Speed.ofByte 3 = some .extended ∧ (deck .play).tape.fraction = none ∧ calm known = true ∧
    known.estimate = some (6667, .c120) := by
  decide +kernel

theorem witness_LoadingRuns :
    let loading := moving .loading (some (.mech .loading)) (some .stop)
    calm (deck .empty) = true ∧ calm loading = true ∧ loading.transport.change = some (.mech .loading) ∧
    loading.transport.target = some .stop := by
  decide +kernel

theorem witness_ThreadingConfirmed :
    let toward := fun (m : Mode) => moving .threading (some (.mech .threading)) (some m)
    let damp := { toward .recPause with transport := { (toward .recPause).transport with dew := true } }
    calm damp = true ∧ damp.transport.dew = true ∧ calm (toward .record) = true ∧ (toward .record).transport.dew = false ∧ (toward .record).transport.recordTab = true ∧ calm (toward .stop) = true ∧ calm (toward .empty) = true := by
  decide +kernel

theorem witness_UnthreadingConfirmed :
    let toward := fun (m : Mode) => moving .unthreading (some (.mech .unthreading)) (some m)
    calm (toward .stop) = true ∧ (toward .stop).transport.unthreadEnd = .plain ∧ (toward .stop).transport.rewindDue = false ∧
    calm (toward .empty) = true ∧ calm (toward .record) = true ∧ (toward .record).transport.dew = false := by
  decide +kernel

theorem witness_EjectEndsInEmpty : calm (moving .ejecting (some (.mech .ejecting)) none) = true := by decide +kernel

theorem witness_MechTimeoutFaults :
    let s := moving .loading (some (.mech .loading)) (some .stop)
    calm s = true ∧ s.mech.isTimer = false ∧ s.now ≤ s.transport.stepStart + seconds 4 := by
  decide +kernel

theorem witness_ServoLockReachesMode :
    let toward := fun (m : Mode) => moving .still (some (.servo m)) (some m)
    let known := { toward .windRev with tape := { TapePosition.cold with cls := some .c120, fraction := some 6667 } }
    let standby := { toward .play with power := Power.cold 0 }
    calm known = true ∧ known.tape.held = false ∧ known.power.state = .operating ∧ ready standby = true ∧
    standby.power.state = .standby ∧ standby.sched = .cold ∧ calm (toward .play) = true ∧ calm (toward .record) = true ∧ calm (toward .recPause) = true ∧ calm (toward .windRev) = true ∧
    Mode.windRev.threaded = true ∧ Mode.play.motion = true ∧ Mode.recPause.motion = false := by
  decide +kernel

theorem witness_LockAndDewFollowed :
    let lost := { deck .play with transport := { (deck .play).transport with lockLostAt := some 900 } }
    let damp := { deck .stop with transport := { (deck .stop).transport with dew := true } }
    let drying := { damp with transport := { damp.transport with drySince := some 900 } }
    calm (deck .play) = true ∧ (deck .play).mechInFlight = false ∧ calm lost = true ∧ (deck .play).pins.sync = false ∧
    calm damp = true ∧ calm drying = true ∧ drying.now ≤ 900 + seconds 60 := by
  decide +kernel

theorem witness_ProtectionsStop :
    let servo := moving .still (some (.servo .play)) (some .play)
    let threading := moving .threading (some (.mech .threading)) (some .play)
    let under := fun (s : State) (c : MechClaim) => { s with mech := c }
    let seeking := { Navigation.cold with goto := { Goto.idle with active := true } }
    let ending := { Navigation.cold with run := { Run.cold with state := .ending, endAction := some .rewind } }
    let tail := { under (deck .windRev) (.timer (.endAction 3)) with
      tunerOf := .timer (.endAction 3), sched := { Scheduler.cold with endAction := some (3, .rewind) } }
    let stopped := fun auto => { under (moving .unthreading (some (.mech .unthreading)) (some .stop)) (.protect .leaderEnd) with
      transport := { (moving .unthreading (some (.mech .unthreading)) (some .stop)).transport with rewindDue := true }
      settings := { Settings.cold with autoRewind := auto } }
    calm threading = true ∧ threading.transport.dew = false ∧
    ready { under (deck .windFwd) (.operator .goTo) with nav := seeking } = true ∧ seeking.goto.active = true ∧
    ready { under (deck .windFwd) (.operator .run) with nav := ending } = true ∧ ending.run.state.active = true ∧
    ready tail = true ∧ tail.mechInFlight = false ∧ (deck .windFwd).mechInFlight = false ∧
    ready (under (deck .windRev) (.protect .leaderEnd)) = true ∧ ready (stopped true) = true ∧ ready (stopped false) = true ∧
    (stopped true).sched = .cold ∧ (stopped true).transport.recovering = false ∧
    calm servo = true ∧ servo.now ≤ servo.transport.servoStart + seconds 1 ∧ calm (deck .play) = true ∧
    Mode.play.direction = some .forward ∧ calm (deck .windRev) = true ∧ Mode.windRev.direction = some .reverse ∧
    Mode.play.capstanMotion = true ∧ (deck .play).now ≤ seconds 8 ∧ Mode.windRev.wind = true ∧ (deck .windRev).now ≤ seconds 2 ∧
    calm (deck .recPause) = true ∧ (deck .recPause).now ≤ seconds 300 := by
  decide +kernel

theorem witness_SpeedDetected :
    let s := fun n => { deck .play with transport := { (deck .play).transport with detect := some { start := 1000, count := n } } }
    calm (s 25) = true ∧ (s 0).now ≤ 1000 + seconds 1 ∧ 9 * 25 * 1 ≤ 10 * 23 * 1 ∧ 10 * 27 * 1 ≤ 11 * 25 * 1 ∧
    9 * 25 * 2 ≤ 10 * 45 * 1 ∧ 10 * 55 * 1 ≤ 11 * 25 * 2 ∧ calm (s 0) = true ∧ calm (s 55) = true := by
  decide +kernel

theorem witness_DeckResetQuiets :
    let fault := fun (p : Position) (cassette : Bool) =>
      { deck .fault with mech := .protect .mech, pins := { Pins.cold with position := p, cassetteIn := cassette } }
    let queued := { deck .stop with link := { Link.cold with
      line := some (replyFrame .ident { status := .ok })
      input := [{ body := [RequestKind.deckReset.code], good := true }, { body := [1], good := true }] } }
    calm (deck .stop) = true ∧ calm (deck .record) = true ∧ (deck .record).scan.state = .idle ∧ Mode.record.threaded = true ∧
    queued.power.state ≠ .backup ∧ (replyFrame .ident { status := .ok }).origin = .dispatched ∧ queued.link.replies = [] ∧
    ready (fault .threaded false) = true ∧ ready (fault .betweenOutAndLoaded true) = true ∧ ready (fault .out true) = true ∧
    ready (fault .out false) = true ∧ ready (fault .loaded true) = true ∧ (fault .loaded true).sched = .cold ∧
    (fault .loaded true).transport.target = none ∧ (fault .out true).nav = .cold := by
  decide +kernel

theorem witness_ClassSetDeclares :
    let known := { deck .stop with tape := { TapePosition.cold with cls := some .c180, origin := .identified } }
    ready (deck .empty) = true ∧ calm known = true := by
  decide +kernel

theorem witness_CounterZeroed :
    let going := { deck .play with nav := { Navigation.cold with goto := { Goto.idle with active := true } } }
    ready (deck .loading) = true ∧ ready going = true ∧ calm (deck .play) = true := by
  decide +kernel

/-- A reel with some intervals, the last pulse at 1000. -/
def reel (l : List Nat) (st : PeriodState) (period : Nat) : ReelMeter :=
  { intervals := l, period := period, state := st, opened := true, lastAccepted := 1000 }

theorem witness_ReelPulseCounted :
    let s := fun l => { deck .play with tape := { TapePosition.cold with supply := reel l .collecting 0 } }
    calm (s []) = true ∧ (s []).transport.cassettePresent = true ∧ (deck .play).tape.takeUp.opened = false ∧
    (s [10, 10, 10]).now ≤ 1000 + 10 * 6144 ∧ 40 ≤ [10, 10, 10, 10].sum ∧ [15000, 15000, 15000, 15000].sum ≤ 60000 ∧
    60000 < [15000, 15000, 15000, 15001].sum ∧ [10, 10, 10, 9].sum < 40 ∧ ([1, 2, 3, 4].tail ++ [5]).length = 4 := by
  decide +kernel

/-- Both ends of the range that the rounding is kept in. -/
theorem witness_SupplyFractionExact : supplyFraction 1 60000 CassetteClass.c180.hubShare = 0 ∧
    supplyFraction 60000 1 CassetteClass.c180.hubShare = 10000 := by
  decide +kernel

theorem witness_EstimateComputed :
    let s := { deck .play with tape := { TapePosition.cold with
                 cls := some .c120, supply := reel [3325, 3325, 3325] .collecting 0, takeUp := reel [2518, 2518, 2518, 2519] .valid 10073 } }
    calm s = true ∧ Mode.play.motion = true ∧ 40 ≤ [3325, 3325, 3325].sum + 3326 ∧ [3325, 3325, 3325].sum + 3326 ≤ 60000 ∧
    s.tape.lastEstimate = none ∧ s.now ≤ 1000 + 3326 * 6144 := by
  decide +kernel

/-- PLAY with the class unknown and a count begun, an identification computation due at the next pulse of the supply reel. -/
def identifying (count : Nat) (last : Option Nat) : State :=
  { deck .play with tape := { TapePosition.cold with
      candidate := some .c120, idCount := count, lastIdent := last
      supply := reel [3325, 3325, 3325, 3326] .valid 13301, takeUp := reel [2518, 2518, 2518, 2519] .valid 10073 } }

theorem witness_ClassIdentified :
    let at_ := 1000 + 3325 * 6144
    let due := fun last : Option Nat => last.all fun t0 => decide (t0 + seconds 1 ≤ at_)
    calm (identifying 4 (some (at_ - seconds 1))) = true ∧ due (some (at_ - seconds 1)) = true ∧
    calm (identifying 3 (some (at_ - seconds 1 + 1))) = true ∧ due (some (at_ - seconds 1 + 1)) = false ∧
    calm { identifying 1 none with tape := { (identifying 1 none).tape with candidate := some .c90 } } = true ∧
    (identifying 4 none).tape.cls = none ∧ (identifying 4 none).transport.relockPending = false ∧
    (identifying 4 none).capstanClass = some .standard ∧ (identifying 4 none).tape.takeUp.state = .valid ∧
    40 ≤ [3325, 3325, 3326].sum + 3325 ∧ [3325, 3325, 3326].sum + 3325 ≤ 60000 ∧ (identifying 4 none).now ≤ at_ ∧
    classBand 278382 = some .c120 ∧
    classBand 80000 = some .c30 ∧ classBand 79999 = none ∧ classBand 420000 = some .c180 ∧ classBand 420001 = none := by
  decide +kernel

theorem witness_PositionTimers :
    let s := { deck .play with tape := { TapePosition.cold with reportPeriod := 5, supply := reel [] .collecting 0 } }
    calm s = true ∧ s.tape.supply.state ≠ .stalled ∧ s.now ≤ 1000 + seconds 30 ∧ Mode.play.motion = true ∧
    s.now ≤ Nat.max 0 0 + seconds 5 := by
  decide +kernel

theorem witness_CounterFollowsRead :
    let at_ := fun (m : Mode) (c : Int) => { deck m with tape := { TapePosition.cold with counter := c } }
    calm (at_ .play 899998) = true ∧ calm (at_ .play 899999) = true ∧ calm (at_ .searchRev (-899999)) = true ∧
    Mode.play.direction = some .forward ∧ Mode.searchRev.direction = some .reverse ∧ (deck .play).settings.frameRate = 25 := by
  decide +kernel

/-- A waiting or recording program of 30 minutes. -/
def program (st : SlotState) (next : Nat) : Program :=
  { state := st, start := next, duration := 30, preset := 1, speedMode := .long, pattern := .once, priority := 1, endAction := .stop,
    mark := some 5, next := next, carried := false, deferral := none, run := .cleared, outcome := none, cause := none }

/-- One program in slot 16, at a calendar time. -/
def programmed (m : Mode) (st : SlotState) (next time : Nat) (active : Option Active) : State :=
  { deck m with
    sched := { Scheduler.cold with slots := (List.replicate 16 none).set 15 (some (program st next)), active := active }
    clock := { Clock.cold 1000 with time := time, set := true } }

/-- RECORD with a mark under way. -/
def writing (k : Nat) : State :=
  { deck .record with marks := { CueMarks.cold with writer := some { next := k, code := 5, position := some 100 } } }

theorem witness_PulseWritten :
    let bound := { deck .record with tape := { TapePosition.cold with counter := 899999 } }
    calm bound = true ∧ bound.tape.quality = .exact ∧ bound.settings.frameRate = 25 ∧ calm (deck .record) = true ∧ calm (writing 1) = true ∧ calm (writing 16) = true ∧
    calm (writing 17) = true ∧ (writing 17).marks.history.length ≤ 16 := by
  decide +kernel

theorem witness_MarkBegins :
    let entering := moving .recPause (some (.servo .record)) (some .record)
    let timed := { programmed .still .recording 10 700 (some (.fresh 16 .running false true none)) with
      transport := { entering.transport with mode := .still, recordOrder := .timer .long (some 7) } }
    ready timed = true ∧ timed.transport.change = some (.servo .record) ∧ timed.marks.writer = none ∧
    timed.transport.recordOrder = .timer .long (some 7) ∧ timed.program 16 = some (program .recording 10) ∧ timed.nav = .cold ∧
    calm entering = true ∧ entering.marks.writer = none ∧ entering.transport.recordOrder = .operator ∧ ready (deck .play) = true ∧
    ready (moving .record none (some .stop)) = true ∧ ready (writing 3) = true ∧ ready (deck .record) = true := by
  decide +kernel

theorem witness_MarkReadsBack :
    let d := fun (w : Direction) => { Decoder.off with state := .hunt, direction := w }
    (d .forward).boundary = true ∧ (d .reverse).bits = [] ∧ (d .reverse).candidate = none := by
  decide +kernel

theorem witness_GapActs :
    let s := fun (st : DecoderState) => { deck .play with marks := { CueMarks.cold with decoder := { Decoder.off with state := st } } }
    calm (s (.preamble 6)) = true ∧ calm (s .hunt) = true ∧ (s .hunt).now ≤ 0 + 10 * 12288000 / 25 ∧
    gapKind (s (.preamble 5)).marks.decoder = none ∧ gapKind (s (.preamble 6)).marks.decoder = some .damaged := by
  decide +kernel

theorem witness_GotoStarts :
    calm (deck .stop) = true ∧ calm (deck .still) = true ∧ firstFailing (moveChecks (deck .stop)) = none ∧
    firstFailing (moveChecks (deck .still)) = none ∧ (deck .stop).outOfRange 1000 = false ∧ (deck .stop).outOfRange 1001 = false ∧
    ¬ 40 * 25 < (1000 : Int).natAbs ∧ 40 * 25 < (-1001 : Int).natAbs ∧ markFieldsBad 3 99 0 false = false ∧
    markFieldsBad 1 1 0 true = false := by
  decide +kernel

/-- A counter go-to of the host in flight toward a value, the tape moving. -/
def going (m : Mode) (ph : GotoPhase) (goal : Int) (reversals : Nat) : State :=
  { deck m with
    mech := .operator .goTo
    nav := { Navigation.cold with goto := { Goto.idle with active := true, form := .counter goal, phase := ph, reversals := reversals } } }

/-- A mark go-to of the host in search, the decoder about to give a mark at 100 to 105. -/
def markGoing (m : Mode) (form : GotoForm) (ph : GotoPhase) (counted : Nat) (d : Decoder) : State :=
  { deck m with
    mech := .operator .goTo
    tape := { TapePosition.cold with counter := 115 }
    marks := { CueMarks.cold with decoder := d }
    nav := { Navigation.cold with goto :=
      { Goto.idle with active := true, form := form, phase := ph, counted := counted, noted := some 102, final := .still } } }

/-- The last pulse of a coded mark read forward, and the narrow pulse before a preamble read in reverse. -/
def tailRead : Decoder := { Decoder.off with state := .tail, candidate := some 100, bits := List.replicate 8 true }
def preambleRead : Decoder := { Decoder.off with state := .preamble 6, direction := .reverse, candidate := some 105 }

theorem witness_GotoFollowsCounter :
    let two := markGoing .searchFwd (.markForward 2 (some { code := 0xFF, mask := 3 })) .counting
    let back := fun n => markGoing .windRev (.markBackward n) .counting 0 preambleRead
    let coming := fun (position : Int) => markGoing .searchFwd (.markBackward 1) .returning 1 { tailRead with candidate := some position }
    let lost := { markGoing .searchFwd (.markBackward 1) .returning 1 Decoder.off with tape := { TapePosition.cold with counter := 141 } }
    ready (two 0 tailRead) = true ∧ ready (two 1 tailRead) = true ∧ ready (two 1 { tailRead with bits := [] }) = true ∧
    (tailRead.pulse .narrow 115 116 1000).2 =
      some { position := 100, direction := .forward, origin := .read, kind := .coded 0xFF } ∧
    (preambleRead.pulse .narrow 115 114 1000).2 =
      some { position := 105, direction := .reverse, origin := .read, kind := .anonymous } ∧
    ready (back 1) = true ∧ ready (back 2) = true ∧ ready (coming 100) = true ∧ ready (coming 105) = true ∧
    ((100 : Int) - 102).natAbs ≤ 2 ∧ ¬ ((105 : Int) - 102).natAbs ≤ 2 ∧ ready lost = true ∧ (141 : Int) + 1 = 102 + 40 ∧
    (lost.marks.decoder.pulse .narrow 141 142 1000).2 = none ∧ ready (going .windFwd .wind 2000 0) = true ∧ ready (going .windFwd .wind 1001 0) = true ∧
    40 * 25 < ((2000 : Int) - 1).natAbs ∧ ((1001 : Int) - 1).natAbs ≤ 40 * 25 ∧ ready (going .windFwd .search 1 2) = true ∧
    ready (going .windFwd .search 1 3) = true ∧ ready (going .searchFwd .search 1 0) = true ∧
    (going .searchFwd .search 1 0).transport.change = none ∧ (going .searchFwd .search 1 0).power.transition = .none := by
  decide +kernel

theorem witness_GotoEndsDone :
    let s := { going .searchFwd .landing 1 0 with
      transport := { (deck .searchFwd).transport with change := some (.servo .still), target := some .still }
      nav := { Navigation.cold with goto := { Goto.idle with active := true, form := .counter 1, final := .still } } }
    let stopping := { going .unthreading .landing 1 0 with
      transport := (moving .unthreading (some (.mech .unthreading)) (some .stop)).transport }
    ready stopping = true ∧ stopping.nav.goto.final = .stop ∧ stopping.transport.target = some .stop ∧ stopping.sched = .cold ∧
    stopping.nav.goto.phase = .landing ∧ stopping.transport.recovering = false ∧ ready s = true ∧ s.sched = .cold ∧ s.nav.goto.phase = .landing ∧ s.nav.goto.owner = .host ∧ s.nav.goto.final.mode = .still := by
  decide +kernel

theorem witness_GotoEndsEarly : ready (deck .play) = true ∧ (deck .play).nav.goto.active = false ∧
    ready (going .windFwd .wind 2000 0) = true ∧ (going .windFwd .wind 2000 0).transport.resetInFlight = false ∧
    (going .windFwd .wind 2000 0).nav.goto.untracked ≤ 10 * 12288000 ∧ Mode.windFwd.motion = true := by
  decide +kernel

/-- A watch on a counter value. -/
def watchAt (v : Int) (count : Nat) (again : Bool) : Watch :=
  { kind := .counter v .both, side := .unknown, action := .still, setCount := 2, count := count, again := again, fires := 0 }

def watched (count : Nat) (again : Bool) : State :=
  { deck .play with
    mech := .operator .direct
    nav := { Navigation.cold with watches := (List.replicate 8 none).set 7 (some (watchAt 1 count again)) } }

theorem witness_WatchTable : ready (deck .empty) = true ∧ ready (deck .play) = true ∧ ready (watched 1 false) = true ∧
    ((watched 1 false).nav.watches[8 - 1]?).join = some (watchAt 1 1 false) ∧ ((deck .play).nav.watches[1 - 1]?).join = none := by
  decide +kernel

/-- One watch of a kind in place 8, the decoder about to give a coded mark, an estimate standing. -/
def watching (m : Mode) (k : WatchKind) (side : Side) : State :=
  { deck m with
    mech := .operator .direct
    marks := { CueMarks.cold with decoder := tailRead }
    tape := { TapePosition.cold with
      cls := some .c120, fraction := some 6667, held := true, supply := reel [3325, 3325, 3325] .collecting 0
      takeUp := reel [2518, 2518, 2518, 2519] .valid 10073 }
    nav := { Navigation.cold with
      watches := (List.replicate 8 none).set 7 (some { watchAt 1 1 false with kind := k, side := side }) } }

/-- The next pulse of its supply reel makes an estimate computation. -/
theorem estimateDue_watching : EstimateDue (watching .play (.remain 9000) .above) .supply 3326 :=
  ⟨by decide, by decide, by decide, by decide, by decide, by decide, fun o h => by cases o <;> first | rfl | exact absurd rfl h, by decide,
    by decide⟩

theorem witness_CounterWatchFires :
    let remain := fun (threshold : Nat) (side : Side) => watching .play (.remain threshold) side
    ready (watching .play .markAny .unknown) = true ∧ ready (watching .play (.markCoded { code := 1, mask := 1 }) .unknown) = true ∧
    ((watching .play .markAny .unknown).marks.decoder.pulse .narrow 0 1 1000).2 =
      some { position := 100, direction := .forward, origin := .read, kind := .coded 0xFF } ∧
    ready (watching .record .markAny .unknown) = true ∧
    ready (remain 4800 .above) = true ∧ ready (remain 9601 .above) = true ∧ ready (remain 9601 .unknown) = true ∧
    (remain 9601 .above).remaining .long = some 9600 ∧ (remain 9601 .above).transport.recordSpeed = .standard ∧
    (remain 9601 .above).sched = .cold ∧ ready (watched 1 true) = true ∧ ready (watched 1 false) = true ∧ ready (watched 2 true) = true ∧
    (watched 2 true).power.transition = .none ∧ (watched 2 true).nav.goto.active = false ∧
    ((watched 2 true).nav.watches[8 - 1]?).join = some (watchAt 1 2 true) ∧ Mode.play.direction = some .forward ∧
    (watched 2 true).link.line = none ∧ (watched 2 true).link.flow = true ∧
    (∀ i, i < 7 → ((watched 2 true).nav.watches[i]?).join = none) := by
  decide +kernel

theorem witness_RunLoaded :
    let part := fun (k n : Nat) => { deck .stop with
      link := { Link.cold with assembly := some { endAction := 1, total := n, segments := List.replicate k ⟨0, 5⟩ } } }
    ready (part 8 12) = true ∧ ready (part 1 2) = true ∧ 8 + 4 = 12 ∧ (part 8 12).link.assembly.isSome = true ∧
    12 < (13 : Byte).toNat ∧ ((part 8 12).link.assembly.all fun a => decide ((8 : Byte).toNat ≠ a.segments.length + 1)) = true ∧
    let l : List SegmentWord := List.replicate 8 ⟨0, 899999⟩
    ready (deck .empty) = true ∧ ready (deck .stop) = true ∧ l.length = 8 ∧
    (l.any fun g => (deck .stop).outOfRange g.start.toInt || (deck .stop).outOfRange g.stop.toInt) = false ∧
    (deck .stop).outOfRange ((900000 : Word24).toInt) = true ∧ (deck .stop).nav.run.state.active = false := by
  decide +kernel

/-- A segment list loaded, and a run of it in a state. -/
def running (m : Mode) (st : RunState) (c : MechClaim) : State :=
  { deck m with
    mech := c
    nav := { Navigation.cold with run :=
      { Run.cold with segments := [{ start := 5, stop := .counter 9 }, { start := 20, stop := .counter 1 }], state := st,
                      endAction := some .stop } } }

theorem witness_RunStarts : calm (running .stop .idle .free) = true ∧ calm (running .still .idle .free) = true ∧
    firstFailing (moveChecks (running .stop .idle .free)) = none ∧
    (running .stop .idle .free).nav.run.segments.head? = some { start := 5, stop := .counter 9 } ∧ (5 : Int) ≠ 0 := by
  decide +kernel

theorem witness_RunEnds : ready (deck .stop) = true ∧ (deck .stop).nav.run.state.active = false ∧
    ready (running .play (.playing 2) (.operator .run)) = true ∧ (running .play (.playing 2) (.operator .run)).power.transition = .none ∧
    (running .play (.playing 2) (.operator .run)).nav.run.segments[2 - 1]? = some { start := 20, stop := .counter (0 + 1) } ∧
    (running .play (.playing 2) (.operator .run)).nav.run.track ≤ 10 * 12288000 := by
  decide +kernel

/-- A preset with nothing but a frequency and a skip flag. -/
def station (f : Nat) (skip : Bool) : Preset :=
  { frequency := f, fineTune := 0, aft := true, skip := skip, lock := false, label := [] }

/-- Presets 1, 2, 5 and 9 used, preset 2 skip-flagged, the tuner in a state on a preset (R98's example). -/
def tuned (n : Nat) (st : TunerState) : State :=
  { deck .stop with tuner := { Tuner.cold with
      selection := .preset n, state := st, base := some 5000, aftInUse := true, tuningStart := 1000, aftSince := 1000, recheckSince := 1000
      presets := (((Tuner.cold.presets.set 0 (some (station 900 false))).set 1 (some (station 1000 true))).set 4
        (some (station 2000 false))).set 8 (some (station 17200 false)) } }

theorem witness_TuneServed :
    let s := tuned 9 .locked
    let scanning := { s with tunerOf := .scan, scan := { Scan.cold with state := .stepping, step := some 900, current := some 900 } }
    ready s = true ∧ firstFailing [(false, Status.range), (s.inStandby, .notReady), (s.tunerOf.isTimer, .busyTimer), (false, .noSuch)] = none ∧
    firstFailing [(true, Status.range), (s.inStandby, .notReady)] = some .range ∧ s.tuner.presets.length = 99 ∧ s.eligible 1 = true ∧
    (∀ k, k ≤ 99 → s.eligible k → (1 + 98 - 9) % 99 ≤ (k + 98 - 9) % 99) ∧
    (∀ k, k ≤ 99 → s.eligible k → (9 + 98 - 5) % 99 ≤ (9 + 98 - k) % 99) ∧ s.eligible 5 = true ∧
    ready (deck .stop) = true ∧ (∀ k, k ≤ 99 → (deck .stop).eligible k = false) ∧ ready scanning = true := by
  decide +kernel

theorem witness_TunerFollowsSignal :
    let failing := { tuned 9 .locked with tuner := { (tuned 9 .locked).tuner with failSince := some 1000 } }
    ready (tuned 9 .tuning) = true ∧ (tuned 9 .tuning).scan.state = .idle ∧ (tuned 9 .tuning).tuner.settled = false ∧
    (tuned 9 .tuning).now ≤ 1000 + 100 * 12288 ∧ ready failing = true ∧ failing.now ≤ 1000 + 500 * 12288 ∧
    ready (tuned 0 .noSignal) = true := by
  decide +kernel

theorem witness_AftCorrects :
    let s := fun c => { tuned 9 .locked with tuner := { (tuned 9 .locked).tuner with correction := c } }
    ready (s 8) = true ∧ ready (s (-8)) = true ∧ ((-8 : Int)).natAbs ≤ 8 ∧ (s 8).tuner.aftInUse = true ∧
    (s 8).now ≤ 1000 + 200 * 12288 ∧ (s 8).tuner.base = some 5000 := by
  decide +kernel

theorem witness_PresetTable :
    let s := { tuned 1 .locked with tunerOf := .timer (.program 1) }
    ready (tuned 1 .locked) = true ∧ ready s = true ∧ s.tuner.presets.length = 99 ∧ s.preset 1 = some (station 900 false) ∧
    s.preset 99 = none ∧ s.references 1 = 0 ∧ ¬ ((99 : Byte).toNat < 1 ∨ 99 < (99 : Byte).toNat) ∧
    ¬ ((17200 : Word16).toNat < 900 ∨ 17200 < (17200 : Word16).toNat ∨ 7 < (7 : Byte).toNat ∨ 6 < (6 : Byte).toNat) ∧
    17200 < (17201 : Word16).toNat ∧ 63 < (64 : Byte).toNat := by
  decide +kernel

/-- A scan in flight. -/
def scanning (st : ScanState) (f c strength : Nat) (best : Option (Nat × Nat)) : State :=
  { deck .stop with
    tunerOf := .scan
    pins := { Pins.cold with strength := BitVec.ofNat 4 strength }
    scan := { Scan.cold with
      state := st, step := some f, current := some c, window := some (f - 20, min (f + 20) 17200), best := best, dwellStart := 1000,
      found := [(1004, 11)] } }

theorem witness_ScanServed : ready (deck .stop) = true ∧
    firstFailing [((deck .stop).inStandby, Status.notReady), ((deck .stop).tunerOf.isTimer, .busyTimer),
      ((deck .stop).scan.inFlight, .busy)] = none ∧
    (deck .stop).scan.resume = none ∧ ready { deck .stop with scan := { Scan.cold with resume := some 1306 } } = true ∧
    ready (scanning .stepping 1306 1306 0 none) = true ∧ (scanning .stepping 1306 1306 0 none).scan.state ≠ .idle := by
  decide +kernel

/-- A peak search about to conclude with a best of 12, the found list holding some entries 100 apart from 1,000 on. -/
def crowded (entries best : Nat) : State :=
  { scanning .peakSearch best (best + 20) 0 (some (best, 12)) with
    scan := { (scanning .peakSearch best (best + 20) 0 (some (best, 12))).scan with
      found := (List.range entries).map fun k => (1000 + 100 * k, 9) } }

theorem witness_ScanWalks :
    ready (scanning .stepping 17199 17199 5 none) = true ∧ ready (scanning .stepping 17200 17200 5 none) = true ∧
    ready (scanning .stepping 1000 1000 6 none) = true ∧ ready (scanning .peakSearch 1024 1043 9 (some (1004, 11))) = true ∧
    ready (scanning .peakSearch 1024 1044 9 (some (1004, 11))) = true ∧ ready (scanning .peakSearch 1179 1199 5 (some (1181, 9))) = true ∧
    ready (scanning .peakSearch 1179 1199 5 (some (1181, 4))) = true ∧
    (scanning .peakSearch 1179 1199 5 none).now ≤ 1000 + 60 * 12288 ∧
    ready (scanning .peakSearch 17200 17200 5 (some (17190, 4))) = true ∧ ready (scanning .peakSearch 17161 17181 5 (some (17180, 9))) = true ∧
    ready (scanning .peakSearch 17161 17181 9 (some (17180, 8))) = true ∧ ready (crowded 98 16000) = true ∧
    ready (crowded 98 2000) = true ∧ ready (crowded 97 16000) = true ∧ (crowded 98 0).scan.found.length = 98 ∧
    ((crowded 98 0).scan.found.all fun e => decide (e.1 + 20 ≤ 16000)) = true ∧
    (crowded 98 0).scan.found.any (fun e => !(decide (e.1 + 20 ≤ 2000) || decide (2000 + 20 ≤ e.1))) = true := by
  decide +kernel

theorem witness_ScanAdopts :
    let s := { deck .stop with scan := { Scan.cold with found := [(1004, 11)] } }
    ready s = true ∧ s.tuner.presets.length = 99 ∧ firstFailing [(decide (99 < (99 : Byte).toNat), Status.range),
      (s.scan.inFlight, .busy), (s.scan.found.isEmpty, .noSuch)] = none ∧
    firstFailing [(decide (99 < (100 : Byte).toNat), Status.range), (s.scan.inFlight, .busy)] = some .range ∧
    let on := fun (c : TunerClaim) => { tuned 9 .locked with tunerOf := c, scan := { Scan.cold with found := [(1004, 11)] } }
    ready (on .direct) = true ∧ ready (on (.timer (.program 1))) = true ∧ (on .direct).tuner.selection = .preset 9 ∧
    (on .direct).preset 9 = some (station 17200 false) ∧ (on .direct).references 9 = 0 ∧
    ((List.range 100).filter fun n => decide (9 ≤ n) && ((on .direct).preset n).all fun q => !q.lock).head? = some 9 := by
  decide +kernel

theorem witness_CalendarReadsBack : secondsOf { year := 99, month := 12, day := 31, hour := 23, minute := 59, second := 59 } = some 3155759999 ∧
    secondsOf { year := 0, month := 1, day := 1, hour := 0, minute := 0, second := 0 } = some 0 ∧
    secondsOf { year := 1, month := 2, day := 29, hour := 0, minute := 0, second := 0 } = none := by
  decide +kernel

/-- The occurrence after the window of minutes 100 to 130, and the one ahead of time 10. -/
theorem nextOccurrence_daily : NextOccurrence { program .armed 100 with pattern := .daily } 7741 ((100 + 30) * 60) 1540 ∧
    NextOccurrence { program .armed 100 with pattern := .daily } 10 0 100 := by
  refine ⟨⟨by decide, fun k h => ?_⟩, ⟨by decide, fun k h => ?_⟩⟩ <;>
    simp only [Program.mayStart, program, Bool.and_eq_true, beq_iff_eq, decide_eq_true_eq] at h <;> omega

theorem witness_ClockServed :
    let due := programmed .stop .armed 100 0 none
    let daily := { due with sched := { Scheduler.cold with
      slots := (List.replicate 16 none).set 15 (some { program .armed 100 with pattern := .daily }) } }
    let held := { due with mech := .protect .stall }
    7741 + 120 < 1540 * 60 ∧ 10 + 120 < 100 * 60 ∧
    ready daily = true ∧ daily.programActive = false ∧ (daily.withSlot 16 none).sched = .cold ∧
    ready held = true ∧ held.mech.isProtect = true ∧ (held.withSlot 16 none).sched = .cold ∧ 100 * 60 ≤ 7740 ∧
    7740 + 60 ≤ (100 + 30) * 60 ∧ calm (deck .stop) = true ∧ ready due = true ∧ due.programActive = false ∧ due.program 16 = some (program .armed 100) ∧
    (100 + 30) * 60 < 7741 + 60 ∧ secondsOf { year := 0, month := 1, day := 1, hour := 2, minute := 9, second := 1 } = some 7741 ∧
    ready (programmed .stop .recording 100 0 none) = true ∧ (programmed .stop .recording 100 0 none).programActive = true ∧
    (deck .stop).clock.setting = .auto ∧ (deck .stop).clock.sinceBoundary < 12288000 ∧
    ready { deck .stop with clock := { Clock.cold 0 with setting := .crystal, reading := .hz60 } } = true := by
  decide +kernel

theorem witness_SecondsCounted :
    let s := fun k t => { deck .stop with clock := { Clock.cold 1000 with
      source := .mains, reading := .hz50, cycleCount := some k, windowCount := 53, time := t } }
    calm (s 48 0) = true ∧ calm (s 49 3155759999) = true ∧ MainsReading.cycles .hz50 = some 50 ∧ calm (deck .stop) = true ∧
    (deck .stop).clock.source = .crystal ∧ (deck .stop).clock.windowStart = some 1000 ∧ (deck .stop).now ≤ 1000 + 12288000 := by
  decide +kernel

theorem witness_ProgramsServed :
    let s := { deck .stop with clock := { Clock.cold 0 with set := true } }
    let held := fun (m : Mode) (st : SlotState) => ({ programmed m st 10 700 (some (.fresh 16 .running false true none)) with
      mech := .timer (.program 16), tunerOf := .timer (.program 16) } : State)
    let stopping := { moving .unthreading (some (.mech .unthreading)) (some .stop) with
      mech := .timer (.program 3), tunerOf := .timer (.program 3), sched := { Scheduler.cold with abortStop := some 3 } }
    ready (held .record .recording) = true ∧ only [16] (held .record .recording) = true ∧
    (held .record .recording).transport.target = none ∧ ready (held .stop .cueing) = true ∧ only [16] (held .stop .cueing) = true ∧
    ready stopping = true ∧ { stopping.sched with abortStop := none } = Scheduler.cold ∧ stopping.nav = .cold ∧
    ready (programmed .stop .deferred 100 0 none) = true ∧
    ready (deck .stop) = true ∧ ready s = true ∧ s.sched.slots.length = 16 ∧ s.sched = .cold ∧
    secondsOf { year := 0, month := 1, day := 1, hour := 0, minute := 3, second := 0 } = some 180 ∧ s.clock.time + 120 < 180 ∧
    ready (programmed .stop .armed 100 0 none) = true ∧ (programmed .stop .armed 100 0 none).program 16 = some (program .armed 100) ∧
    ((programmed .stop .armed 100 0 none).withSlot 16 none).sched = .cold ∧ ready (programmed .stop .cueing 100 0 none) = true ∧
    ready (programmed .stop .done 100 0 none) = true := by
  decide +kernel

/-- A second program, in slot 1. -/
def joined (q : Program) (s : State) : State := s.withSlot 1 (some q)

/-- The TIMER class holds both claims for slot 16. -/
def timed (s : State) : State := { s with mech := .timer (.program 16), tunerOf := .timer (.program 16) }

/-- A state whose next second brings minute 10. -/
def minuteTen (s : State) : Bool :=
  ready s && s.sched.slots.length == 16 && decide (s.clock.source = .crystal) && decide (s.clock.sinceBoundary ≤ 12288000) &&
    decide (s.clock.time + 1 = 600) && !s.nav.goto.active && !s.nav.run.state.active

theorem witness_ProgramCuesUp :
    let with_ := fun (f : Transport → Transport) (s : State) => { s with transport := f s.transport }
    let cued := fun (m : Mode) => timed (programmed m .cueing 10 599 (some (.fresh 16 .preparing false false none)))
    let starting := with_ fun t => { t with change := some (.servo .recPause), target := some .recPause }
    let urgent := { program .armed 10 with priority := 2 }
    let waits := fun (c : DeferralCause) (next : Nat) => { program .deferred next with deferral := some c }
    let recording := timed (programmed .record .recording 5 599 (some (.fresh 16 .running false true none)))
    let late := timed (starting (programmed .still .cueing 5 599 (some (.fresh 16 .starting false true none))))
    let earlier := timed (starting (programmed .still .cueing 11 599 (some (.fresh 16 .preparing false false none))))
    -- a head at its start
    minuteTen (cued .empty) = true ∧ only [16] (cued .empty) = true ∧ (cued .empty).program 16 = some (program .cueing 10) ∧
    minuteTen (cued .loading) = true ∧ minuteTen (cued .recPause) = true ∧
    minuteTen (with_ (fun t => { t with recordTab := false }) (cued .stop)) = true ∧
    minuteTen (with_ (fun t => { t with dew := true }) (cued .stop)) = true ∧
    minuteTen { cued .stop with mech := .protect .stall } = true ∧ minuteTen (starting (cued .still)) = true ∧
    -- two that start together
    (let s := joined { program .armed 10 with priority := 0 } (programmed .stop .armed 10 599 none)
    minuteTen s = true ∧ only [16, 1] s = true ∧ s.mech = .free ∧ s.program 1 = some { program .armed 10 with priority := 0 }) ∧
    -- one that starts while another has the deck
    (let s := joined urgent recording
    minuteTen s = true ∧ only [16, 1] s = true ∧ s.program 16 = some (program .recording 5) ∧ 600 < (5 + 30) * 60) ∧
    minuteTen (joined (program .armed 10) recording) = true ∧
    minuteTen (with_ (fun t => { t with recordTab := false }) (joined urgent recording)) = true ∧
    minuteTen (with_ (fun t => { t with dew := true }) (joined urgent late)) = true ∧ minuteTen (joined urgent late) = true ∧
    minuteTen (joined urgent earlier) = true ∧ only [16, 1] (joined urgent earlier) = true ∧
    -- the deferred set
    (let s := { programmed .stop .done 5 599 none with
      sched := { Scheduler.cold with slots := (List.replicate 16 none).set 15 (some (waits .dew (10 - 30))) } }
    minuteTen s = true ∧ only [16] s = true) ∧
    (let s := joined (waits .dew 6) { programmed .stop .done 5 599 none with
      sched := { Scheduler.cold with slots := (List.replicate 16 none).set 15 (some (waits .overlap 5)) } }
    minuteTen s = true ∧ only [16, 1] s = true ∧ s.program 1 = some (waits .dew 6) ∧ 600 + 60 ≤ (5 + 30) * 60) ∧
    -- a cue-up
    let s := programmed .stop .armed 12 599 none
    ready s = true ∧ s.transport.recordTab = true ∧ (s.clock.time + 1) % 60 = 0 ∧ (s.withSlot 16 none).sched = .cold ∧
    s.clock.time + 1 < 12 * 60 ∧ 12 * 60 ≤ s.clock.time + 121 ∧ s.clock.source = .crystal ∧ s.clock.sinceBoundary ≤ 12288000 ∧
    s.mech = .free ∧ s.tunerOf = .free := by
  decide +kernel

/-- FIT in RECORD, with an estimate computation at the next pulse of the supply reel. -/
def fitting (pending : Bool) (since : Option Nat) (v : Speed) : State :=
  { timed (programmed .record .recording 10 700
      (some { Active.fresh 16 .running false true none with choicePending := pending, lastFit := since })) with
    transport := { (deck .record).transport with recordClass := some v }
    tape := { TapePosition.cold with
      cls := some .c120, fraction := some 6667, supply := reel [3325, 3325, 3325] .collecting 0, held := true
      takeUp := reel [2518, 2518, 2518, 2519] .valid 10073 }
    sched := { Scheduler.cold with
      active := some { Active.fresh 16 .running false true none with choicePending := pending, lastFit := since }
      slots := (List.replicate 16 none).set 15 (some { program .recording 10 with speedMode := .fit }) } }

theorem estimateDue_fitting : EstimateDue (fitting true none .standard) .supply 3326 :=
  ⟨by decide, by decide, by decide, by decide, by decide, by decide, fun o h => by cases o <;> first | rfl | exact absurd rfl h, by decide,
    by decide⟩

theorem witness_ProgramRecords :
    let hold := fun s : State => { s with mech := .timer (.program 16), tunerOf := .timer (.program 16) }
    let entering := (moving .record (some (.servo .recPause)) (some .recPause)).transport
    let unthreading := (moving .unthreading (some (.mech .unthreading)) (some .stop)).transport
    let changing := fun (r : ChangeReason) => hold { programmed .record .recording 10 700
      (some { Active.fresh 16 .changing false true none with reason := some r, speedToEnter := some .long }) with transport := entering }
    let known := { TapePosition.cold with cls := some .c120, fraction := some 6667, held := true }
    let fit := { changing .takeover with tape := known, sched := { (changing .takeover).sched with
      slots := (List.replicate 16 none).set 15 (some { program .recording 10 with speedMode := .fit }) } }
    let ahead := hold (programmed .recPause .cueing 20 700 (some (.fresh 16 .preparing false false none)))
    let ended := hold (programmed .record .recording 10 2399 (some (.fresh 16 .running false true none)))
    let lost := { ended with transport := { ended.transport with lockLostAt := some 900 } }
    let waits := { program .deferred 10 with deferral := some .overlap }
    let resuming := { programmed .stop .deferred 10 700 none with transport := unthreading, mech := .protect .stall }
    -- REC_PAUSE reached
    ready (changing .takeover) = true ∧ ready (changing .handOver) = true ∧ ready (changing .fit) = true ∧
    only [16] (changing .fit) = true ∧ ready fit = true ∧ fit.estimate = some (6667, .c120) ∧
    (fit.remaining .standard).any (fun r => decide ((10 + 30) * 60 - 700 + 30 ≤ r)) = true ∧
    ready { fit with tape := { known with fraction := some 100 } } = true ∧
    ready { fit with tape := TapePosition.cold } = true ∧
    -- FIT at an estimate
    ready (fitting true none .standard) = true ∧ ready (fitting false (some 641) .long) = true ∧
    ready (fitting false (some 640) .extended) = true ∧ only [16] (fitting false none .standard) = true ∧
    -- protections
    ready lost = true ∧ lost.now ≤ 900 + seconds 1 ∧ ready ahead = true ∧ only [16] ahead = true ∧
    ready (hold (programmed .stop .cueing 10 700 (some (.fresh 16 .starting false true none)))) = true ∧
    -- the window's end
    ready (joined { program .armed 40 with priority := 0 } ended) = true ∧ ready (joined (program .armed 42) ended) = true ∧
    ready (joined { waits with next := 35 } ended) = true ∧ only [16, 1] (joined { waits with next := 35 } ended) = true ∧
    2400 + 60 ≤ (35 + 30) * 60 ∧ 42 * 60 = 2400 + 120 ∧
    -- the release of a PROTECT claim
    ready resuming = true ∧ only [16] resuming = true ∧ resuming.transport.rewindDue = false ∧
    ready { hold { programmed .stop .cueing 20 700 (some { Active.fresh 16 .preparing false false none with mechWait := true }) with
      transport := unthreading } with mech := .protect .stall } = true ∧
    let starting := hold { programmed .still .cueing 10 600 (some (.fresh 16 .starting false true none)) with
      transport := (moving .still (some (.servo .recPause)) (some .recPause)).transport }
    let recording := fun t => hold (programmed .record .recording 10 t (some (.fresh 16 .running false true none)))
    ready starting = true ∧ starting.program 16 = some (program .cueing 10) ∧ ready (recording 700) = true ∧
    ready (recording 2399) = true ∧ (2399 + 1) % 60 = 0 ∧ (10 + 30) * 60 = 2399 + 1 ∧ (700 + 1) % 60 ≠ 0 ∧
    (∀ k, k ≤ 16 → k ≠ 16 → ((recording 700).program k).all fun q => q.state == .done) := by
  decide +kernel

/-- A part in a power state and a transition. -/
def powered (m : Mode) (st : PowerState) (tr : Transition) : State :=
  { deck m with power := { Power.cold 0 with state := st, transition := tr } }

theorem witness_PowerServed :
    ready (programmed .record .recording 10 700 none) = true ∧ ready (powered .stop .standby .none) = true ∧
    ready (powered .play .operating (.stopping .host)) = true ∧ ready (powered .stop .standby (.waking .timer)) = true ∧
    (powered .stop .standby (.waking .timer)).now ≤ 0 + 3 * 12288000 ∧ calm (deck .stop) = true ∧ calm (deck .play) = true ∧
    (deck .play).scan.state = .idle ∧ (deck .play).sched = .cold := by
  decide +kernel

theorem witness_MainsFails :
    let b := powered .stop .backup .none
    calm (deck .play) = true ∧ (deck .play).now ≤ (deck .play).power.lastCycle + 60 * 12288 ∧
    ({ deck .play with pins := { Pins.cold with supply := .low } } : State).power.state ≠ .backup ∧ b.power.state = .backup ∧
    b.power.domainKept = true ∧ b.power.qualSince = none ∧ b.now < b.power.lastCycle + 60 * 12288 ∧
    ({ b with power := { b.power with qualSince := some 1000 } } : State).now ≤ b.power.lastCycle + 60 * 12288 := by
  decide +kernel

theorem witness_MainsReturns :
    let b := fun kept => { powered .stop .backup .none with
      power := { Power.cold 0 with state := .backup, mains := false, qualSince := some 1000 }
      transport := { Transport.cold with keptThreaded := kept } }
    (b true).power.domainKept = true ∧ (b true).pins.supply = .normal ∧ (b true).sched = .cold ∧ (b true).mech = .free ∧
    (b false).now ≤ 1000 + 2 * 12288000 ∧ (b false).transport.keptThreaded = false ∧ (b false).transport.keptCassette = false := by
  decide +kernel

/-- A link with entries queued and OVERRUN replies waiting, a dispatched reply on the line. -/
def busyLink (entries overruns : Nat) : State :=
  { deck .stop with link := { Link.cold with
      input := List.replicate entries { body := [0x14], good := true }
      replies := List.replicate overruns (errorFrame .overrun .overrun 0x14)
      line := some (replyFrame .ident { status := .ok }) } }

theorem witness_LinkServed :
    ready (deck .stop) = true ∧ (List.replicate 59 (0 : Byte)).length ≤ 59 ∧ RequestKind.ofByte 0x77 = none ∧
    RequestKind.ofByte 0x10 = some .motion ∧ RequestKind.motion.admitsLength 2 = false ∧
    requestOf (.motion 9) = some (.motion, [9]) ∧ (busyLink 3 0).link.replyOutstanding = true ∧ (busyLink 4 3).link.input.length = 4 ∧
    (busyLink 4 3).link.replies.countP (fun f => f.origin == .overrun) < 4 ∧
    4 ≤ (busyLink 4 4).link.replies.countP (fun f => f.origin == .overrun) ∧
    (busyLink 0 1).link.replies.head? = some (errorFrame .overrun .overrun 0x14) ∧ (busyLink 0 0).link.replies = [] ∧
    (busyLink 0 0).link.input = [] ∧ (busyLink 0 0).link.flow = true := by
  decide +kernel

theorem witness_BytesDeliverTheFrame :
    (deck .stop).link.receiver = .hunt ∧ chooseFrame (deck .stop) = deck .stop ∧ requestOf (.motion 9) = some (.motion, [9]) ∧
    (0 : Byte) ≠ goodCheck [0x10, 9] ∧
    (deck .stop).now ≤ ({ Link.cold with receiver := .length } : Link).lastByte + 20 * 12288 := by
  decide +kernel

theorem witness_ReadsServed : ready (deck .play) = true := by decide +kernel

theorem linkSound_reset : LinkSound State.reset.link := ⟨by decide, by decide, by decide, by decide⟩

theorem witness_SoundKept : Sound State.reset ∧ CounterInRange State.reset ∧ (∃ t, step State.reset = .next t ∧
    t.settings.frameRate = State.reset.settings.frameRate) ∧ ∃ t, step { State.reset with pending := [.powerOperate] } = .next t :=
  ⟨⟨linkSound_reset, by decide, by decide, by decide, by decide, by decide, by decide, by decide, by decide, by decide, by decide,
    by decide⟩, Nat.zero_le _, ⟨_, rfl, rfl⟩, ⟨_, rfl⟩⟩

theorem witness_LinkSoundKept : LinkSound State.reset.link ∧ ∃ t, step State.reset = .next t := ⟨linkSound_reset, _, rfl⟩

/-! ### Steps and figures of the manual's worked cases -/

/-- The state after a command, or the same state where the command stops. -/
def after (c : Instr) (s : State) : State :=
  match exec c s with
  | .next t => t
  | .fault _ | .refused _ => s

/-- R37 to R39, the worked case of chapter 2: a 120-class cassette, 40 minutes from its start. -/
theorem test_worked_estimate : identificationSum 13301 10073 1 = 278382 ∧ classBand 278382 = some .c120 ∧
    supplyFraction 13301 10073 CassetteClass.c120.hubShare = 6667 ∧
    [1, 2, 3].map (remainingTime 6667 .c120) = [4800, 9600, 14401] ∧ [1, 2, 3].map (elapsedTime 6667 .c120) = [2400, 4800, 7199] := by
  decide +kernel

/-- R3: the search speed of a tape recorded at class 1 is 7 × 32 mm/s, 672 thirds of 1 mm/s. -/
theorem test_search_speed : (deck .searchRev).capstan = .drawing .reverse 672 ∧ (deck .unthreading).drum = .runningDown ∧
    { deck .unthreading with power := Power.cold 0 }.drum = .off := by
  decide

/-- R167's worked case: 150 minutes from the start minute on the tape of 6,667 take LONG. -/
theorem test_fit_choice :
    let s := { deck .recPause with
      tape := { TapePosition.cold with cls := some .c120, fraction := some 6667 }, clock := { Clock.cold 0 with time := 600 } }
    s.chooseSpeed { program .cueing 10 with duration := 150, speedMode := .fit } = { speed := .long, short := false, pending := false } := by
  decide +kernel

/-- R125: 2000-03-01 has the day number 7,365 and is a Wednesday. -/
theorem test_day_of_week : dayOfDate { year := 20, month := 3, day := 1 } = 7365 ∧ weekday 7365 = 3 := by decide

/-- R98's example: STEP_UP from 9 takes 1; STEP_DOWN from 1 takes 9, and from 5 takes 1. -/
theorem test_steps : (tuned 9 .locked).stepUp = some 1 ∧ (tuned 1 .locked).stepDown = some 9 ∧ (tuned 5 .locked).stepDown = some 1 := by
  decide +kernel

/-- R142's table: the DAILY program of 20 minutes written at 2024-11-08 21:50:20 starts on the next day at 21:30. -/
theorem test_occurrence :
    let at_ := fun (d h m s : Nat) => dayOfDate { year := 44, month := 11, day := d } * 86400 + h * 3600 + m * 60 + s
    occurrenceSearch .daily (at_ 1 21 30 0 / 60) 20 (at_ 8 21 50 20) (some { at_ := at_ 1 21 30 0, carried := false }) =
      (at_ 9 21 30 0 / 60, false) := by
  decide +kernel

/-- R131's worked case: a crystal phase of 8,000 ticks is handed to a mains of 50 Hz as 12 cycles. -/
theorem test_handover :
    let s := { deck .stop with clock := { Clock.cold 0 with setting := .crystal, reading := .hz50, sinceBoundary := 8000 * 375 } }
    (after (.clockSource 1) s).clock.cycleCount = some 12 := by
  decide +kernel

/-- R120's worked case: five entries adopted from preset 1 on, in both modes. -/
def adopting : State :=
  let free := fun (f : Nat) => some (station f false)
  let locked := some { station 950 false with lock := true }
  let presets := (((Tuner.cold.presets.set 0 locked).set 1 (free 950)).set 3 (free 950)).set 6 (free 950)
  let slots := (List.replicate 16 none).set 0 (some { program .armed 100 with preset := 2 })
  let found := [(1004, 9), (1181, 9), (3562, 9), (4810, 9), (9625, 9)]
  { deck .stop with
    tuner := { Tuner.cold with presets := presets }, sched := { Scheduler.cold with slots := slots }, scan := { Scan.cold with found := found } }

def frequencies (s : State) : List Nat := (List.range 9).map fun k => (s.preset (k + 1)).elim 0 (·.frequency)

theorem test_adopt_replace : frequencies (after (.scanAdoptReplace 1) adopting) = [950, 950, 1004, 1181, 3562, 4810, 9625, 0, 0] := by
  decide +kernel
theorem test_adopt_append : frequencies (after (.scanAdoptAppend 1) adopting) = [950, 950, 1004, 950, 1181, 3562, 950, 4810, 9625] := by
  decide +kernel

/-- R4: MOTION PLAY in STOP begins THREADING. -/
theorem test_motion_threads : (after (.motion 9) (deck .stop)).transport.change = some (.mech .threading) := by decide +kernel

/-- R5 check 4: a TIMER holder refuses a MOTION request BUSY_TIMER. -/
theorem test_motion_busy : (after (.motion 9) { deck .stop with mech := .timer (.program 1) }).link.line =
    some { origin := .dispatched, kind := 0x50, payload := [0x10] } := by
  decide +kernel

/-- R207: of ten segments RUN_READ carries eight from the second, two from the ninth, and none at an index equal to their number. -/
theorem test_run_read_parts :
    let s := { deck .stop with nav.run.segments := (List.range 10).map fun i => { start := i, stop := .nextMark } }
    let items := fun first : Byte => (after (.runRead first) s).link.line.map fun f => (f.payload.length - 7, f.payload.getD 9 0)
    items 2 = some (8 * 6, 1) ∧ items 9 = some (2 * 6, 8) ∧ items 10 = some (0, 0) := by
  decide +kernel

/-- R197, R198: the four bytes of IDENT, and the reply of R205 on the line. -/
theorem test_ident_bytes : frameBytes [1] (goodCheck [1]) = [0xC3, 1, 1, 0xFE] ∧
    (after (.byteReceived 0xFE true) (after (.byteReceived 1 true) (after (.byteReceived 1 true)
      (after (.byteReceived 0xC3 true) (deck .stop))))).link.line =
        some { origin := .dispatched, kind := 0x41, payload := [0, 0x2E, 0x61, 0x12, 0x0C, 2] } := by
  decide +kernel

/-- R34's worked case: the fifth computation in one band makes the class 120, and the first estimate comes with it. -/
theorem test_class_identified :
    let s := after (.reelPulse .supply 3325) (identifying 4 none)
    s.tape.cls = some .c120 ∧ s.tape.origin = .identified ∧ s.tape.fraction = some 6667 := by
  decide +kernel

/-- R42: the counter is held at its bound and the quality becomes DRIFTED. -/
theorem test_counter_bound :
    let s := after (.controlPulseRead .narrow) { deck .play with tape := { TapePosition.cold with counter := 899999 } }
    s.tape.counter = 899999 ∧ s.tape.quality = .drifted := by
  decide +kernel

/-- R48, R55, R57: the pulses of a mark of code 0xA5 read back forward. -/
theorem test_mark_forward :
    (decodeAll 1 0 (markShapes 0xA5) { Decoder.off with state := .hunt } 99).2 =
      [{ position := 100, direction := .forward, origin := .read, kind := .coded 0xA5 }] := by
  decide +kernel

/-- R19, R48: the first pulse of a mark is written wide. -/
theorem test_mark_pulse : (after .controlPulseWrite (writing 1)).pins.written = some .wide := by decide +kernel

/-- R115's worked case: a find at 1,004 that ties with the entry there is discarded, and the walk goes on from 1,029. -/
theorem test_tied_find :
    let s := after .peakDwellEnd (scanning .peakSearch 1024 1044 3 (some (1004, 11)))
    s.scan.found = [(1004, 11)] ∧ s.scan.step = some 1029 := by
  decide +kernel

/-- R194: the gap reaches 60 ms, and the part is in BACKUP at that time. -/
theorem test_mains_loss : (after .mainsLoss (deck .play)).power.state = .backup ∧ (after .mainsLoss (deck .play)).now = 60 * 12288 := by
  decide +kernel

/-- R195: LOW and then NORMAL in BACKUP with a cycle 59.9 ms ago starts the qualification; with a gap of 60 ms it waits for a cycle. -/
theorem test_supply_returns :
    let back := fun (now : Nat) => after (.supplyMonitorChange .normal)
      { after (.supplyMonitorChange .low) (after .mainsCycle (powered .stop .backup .none)) with now := now }
    (back (1000 + 60 * 12288 - 1)).power.qualSince = some (1000 + 60 * 12288 - 1) ∧ (back (1000 + 60 * 12288)).power.qualSince = none ∧
    (after .mainsCycle (back (1000 + 60 * 12288))).power.qualSince = some (1000 + 60 * 12288) := by
  decide +kernel

/-- R126: the second after 2079-12-31 23:59:59 is 1980-01-01 00:00:00. -/
theorem test_wrap :
    (after .secondBoundary { deck .stop with clock := { Clock.cold 0 with time := 3155759999 } }).clock.time = 0 := by
  decide +kernel

/-- R158: the wrap falls in BACKUP, and a DAILY program carried past the end of the calendar is searched again at the restore, from 1980: its
window of 00:00 to 00:30 is past, and the next is a day later. -/
theorem test_wrap_in_backup :
    let daily := { program .armed 0 with pattern := .daily, carried := true }
    let s := { powered .stop .backup .none with
      sched := { Scheduler.cold with slots := (List.replicate 16 none).set 15 (some daily) }
      clock := { Clock.cold 1000 with time := 3155759999, set := true } }
    let wrapped := after .secondBoundary s
    let t := after (.mainsRestore ⟨.out, false, false⟩) { wrapped with
      clock := { wrapped.clock with time := 3600 }, power := { wrapped.power with qualSince := some wrapped.now } }
    wrapped.clock.time = 0 ∧ t.power.state = .standby ∧ t.program 16 = some { daily with next := 1440, carried := false } := by
  decide +kernel

/-- R196: a cassette found at a cold start is loaded; with the supply LOW the part waits in BACKUP. -/
theorem test_cold_start :
    (after (.coldStart .normal ⟨.loaded, true, true⟩ false) (deck .play)).transport.mode = .loading ∧
    (after (.coldStart .low ⟨.loaded, true, true⟩ false) (deck .play)).power.state = .backup := by
  decide +kernel

end Sys2Proof.Tests
end

section
/-! What a step does with the queue, and the frame of the time that passes on an empty one. -/

namespace Sys2Proof.Machine

/-! ### Time -/

@[simp] theorem elapse_sinceBoundary (d : Nat) (s : State) :
    (elapse d s).clock.sinceBoundary = s.clock.sinceBoundary + d := rfl

/-- A span of time with no event in it touches the time and the track times of the go-to and the run alone (R71, R83, R128). -/
theorem elapse_keeps (d : Nat) (s : State) : KeepsBut [.time, .nav] s (elapse d s) := by
  refine ⟨fun p hp => ?_⟩
  cases p
  case time | nav => simp at hp
  case clock => rfl
  all_goals simp [SamePart]

/-! ### One step -/

theorem step_of_pending_cons {s : State} {c : Instr} {rest : List Instr} (h : s.pending = c :: rest) :
    step s = exec c { s with pending := rest } := by
  simp only [step, h]

theorem step_of_pending_nil {s : State} (h : s.pending = []) : step s = .next (elapse Config.crystalTick s) := by
  simp only [step, h]

/-- Settles O1: a step is defined by the two forms of the queue, and one crystal tick is 375 time units (R128). -/
theorem stepRunsTheFront : Obligations.StepRunsTheFront := by
  intro s
  refine ⟨fun _ _ => step_of_pending_cons, fun empty => ⟨elapse Config.crystalTick s, step_of_pending_nil empty, ?_⟩⟩
  exact ⟨elapse_now s _, elapse_sinceBoundary _ s, elapse_watches s _, congrArg (·.passCount) (elapse_marks s _),
    elapse_keeps _ s⟩

end Sys2Proof.Machine
end

section
/-! What the end of a deck event leaves as it is: the conditions that it watches for (R33, R38, R189, R192), the choice of the next frame,
and the notes that wait in the outbox through both. -/

namespace Sys2Proof.Machine

variable {b s t u : State}

/-! ### The conditions watched at the end of an event -/

/-- The identification of R33 is given up: count, candidate and the time of the last computation are cleared (log 39). -/
def forgetCandidate (s : State) : State :=
  { s with tape := { s.tape with idCount := 0, candidate := none, lastIdent := none } }

/-- An estimate waits to be held (R38). -/
def State.heldDue (s : State) : Bool :=
  s.transport.mode.motion && s.tape.fraction.isSome && !s.bothValid && !s.tape.held

theorem checkIdentifying_eq (s : State) : checkIdentifying s = if s.identifying then s else forgetCandidate s := rfl

theorem checkIdentifying_of_not (h : s.identifying = false) : checkIdentifying s = forgetCandidate s := by
  simp [checkIdentifying_eq, h]

theorem checkHeld_of_not (h : s.heldDue = false) : checkHeld s = s := by
  rw [State.heldDue] at h
  simp only [checkHeld, h, Bool.false_eq_true, if_false]

theorem checkHeld_of_due (h : s.heldDue = true) : checkHeld s = postTape { s with tape.held := true } := by
  rw [State.heldDue] at h
  simp only [checkHeld, h, if_true]

/-- Outside the motions nothing is held and nothing is identified (R33, R38). -/
theorem heldDue_of_not_motion (h : s.transport.mode.motion = false) : s.heldDue = false := by simp [State.heldDue, h]

theorem identifying_of_not_motion (h : s.transport.mode.motion = false) : s.identifying = false := by
  have hp : s.transport.mode ≠ .play := fun e => by rw [e] at h; cases h
  have hr : s.transport.mode ≠ .record := fun e => by rw [e] at h; cases h
  simp [State.identifying, hp, hr]

/-- Nothing that the end of an event watches for is due, each condition by itself. -/
structure Undue (s : State) : Prop where
  held    : s.heldDue = false
  ident   : s.identifying = true ∨ forgetCandidate s = s
  standby : ∀ r, s.power.state = .operating → s.power.transition = .stopping r → (s.quietForStandby && s.mechReleased) = false

/-- STOPPING ends or nothing happens (R192). -/
theorem checkStandby_of_not
    (h : ∀ r, s.power.state = .operating → s.power.transition = .stopping r → (s.quietForStandby && s.mechReleased) = false) :
    checkStandby s = s := by
  unfold checkStandby
  split
  · next r ho ht => simp only [h r ho ht, Bool.false_eq_true, if_false]
  · rfl

theorem Undue.settles (h : Undue u) (hr : b.transport.resetInFlight = false ∨ u.transport.resetInFlight = true) :
    settleUnits b u = u := by
  have hb : (b.transport.resetInFlight && !u.transport.resetInFlight) = false := by rcases hr with h | h <;> simp [h]
  have hi : checkIdentifying u = u := by
    rcases h.ident with h | h
    · simp [checkIdentifying_eq, h]
    · simp [checkIdentifying_eq, h]
  simp only [settleUnits, hb, Bool.false_eq_true, if_false, checkHeld_of_not h.held, hi, checkStandby_of_not h.standby]

theorem dropOperatorTuner_tape (s : State) : (dropOperatorTuner s).tape = s.tape := by
  unfold dropOperatorTuner
  split <;> simp

theorem enterStandby_tape (r : PowerCause) (s : State) : (enterStandby r s).tape = s.tape := by
  have cut : (cutScan .stopped (some .standby) s).tape = s.tape := by
    unfold cutScan
    split <;> simp [endScan]
  simp [enterStandby, dropOperatorTuner_tape, tunerOff, cut]

theorem enterStandby_state (r : PowerCause) (s : State) : (enterStandby r s).power.state = .standby := by
  simp [enterStandby]

theorem checkStandby_tape (s : State) : (checkStandby s).tape = s.tape := by
  unfold checkStandby
  split
  · split
    · exact enterStandby_tape ..
    · rfl
  · rfl

/-- A state that the end of an event leaves as it is has nothing due. -/
theorem NothingDue.undue (h : NothingDue s) : Undue s := by
  have e : checkStandby (checkIdentifying (checkHeld s)) = s := by
    have hb : (s.transport.resetInFlight && !s.transport.resetInFlight) = false := by simp
    simpa only [NothingDue, settleUnits, hb, Bool.false_eq_true, if_false] using h
  have tape : (checkIdentifying (checkHeld s)).tape = s.tape := by rw [← checkStandby_tape, e]
  have held : s.heldDue = false := by
    by_contra hd
    rw [Bool.not_eq_false] at hd
    have hs : s.tape.held = false := by simp [State.heldDue] at hd; exact hd.2
    have ht : (checkIdentifying (checkHeld s)).tape.held = true := by
      rw [checkIdentifying_eq, checkHeld_of_due hd]
      split <;> simp [forgetCandidate, postTape]
    rw [tape, hs] at ht
    cases ht
  rw [checkHeld_of_not held] at e tape
  have ident : s.identifying = true ∨ forgetCandidate s = s := by
    cases hi : s.identifying with
    | true => exact .inl rfl
    | false =>
      rw [checkIdentifying_of_not hi] at tape
      exact .inr (by unfold forgetCandidate at tape ⊢; rw [show ({ s.tape with idCount := 0, candidate := none, lastIdent := none } : TapePosition) = s.tape from tape])
  have ei : checkIdentifying s = s := by
    rcases ident with h | h
    · simp [checkIdentifying_eq, h]
    · simp [checkIdentifying_eq, h]
  refine ⟨held, ident, fun r ho ht => ?_⟩
  by_contra hq
  rw [Bool.not_eq_false] at hq
  have hs : (checkStandby s).power.state = .standby := by
    unfold checkStandby
    split
    · simp only [hq, if_true, enterStandby_state]
    · next hne => exact absurd ht (hne r ho)
  rw [ei] at e
  rw [e, ho] at hs
  cases hs

/-- What the conditions read is the same in another state. -/
theorem Undue.of (h : Undue s) (mode : t.transport.mode = s.transport.mode := by rfl)
    (change : t.transport.change = s.transport.change := by rfl) (target : t.transport.target = s.transport.target := by rfl)
    (relock : t.transport.relockPending = s.transport.relockPending := by rfl) (mech : t.mech = s.mech := by rfl)
    (power : t.power = s.power := by rfl) (supply : t.tape.supply = s.tape.supply := by rfl)
    (takeUp : t.tape.takeUp = s.tape.takeUp := by rfl) (cls : t.tape.cls = s.tape.cls := by rfl)
    (fraction : t.tape.fraction = s.tape.fraction := by rfl) (held : t.tape.held = s.tape.held := by rfl)
    (idCount : t.tape.idCount = s.tape.idCount := by rfl) (candidate : t.tape.candidate = s.tape.candidate := by rfl)
    (lastIdent : t.tape.lastIdent = s.tape.lastIdent := by rfl) : Undue t := by
  have valid : t.bothValid = s.bothValid := by simp only [State.bothValid, supply, takeUp]
  refine ⟨?_, ?_, ?_⟩
  · rw [← h.held]
    simp only [State.heldDue, mode, fraction, valid, held]
  · have hi : t.identifying = s.identifying := by simp only [State.identifying, cls, mode, change, relock, valid]
    rw [hi]
    refine h.ident.imp id fun hf => ?_
    have ht := congrArg State.tape hf
    simp only [forgetCandidate] at ht ⊢
    rw [TapePosition.mk.injEq] at ht
    obtain ⟨-, -, -, -, hc, hn, hl, -⟩ := ht
    rw [hn, ← idCount, hc, ← candidate, hl, ← lastIdent]
  · have hq : t.quietForStandby = s.quietForStandby := by simp only [State.quietForStandby, mode, target]
    have hm : t.mechReleased = s.mechReleased := by simp only [State.mechReleased, mech]
    rw [power, hq, hm]
    exact h.standby

/-- Outside STOPPING the end of an event that ends no DECK_RESET sequence tests the estimate and the identification alone. -/
theorem settleUnits_eq (hr : b.transport.resetInFlight = false ∨ u.transport.resetInFlight = true) (hn : NotStopping u) :
    settleUnits b u = checkIdentifying (checkHeld u) := by
  have hb : (b.transport.resetInFlight && !u.transport.resetInFlight) = false := by rcases hr with h | h <;> simp [h]
  have hp : (checkIdentifying (checkHeld u)).power = u.power :=
    ((checkIdentifying_keeps _).power).trans (checkHeld_keeps u).power
  simp only [settleUnits, hb, Bool.false_eq_true, if_false]
  exact checkStandby_of_not fun r _ ht => absurd (hp ▸ ht) (hn r)

/-- Outside the motions it gives up the identification, and that is all. -/
theorem settleUnits_still (hr : b.transport.resetInFlight = false ∨ u.transport.resetInFlight = true) (hn : NotStopping u)
    (hm : u.transport.mode.motion = false) : settleUnits b u = forgetCandidate u := by
  rw [settleUnits_eq hr hn, checkHeld_of_not (heldDue_of_not_motion hm), checkIdentifying_of_not (identifying_of_not_motion hm)]

/-- A sequence that is in flight before an event as after it does not end in it. -/
theorem sequence_same (h : u.transport.resetInFlight = b.transport.resetInFlight) :
    b.transport.resetInFlight = false ∨ u.transport.resetInFlight = true := by
  rw [h]
  cases b.transport.resetInFlight <;> simp

/-! ### The end of a deck event -/

theorem deckEvent_running (h : s.power.state ≠ .backup) (act : State → State) : deckEvent act s = endDeckEvent s (act s) := if_neg h

/-- A limit that has not passed is reached: the event is taken at it (log 2). -/
theorem timerEvent_running (h : s.power.state ≠ .backup) (limit : Nat) (act : State → State) :
    timerEvent (some limit) act s = endDeckEvent s (act (leapTo limit s)) := if_neg h

theorem endDeckEvent_keeps (hr : b.transport.resetInFlight = false ∨ u.transport.resetInFlight = true) (hn : NotStopping u) :
    KeepsBut [.estimate, .sending] u (endDeckEvent b u) :=
  (settleUnits_keeps hr hn).trans ((chooseFrame_keeps _).mono (by simp))

theorem Undue.endDeckEvent (h : Undue u) (hr : b.transport.resetInFlight = false ∨ u.transport.resetInFlight = true) :
    endDeckEvent b u = chooseFrame u := by
  rw [Machine.endDeckEvent, h.settles hr]

theorem leapTo_now_of_le {limit : Nat} (h : s.now ≤ limit) : (leapTo limit s).now = limit := by rw [leapTo_now]; omega

/-- A go-to and a run that are not in flight have no track time that grows (R71, R83). -/
theorem leapTo_nav (h : NoNavigation s) (limit : Nat) : (leapTo limit s).nav = s.nav := by
  obtain ⟨hg, hr⟩ := h
  have g : s.nav.goto.elapse (limit - s.now) s.transport.mode.motion = s.nav.goto := by simp [Goto.elapse, hg]
  have r : s.nav.run.elapse (limit - s.now) s.transport.mode.motion = s.nav.run := by
    unfold Run.elapse
    split
    · next e => rw [e] at hr; cases hr
    all_goals rfl
  simp only [leapTo, elapse, g, r]

theorem leapTo_keeps (limit : Nat) (s : State) : KeepsBut [.time, .nav] s (leapTo limit s) := elapse_keeps _ s

/-! ### Notes that wait -/

/-- A note with a key and a content waits in the outbox. -/
def Noted (k : NoteKey) (c : List Byte) (s : State) : Prop := ∃ n ∈ s.link.outbox, n.key = k ∧ n.content = c

theorem post_noted (h : s.power.state ≠ .backup) (k : NoteKey) (c : List Byte) : Noted k c (post k c s) := post_mem h

theorem Noted.of {k : NoteKey} {c : List Byte} (h : Noted k c s) (hl : t.link.outbox = s.link.outbox := by rfl) : Noted k c t := by
  rw [Noted, hl]
  exact h

theorem Noted.post {k j : NoteKey} {c : List Byte} (h : Noted k c s) (hj : j ≠ k) (d : List Byte) : Noted k c (post j d s) := by
  unfold Machine.post
  split
  · exact h
  · exact postInto_mem hj h

theorem Noted.announced {k : NoteKey} {c : List Byte} (h : Noted k c s) (hk : k ≠ .tape) : Announced k c (chooseFrame s) :=
  announced_chooseFrame hk h

/-- A MODE note with the present record, by the bytes of the record (R212). -/
theorem ModeNoted.of_bytes (h : ModeNoted s) (hb : t.transportBytes = s.transportBytes) (hl : t.link.outbox = s.link.outbox := by rfl) :
    ModeNoted t := by
  rw [ModeNoted, hl, hb]
  exact h

/-- A TAPE note waits in the outbox (R40). -/
def TapeNoted (s : State) : Prop := ∃ c, Noted .tape c s

theorem postTape_noted (h : s.power.state ≠ .backup) : TapeNoted (postTape s) :=
  ⟨[], post_noted (s := { s with tape.lastReport := s.now, tape.reportPeriod := s.link.period }) h _ _⟩

theorem tapeBytes_congr (ht : t.transport = s.transport) (hp : t.tape = s.tape) : t.tapeBytes = s.tapeBytes := by
  simp only [State.tapeBytes, State.remaining, State.elapsed, State.estimate, ht, hp]

/-- The TAPE note is formed as it goes on the line (R203). -/
theorem TapeNoted.announced (h : TapeNoted s) : TapeAnnounced (chooseFrame s) := by
  obtain ⟨c, n, hn, hk, -⟩ := h
  have bytes : (chooseFrame s).tapeBytes = s.tapeBytes := tapeBytes_congr (by simp) (by simp)
  rw [TapeAnnounced, bytes]
  unfold chooseFrame
  split
  · exact .inl ⟨n, hn, hk⟩
  · split
    · exact .inl ⟨n, hn, hk⟩
    · split
      · split
        · exact .inl ⟨n, hn, hk⟩
        · next a rest e =>
          rw [e] at hn
          rcases List.mem_cons.mp hn with rfl | hn
          · exact .inr ⟨noteFrame n s, by rw [hk]; rfl, rfl, by simp [noteFrame, hk, NoteKey.kind], by simp [noteFrame, hk]⟩
          · exact .inl ⟨n, by rw [noteSent_link]; exact hn, hk⟩
      · exact .inl ⟨n, hn, hk⟩

theorem TapeNoted.of (h : TapeNoted s) (hl : t.link.outbox = s.link.outbox := by rfl) : TapeNoted t := by
  obtain ⟨c, h⟩ := h
  exact ⟨c, h.of hl⟩

end Sys2Proof.Machine
end

section
/-! The transport's steps: what a mode without motion leaves as it is, the record after each step, and what a target does where the tests
of R4 and R6 are decided. -/

namespace Sys2Proof.Machine

variable {s t : State} {m : Mode} {k : MechStep}

/-! ### Modes without motion (R7, R43) -/

/-- The parts that the reaching of a mode without motion may change. -/
def stillParts : List Part := [.transport, .counter, .marks, .sending]

theorem MechStep.mode_motion (k : MechStep) : k.mode.motion = false := by cases k <;> rfl

theorem tapeAtMode_still (hm : m.motion = false) (s : State) : tapeAtMode m s = { s with tape.spanStart := none } := by
  simp [tapeAtMode, hm]

theorem tapeAtMode_motion (hm : m.motion = true) (s : State) :
    tapeAtMode m s = { emptyLists .collecting s with tape.spanStart := some s.now } := by
  simp [tapeAtMode, hm]

theorem enterMode_still (hm : m.motion = false) (c : Option Change) (s : State) : KeepsBut stillParts s (enterMode m c s) := by
  simp only [enterMode]
  refine KeepsBut.after ((writerAtMode_keeps ..).mono (by simp [stillParts]))
    (KeepsBut.after ((postMode_keeps _).mono (by simp [stillParts])) ?_)
  rw [tapeAtMode_still hm]
  refine ⟨fun q hq => ?_⟩
  cases q <;> simp_all [SamePart, stillParts]

theorem writerAtMode_tape (l m : Mode) (s : State) : (writerAtMode l m s).tape = s.tape := by
  unfold writerAtMode
  split
  · split <;> rfl
  · split
    · unfold cutMark
      split
      · rfl
      · simp [recordPass]
    · rfl

theorem tapeAtMode_tape_congr (m : Mode) (hp : t.tape = s.tape) (hn : t.now = s.now) : (tapeAtMode m t).tape = (tapeAtMode m s).tape := by
  unfold tapeAtMode
  split <;> simp [emptyLists, hp, hn]

theorem enterMode_tape (m : Mode) (c : Option Change) (s : State) : (enterMode m c s).tape = (tapeAtMode m s).tape := by
  simp only [enterMode, writerAtMode_tape, postMode_tape]
  exact tapeAtMode_tape_congr m rfl rfl

theorem enterMode_tape_still (hm : m.motion = false) (c : Option Change) (s : State) :
    (enterMode m c s).tape = { s.tape with spanStart := none } := by
  rw [enterMode_tape, tapeAtMode_still hm]

/-- A mark is cut as RECORD is left, and begun as it is reached; otherwise the writer is untouched (R50, R53). -/
theorem writerAtMode_idle {l : Mode} (hl : l ≠ .record) (hm : m ≠ .record) (s : State) : writerAtMode l m s = s := by
  simp [writerAtMode, hl, hm]

theorem enterMode_writer (hl : s.transport.mode ≠ .record) (hm : m ≠ .record) (c : Option Change) :
    (enterMode m c s).marks.writer = s.marks.writer := by
  simp only [enterMode, writerAtMode_idle hl hm, postMode_marks, tapeAtMode]
  split <;> rfl

/-! ### Mechanical steps (R8 to R12) -/

theorem beginMech_still (k : MechStep) (s : State) : KeepsBut stillParts s (beginMech k s) := by
  refine KeepsBut.after (enterMode_still k.mode_motion ..) ⟨fun q hq => ?_⟩
  cases q <;> simp_all [SamePart, stillParts]

theorem beginMech_transport (k : MechStep) (s : State) :
    (beginMech k s).transport = { s.transport with stepStart := s.now }.reached k.mode (some (.mech k)) s.now := enterMode_transport ..

theorem beginMech_tape (k : MechStep) (s : State) : (beginMech k s).tape = { s.tape with spanStart := none } :=
  enterMode_tape_still k.mode_motion ..

theorem beginMech_noted (k : MechStep) (h : s.power.state ≠ .backup) : ModeNoted (beginMech k s) :=
  enterMode_noted (s := { s with transport.stepStart := s.now }) _ _ h

@[simp] theorem enterMode_mode (m : Mode) (c : Option Change) (s : State) : (enterMode m c s).transport.mode = m := by
  rw [enterMode_transport]; rfl

@[simp] theorem beginMech_mode (k : MechStep) (s : State) : (beginMech k s).transport.mode = k.mode := enterMode_mode ..

@[simp] theorem beginUnthreading_mode (e : UnthreadEnd) (s : State) : (beginUnthreading e s).transport.mode = .unthreading :=
  beginMech_mode ..

theorem beginUnthreading_still (e : UnthreadEnd) (s : State) : KeepsBut stillParts s (beginUnthreading e s) := by
  refine KeepsBut.after (beginMech_still ..) ⟨fun q hq => ?_⟩
  cases q <;> simp_all [SamePart, stillParts]

theorem beginUnthreading_transport (e : UnthreadEnd) (s : State) : (beginUnthreading e s).transport =
    { s.transport with stepStart := s.now, unthreadEnd := e }.reached .unthreading (some (.mech .unthreading)) s.now :=
  enterMode_transport ..

theorem beginUnthreading_tape (e : UnthreadEnd) (s : State) : (beginUnthreading e s).tape = { s.tape with spanStart := none } :=
  beginMech_tape ..

/-! ### Paths and targets (R4, R6) -/

theorem choosePath_still (s : State) : KeepsBut stillParts s (choosePath s) := by
  have clear : KeepsBut stillParts s { s with transport.target := none } := by
    refine ⟨fun q hq => ?_⟩
    cases q <;> simp_all [SamePart, stillParts]
  have drop : KeepsBut stillParts s (dropTarget s) := (dropTarget_keeps _).mono (by simp [stillParts])
  have servo : ∀ m, KeepsBut stillParts s (beginServo m s) := fun m => (beginServo_keeps ..).mono (by simp [stillParts])
  unfold choosePath
  split
  · exact .refl _ _
  · split
    · split
      · exact beginMech_still ..
      · split
        · exact clear
        · split
          · exact drop
          · exact beginMech_still ..
    · split
      · split
        · exact beginUnthreading_still ..
        · split
          · exact drop
          · split
            · exact clear
            · split
              · exact .refl _ _
              · exact servo _
      · exact .refl _ _

theorem noteChange_moved {old : Transport} (h : old.mode ≠ s.transport.mode) : noteChange old s = s := by simp [noteChange, h]

theorem setTarget_still (m : Mode) (c : Option StopCause) (s : State) : KeepsBut stillParts s (setTarget m c s) := by
  have take : KeepsBut stillParts s { s with transport := { s.transport with target := some m, stopCause := c } } := by
    refine ⟨fun q hq => ?_⟩
    cases q <;> simp_all [SamePart, stillParts]
  have note : ∀ o t, KeepsBut stillParts t (noteChange o t) := fun o t => (noteChange_keeps o t).mono (by simp [stillParts])
  simp only [setTarget]
  split
  · exact .refl _ _
  · split
    · exact take.trans (note _ _)
    · split
      · exact take.trans (choosePath_still _)
      · exact take.trans ((choosePath_still _).trans (note _ _))

/-- The record as a target is taken, before its path is chosen (R6, R20). -/
def aimed (m : Mode) (c : Option StopCause) (s : State) : State :=
  { s with transport := { s.transport with target := some m, stopCause := c } }

/-- A target is taken outside EMPTY, EJECTING and FAULT; with no mechanical step in flight, and not to be dropped, its path begins at
once (R4, R6). -/
theorem setTarget_path (he : s.transport.mode ≠ .empty) (hj : s.transport.mode ≠ .ejecting) (hf : s.transport.mode ≠ .fault)
    (hm : s.mechInFlight = false) (hd : s.wouldDrop m = false) (c : Option StopCause) :
    setTarget m c s = noteChange s.transport (choosePath (aimed m c s)) := by
  have hm' : (aimed m c s).mechInFlight = false := hm
  have hd' : (aimed m c s).wouldDrop m = false := hd
  simp only [setTarget, he, hj, hf, or_self, if_false]
  rw [← aimed]
  simp only [hm', hd', Bool.false_eq_true, if_false]

/-- While a mechanical step is in flight a target is held, and that is all (R6). -/
theorem setTarget_held (he : s.transport.mode ≠ .empty) (hj : s.transport.mode ≠ .ejecting) (hf : s.transport.mode ≠ .fault)
    (hm : s.mechInFlight = true) (c : Option StopCause) : setTarget m c s = noteChange s.transport (aimed m c s) := by
  have hm' : (aimed m c s).mechInFlight = true := hm
  simp only [setTarget, he, hj, hf, or_self, if_false]
  rw [← aimed]
  simp only [hm', if_true]

theorem Threaded.rests (h : Threaded s) : s.transport.mode ≠ .empty ∧ s.transport.mode ≠ .ejecting ∧ s.transport.mode ≠ .fault ∧
    s.transport.mode ≠ .stop ∧ s.transport.mode ≠ .unthreading ∧ s.transport.mode ≠ .threading := by
  have hm := h.mode
  refine ⟨?_, ?_, ?_, ?_, ?_, ?_⟩ <;> intro e <;> rw [e] at hm <;> cases hm

theorem mechInFlight_of_none (h : s.transport.change = none) : s.mechInFlight = false := by simp [State.mechInFlight, h]

/-- From a threaded mode the path to STOP and to EMPTY begins with UNTHREADING (R4). -/
theorem setTarget_unthreads (h : Threaded s) (hm : m = .stop ∨ m = .empty) (c : Option StopCause) :
    setTarget m c s = beginUnthreading .plain (aimed m c s) := by
  obtain ⟨he, hj, hf, hs, hu, -⟩ := h.rests
  have hd : s.wouldDrop m = false := by rcases hm with rfl | rfl <;> simp [State.wouldDrop, State.recordForbidden]
  have path : choosePath (aimed m c s) = beginUnthreading .plain (aimed m c s) := by
    simp [choosePath, aimed, hs, h.mode, hm]
  rw [setTarget_path he hj hf h.change hd, path, noteChange_moved]
  rw [beginUnthreading_mode]
  exact hu

/-- From STOP the path to EMPTY is EJECTING (R4). -/
theorem setTarget_ejects (hs : s.transport.mode = .stop) (hc : s.transport.change = none) (c : Option StopCause) :
    setTarget .empty c s = beginMech .ejecting (aimed .empty c s) := by
  have path : choosePath (aimed .empty c s) = beginMech .ejecting (aimed .empty c s) := by simp [choosePath, aimed, hs]
  rw [setTarget_path (by simp [hs]) (by simp [hs]) (by simp [hs]) (mechInFlight_of_none hc)
    (by simp [State.wouldDrop, State.recordForbidden]), path, noteChange_moved]
  rw [beginMech_mode, hs]
  decide

/-- From STOP the path to a threaded mode is THREADING, unless the tab or dew forbids it (R4). -/
theorem choosePath_threads (hs : s.transport.mode = .stop) (ht : s.transport.target = some m) (hm : m.threaded = true)
    (htab : s.tabForbids m = false) (hdew : s.transport.dew = false) : choosePath s = beginMech .threading s := by
  have he : m ≠ .empty := by rintro rfl; cases hm
  have hp : m ≠ .stop := by rintro rfl; cases hm
  simp [choosePath, hs, ht, he, hp, htab, hdew]

theorem choosePath_ejects (hs : s.transport.mode = .stop) (ht : s.transport.target = some .empty) :
    choosePath s = beginMech .ejecting s := by
  simp [choosePath, hs, ht]

end Sys2Proof.Machine
end

section
/-! O3: the checks of MOTION, GOTO and RUN_START in their order (R5, R65, R82). A request that is refused changes nothing. -/

namespace Sys2Proof.Machine

variable {s : State} {st : Status}

/-! ### Refusals -/

/-- A request that its owner refuses is answered, and nothing else happens (R201). -/
theorem requestFrame_refused {k : RequestKind} {p : List Byte} (hs : PortReady s) (hd : NothingDue s)
    (hp : k.admitsLength p.length = true) (h : serve k p s = answer st s) : requestFrame k p s = answered k { status := st } s := by
  have settled : settleUnits s s = s := hd
  rw [requestFrame_ready hs hp, h]
  simp only [answer, settled, ite_self]

@[simp] theorem firstFailing_cons (f : Bool) (st : Status) (l : List (Bool × Status)) :
    firstFailing ((f, st) :: l) = if f then some st else firstFailing l := rfl

@[simp] theorem firstFailing_nil : firstFailing [] = none := rfl

/-- Checks one list after another. -/
theorem firstFailing_append (l r : List (Bool × Status)) : firstFailing (l ++ r) = (firstFailing l).or (firstFailing r) := by
  induction l with
  | nil => rfl
  | cons c l ih =>
    obtain ⟨f, st⟩ := c
    cases f <;> simp [ih]

/-- The holder of the MECHANISM claim refuses by the checks of R183. -/
theorem refusal_eq (s : State) : s.mech.refusal = firstFailing (mechChecks s) := by
  unfold mechChecks
  cases s.mech <;> rfl

/-! ### MOTION -/

theorem motionRequest_refused {b : Byte} (h : firstFailing (motionChecks b s) = some st) : motionRequest b s = answer st s := by
  simp only [motionChecks, firstFailing_append, firstFailing_cons, firstFailing_nil, ← refusal_eq] at h
  unfold motionRequest
  cases hm : motionTarget b with
  | none =>
    obtain rfl : Status.range = st := by simpa [hm] using h
    rfl
  | some m =>
    have tab : ((some m).any (fun m => m == .record || m == .recPause) && s.transport.mode != .loading && !s.transport.recordTab) =
        decide (s.transport.mode ≠ .loading ∧ s.tabForbids m = true) := by
      rw [Bool.eq_iff_iff]
      simp [State.tabForbids]
      tauto
    have dew : ((some m).any (·.threaded) && s.transport.mode == .stop && s.transport.dew) =
        decide (m.threaded = true ∧ s.transport.mode = .stop ∧ s.transport.dew = true) := by
      rw [Bool.eq_iff_iff]
      simp
      tauto
    rw [hm, tab, dew] at h
    dsimp only
    split
    · next hb =>
      obtain rfl : Status.notReady = st := by simpa [hb] using h
      rfl
    next hb =>
    split
    · next hq =>
      obtain rfl : Status.notReady = st := by simpa [hb, hq, or_assoc] using h
      rfl
    next hq =>
    split
    · next r hr =>
      obtain rfl : r = st := by simpa [hb, hr, or_assoc, hq] using h
      rfl
    next hr =>
    split
    · next ht =>
      rw [decide_eq_true ht] at h
      obtain rfl : Status.tabAbsent = st := by simpa [hb, hr, or_assoc, hq] using h
      rfl
    next ht =>
    rw [decide_eq_false ht] at h
    split
    · next hw =>
      rw [decide_eq_true hw] at h
      obtain rfl : Status.notReady = st := by simpa [hb, hr, or_assoc, hq] using h
      rfl
    next hw =>
    rw [decide_eq_false hw] at h
    simp [hb, hr, or_assoc, hq] at h

/-! ### GOTO and RUN_START -/

/-- The checks that GOTO and RUN_START share, by the list of R65. -/
theorem gotoRefusal_eq (s : State) : s.gotoRefusal = firstFailing (moveChecks s) := by
  unfold State.gotoRefusal moveChecks
  simp only [firstFailing_append, firstFailing_cons, firstFailing_nil, ← refusal_eq]
  by_cases hb : s.inStandby = true
  · simp [hb]
  · simp only [hb, Bool.false_eq_true, if_false]
    by_cases hq : s.transport.mode = .empty ∨ s.transport.mode = .loading ∨ s.transport.mode = .ejecting ∨ s.transport.mode = .fault
    · simp [hq, or_assoc]
    · cases hr : s.mech.refusal <;> simp [hq, or_assoc]

/-- A GOTO is refused RANGE by its fields, and by the shared checks after that (R65). -/
theorem gotoRequest_refused {form final count direction present code mask : Byte} {target : Word24} {bad : Bool}
    (hf : bad = true ↔ gotoForm form target count direction present code mask s = none ∨ valueAt FinalAction.all final = none)
    (h : firstFailing ((bad, .range) :: moveChecks s) = some st) :
    gotoRequest form final target count direction present code mask s = answer st s := by
  rw [firstFailing_cons, ← gotoRefusal_eq] at h
  unfold gotoRequest
  cases hform : gotoForm form target count direction present code mask s with
  | none =>
    obtain rfl : Status.range = st := by simpa [hf.2 (.inl hform)] using h
    rfl
  | some f =>
    cases hfinal : valueAt FinalAction.all final with
    | none =>
      obtain rfl : Status.range = st := by simpa [hf.2 (.inr hfinal)] using h
      rfl
    | some a =>
      have hb : bad = false := by
        rw [← Bool.not_eq_true, hf, hform, hfinal]
        simp
      rw [hb] at h
      simp only [Bool.false_eq_true, if_false] at h
      simp only [h]

theorem finalAction_none_iff (b : Byte) : valueAt FinalAction.all b = none ↔ b.toNat < 1 ∨ 3 < b.toNat := by
  have h0 : b = 0 ↔ b.toNat < 1 := by
    rw [← BitVec.toNat_inj]
    simp
  unfold valueAt
  split
  · next h => simp [h0.1 h]
  · next h =>
    rw [h0] at h
    rw [List.getElem?_eq_none_iff, show FinalAction.all.length = 3 from rfl]
    omega

theorem flagOf_none_iff (b : Byte) : flagOf b = none ↔ 1 < b.toNat := by
  have h0 : b = 0 ↔ b.toNat = 0 := by
    rw [← BitVec.toNat_inj]
    simp
  have h1 : b = 1 ↔ b.toNat = 1 := by
    rw [← BitVec.toNat_inj]
    simp
  unfold flagOf
  split
  · next h => simp [h0.1 h]
  · next h =>
    split
    · next h' => simp [h1.1 h']
    · next h' =>
      rw [h0] at h
      rw [h1] at h'
      simp only [true_iff]
      omega

theorem flagOf_some_false_iff (b : Byte) : flagOf b = some false ↔ b = 0 := by
  unfold flagOf
  split
  · simpa
  · split <;> simpa

/-- The three bytes of a counter value spell it again (R209). -/
theorem word24_bytes (v : Word24) : word24 (byteOf (v.toNat / 256 ^ 2)) (byteOf (v.toNat / 256 ^ 1)) (byteOf (v.toNat / 256 ^ 0)) = v := by
  apply BitVec.eq_of_toNat_eq
  simp only [word24, byteOf, BitVec.toNat_append, BitVec.toNat_ofNat]
  have hv := v.isLt
  have low := Nat.shiftLeft_add_eq_or_of_lt (b := v.toNat / 256 ^ 0 % 2 ^ 8) (i := 8) (by omega) (v.toNat / 256 ^ 1 % 2 ^ 8)
  rw [← low, ← Nat.shiftLeft_add_eq_or_of_lt (by rw [Nat.shiftLeft_eq]; omega)]
  simp only [Nat.shiftLeft_eq]
  omega

theorem gotoForm_counter_none_iff (v : Word24) (count direction present code mask : Byte) (s : State) :
    gotoForm 1 v count direction present code mask s = none ↔ s.outOfRange v.toInt = true := by
  have range : s.inCounterRange v.toInt = !s.outOfRange v.toInt := by
    rw [Bool.eq_iff_iff]
    simp only [State.outOfRange, Bool.not_eq_true', decide_eq_false_iff_not, Nat.not_lt]
    exact decide_eq_true_iff
  rw [gotoForm, if_pos rfl, range]
  cases s.outOfRange v.toInt <;> simp

theorem gotoForm_forward_none_iff (v : Word24) (count present code mask : Byte) (s : State) :
    gotoForm 2 v count 1 present code mask s = none ↔ count.toNat < 1 ∨ 99 < count.toNat ∨ 1 < present.toNat := by
  rw [gotoForm, if_neg (by decide), if_pos rfl]
  split
  · next h => exact iff_of_true rfl (by tauto)
  next h =>
  rw [← flagOf_none_iff]
  split
  · next hf => exact iff_of_true rfl (.inr (.inr hf))
  · next f hf => exact iff_of_false (by simp) (by simp [hf]; omega)

theorem gotoForm_backward_none_iff (v : Word24) (count present code mask : Byte) (s : State) :
    gotoForm 2 v count 2 present code mask s = none ↔ count.toNat < 1 ∨ 99 < count.toNat ∨ present ≠ 0 := by
  rw [gotoForm, if_neg (by decide), if_pos rfl, ne_eq, ← flagOf_some_false_iff]
  split
  · next h => exact iff_of_true rfl (by tauto)
  next h =>
  split
  · next hf => simp [hf]
  · next f hf =>
    cases f with
    | false => simp [hf]; omega
    | true => simp [hf]

theorem runStartRequest_refused
    (h : firstFailing (moveChecks s ++ [(s.nav.run.segments.isEmpty, .notReady), (s.nav.run.state.active, .busy)]) = some st) :
    runStartRequest s = answer st s := by
  rw [firstFailing_append, ← gotoRefusal_eq] at h
  unfold runStartRequest
  cases hr : s.gotoRefusal with
  | some r =>
    obtain rfl : r = st := by simpa [hr] using h
    rfl
  | none =>
    dsimp only
    split
    · next hs =>
      obtain rfl : Status.notReady = st := by simpa [hr, hs] using h
      rfl
    next hs =>
    split
    · next ha =>
      obtain rfl : Status.busy = st := by simpa [hr, hs, ha] using h
      rfl
    next ha => simp [hr, hs, ha] at h

/-- Settles O3: each request's owner walks its checks in the listed order, and a refusal leaves the machine as it is. -/
theorem movesRefused : Obligations.MovesRefused := by
  intro s hs hd
  have refused : ∀ (k : RequestKind) (p : List Byte) (st : Status), k.admitsLength p.length = true → serve k p s = answer st s →
      requestFrame k p s = answered k { status := st } s := fun _ _ _ hp h => requestFrame_refused hs hd hp h
  refine ⟨fun b st h => ?_, fun f v st h => ?_, fun f n present code mask st h => ?_, fun f n present code mask st h => ?_,
    fun st h => ?_⟩
  · exact congrArg _ (refused .motion [b] st rfl (motionRequest_refused h))
  · refine congrArg _ (refused .goto _ st rfl ?_)
    refine (congrArg (fun w => gotoRequest 1 f w 0 0 0 0 0 s) (word24_bytes v)).trans (gotoRequest_refused ?_ h)
    rw [gotoForm_counter_none_iff, finalAction_none_iff]
    simp only [Bool.or_eq_true, decide_eq_true_eq]
    tauto
  · refine congrArg _ (refused .goto _ st rfl ?_)
    refine gotoRequest_refused (form := 2) (direction := 1) (target := word24 0 0 0) ?_ h
    rw [gotoForm_forward_none_iff, finalAction_none_iff]
    simp only [markFieldsBad, Bool.or_eq_true, decide_eq_true_eq, Bool.false_and, Bool.false_eq_true, or_false]
    tauto
  · refine congrArg _ (refused .goto _ st rfl ?_)
    refine gotoRequest_refused (form := 2) (direction := 2) (target := word24 0 0 0) ?_ h
    have filtered : 1 < present.toNat → present ≠ 0 := by
      rintro h rfl
      cases h
    rw [gotoForm_backward_none_iff, finalAction_none_iff]
    simp only [markFieldsBad, Bool.or_eq_true, decide_eq_true_eq, Bool.true_and, bne_iff_ne]
    tauto
  · exact congrArg _ (refused .runStart [] st rfl (runStartRequest_refused h))

end Sys2Proof.Machine
end

section
/-! O6 and O11: the EJECT request, the recovery that it begins, and the end of EJECTING in EMPTY (R11, R13); with them the coming to rest of
a deck that no program and no navigation asks for (R185, R187). -/

namespace Sys2Proof.Machine

variable {b s t u : State}

/-! ### Rest (R68, R84, R177, R185, R187) -/

theorem NoPrograms.of (h : NoPrograms s) (hs : t.sched = s.sched := by rfl) : NoPrograms t := by
  have program : ∀ n, t.program n = s.program n := fun n => by simp only [State.program, hs]
  obtain ⟨slots, active, endAction, abortStop, tail⟩ := h
  exact ⟨fun n p hp => slots n p (program n ▸ hp), hs ▸ active, hs ▸ endAction, hs ▸ abortStop, hs ▸ tail⟩

theorem NoNavigation.of (h : NoNavigation s) (hn : t.nav = s.nav := by rfl) : NoNavigation t := ⟨hn ▸ h.goto, hn ▸ h.run⟩

theorem NotStopping.of (h : NotStopping s) (hp : t.power = s.power := by rfl) : NotStopping t := fun r => hp ▸ h r

theorem gotoAtMode_idle (h : NoNavigation s) : gotoAtMode s = s := by simp [gotoAtMode, h.goto]

theorem finishRun_idle (h : NoNavigation s) : finishRun s = s := by
  have hr : s.nav.run.state ≠ .ending := fun e => by
    have := h.run
    rw [e] at this
    cases this
  simp [finishRun, hr]

theorem timerAtRest_idle (h : NoPrograms s) : timerAtRest s = s := by simp [timerAtRest, h.endAction, h.abortStop]

theorem protectReleased_idle (h : NoPrograms s) : protectReleased s = s := by
  simp [protectReleased, h.tail, h.active, h.applyRules]

theorem releaseProtect_idle (h : NoPrograms s) (hm : s.mech.isProtect = true) : releaseProtect s = setMech .free s := by
  have released : protectReleased (setMech .free s) = setMech .free s := protectReleased_idle h.of
  simp only [releaseProtect, hm, if_true, released]

/-- With no program and no navigation the deck that comes to rest gives up the claim of the direct activity or of a protection, and that is
all (R185, R187). -/
theorem comeToRest_idle (hp : NoPrograms s) (hn : NoNavigation s) (hs : s.standsStill = true)
    (hm : MechDirect s ∨ s.mech.isProtect = true) : comeToRest s = setMech .free s := by
  rw [comeToRest, gotoAtMode_idle hn]
  rcases hm with (hm | hm) | hm
  · have still : releaseIfStill s = s := by simp [releaseIfStill, hm]
    have free : setMech .free s = s := by rw [← hm]; rfl
    rw [still, finishRun_idle hn, timerAtRest_idle hp, free]
    simp [releaseProtect, hm, MechClaim.isProtect]
  · have still : releaseIfStill s = setMech .free s := by simp [releaseIfStill, hm, hs]
    rw [still, finishRun_idle hn.of, timerAtRest_idle hp.of]
    rfl
  · have still : releaseIfStill s = s := by
      have hd : s.mech ≠ .operator .direct := fun e => by rw [e] at hm; cases hm
      simp [releaseIfStill, hd]
    rw [still, finishRun_idle hn, timerAtRest_idle hp, releaseProtect_idle hp hm]

/-! ### EMPTY (R11, R45, R62, R86) -/

theorem resetCassette_transport (p : PeriodState) (s : State) : (resetCassette p s).transport = s.transport := by
  simp [resetCassette, emptyLists]

theorem resetCassette_keeps (p : PeriodState) (s : State) : KeepsBut [.counter, .reels, .estimate, .sending] s (resetCassette p s) := by
  refine KeepsBut.after ((postTape_keeps _).mono (by simp)) ⟨fun q hq => ?_⟩
  cases q <;> simp_all [SamePart, emptyLists]

/-- The record as EMPTY is entered: the cassette is out, and no fault and no recovery is left (R11, R13). -/
def Transport.emptied (t : Transport) : Transport :=
  { t with
    target := none, cassettePresent := false, recordTab := false, faultCause := none, rewindDue := false, recovering := false }

/-- EMPTY with the eject signalled, before the claims are looked at (R11, R45, R62, R86). -/
def emptyDeck (s : State) : State :=
  let r := resetCassette .stalled (enterMode .empty none { s with transport := s.transport.emptied })
  { r with marks := { r.marks with history := [], writer := none }, nav := .cold }

/-- The parts that the entry to EMPTY may change. -/
def emptyParts : List Part := [.transport, .counter, .reels, .estimate, .marks, .nav, .mech, .sending]

theorem emptyDeck_transport (s : State) : (emptyDeck s).transport = s.transport.emptied.reached .empty none s.now := by
  simp only [emptyDeck, resetCassette_transport, enterMode_transport]

theorem emptyDeck_tape (s : State) : (emptyDeck s).tape = { s.tape with
    supply := s.tape.supply.empty .stalled, takeUp := s.tape.takeUp.empty .stalled, cls := none, origin := .none, idCount := 0,
    candidate := none, lastIdent := none, fraction := none, held := false, counter := 0, quality := .exact, spanStart := none,
    lastReport := s.now, reportPeriod := s.link.period } := by
  have now : (enterMode .empty none { s with transport := s.transport.emptied }).now = s.now :=
    ((enterMode_still rfl none _).same .time (by decide)).1
  have period : (enterMode .empty none { s with transport := s.transport.emptied }).link.period = s.link.period :=
    ((enterMode_still rfl none _).same .reception (by decide)).2.2.2.2.1
  simp only [emptyDeck, resetCassette, postTape, post_tape, emptyLists, enterMode_tape_still (m := .empty) rfl, now, period]

theorem emptyDeck_keeps (s : State) : KeepsBut emptyParts s (emptyDeck s) := by
  have entered : KeepsBut emptyParts s
      (resetCassette .stalled (enterMode .empty none { s with transport := s.transport.emptied })) := by
    refine KeepsBut.after ((resetCassette_keeps ..).mono (by simp [emptyParts]))
      (KeepsBut.after ((enterMode_still (m := .empty) rfl ..).mono (by simp [emptyParts, stillParts])) ⟨fun q hq => ?_⟩)
    cases q <;> simp_all [SamePart, emptyParts]
  refine entered.trans ⟨fun q hq => ?_⟩
  cases q <;> simp_all [SamePart, emptyParts, emptyDeck]

theorem ModeNoted.postTape (h : ModeNoted s) : ModeNoted (postTape s) :=
  ModeNoted.post (s := { s with tape.lastReport := s.now, tape.reportPeriod := s.link.period }) (h.of rfl rfl) (by decide) _

theorem ModeNoted.resetCassette (h : ModeNoted s) (p : PeriodState) : ModeNoted (resetCassette p s) := by
  exact ModeNoted.postTape (s := { emptyLists p s with tape := _ }) (h.of rfl rfl)

theorem emptyDeck_noted (h : s.power.state ≠ .backup) : ModeNoted (emptyDeck s) :=
  ModeNoted.of (ModeNoted.resetCassette (enterMode_noted (s := { s with transport := s.transport.emptied }) .empty none h) .stalled)
    rfl rfl

theorem ejectNavigation_idle (h : NoNavigation s) : ejectNavigation s = { s with nav := .cold } := by
  simp [ejectNavigation, h.goto, h.run]

theorem coldNavigation (h : s.nav = .cold) : NoNavigation s := ⟨by rw [h]; rfl, by rw [h]; rfl⟩

/-- EMPTY is entered with no program and no navigation: the deck is emptied, and its claim is free. -/
theorem enterEmpty_idle (hp : NoPrograms s) (hn : NoNavigation s) (hm : MechDirect s ∨ s.mech.isProtect = true) :
    enterEmpty s = setMech .free (emptyDeck s) := by
  have recovered : endRecovery { s with transport := { s.transport with
      target := none, cassettePresent := false, recordTab := false, faultCause := none, rewindDue := false } } =
      { s with transport := s.transport.emptied } := by
    simp [endRecovery, Transport.emptied]
  have kept := (enterMode_still (m := .empty) rfl none { s with transport := s.transport.emptied })
  have nav : NoNavigation (enterMode .empty none { s with transport := s.transport.emptied }) :=
    ⟨by rw [kept.goto]; exact hn.goto, by rw [kept.run]; exact hn.run⟩
  have navReset : NoNavigation { resetCassette .stalled (enterMode .empty none { s with transport := s.transport.emptied }) with
      marks.history := [], marks.writer := none } := by
    have k := resetCassette_keeps .stalled (enterMode .empty none { s with transport := s.transport.emptied })
    exact ⟨by rw [k.goto]; exact nav.goto, by rw [k.run]; exact nav.run⟩
  have mech : (emptyDeck s).mech = s.mech := (resetCassette_keeps ..).mech.trans kept.mech
  unfold enterEmpty
  rw [recovered]
  simp only [finishRun_idle nav, ejectNavigation_idle navReset]
  refine comeToRest_idle (s := emptyDeck s) (hp.of (emptyDeck_keeps s).sched) (coldNavigation rfl) ?_ ?_
  · simp only [State.standsStill, State.settled, emptyDeck_transport]
    rfl
  · simpa only [MechDirect, mech] using hm

/-! ### Answers, and what they leave (R201, R202) -/

@[simp] theorem answered_transport (k : RequestKind) (r : Reply) (s : State) : (answered k r s).transport = s.transport :=
  (answered_keeps ..).transport

@[simp] theorem answered_tape (k : RequestKind) (r : Reply) (s : State) : (answered k r s).tape = s.tape := by simp [answered]

/-- The sending of notes empties no place of the watch list and fills none (R74). -/
theorem watches_none_of_unfired {l : List (Option Watch)} {n : Nat}
    (h : l.map (·.map Watch.unfired) = List.replicate n none) : l = List.replicate n none := by
  rw [List.eq_replicate_iff, List.length_map] at h
  obtain ⟨hl, hn⟩ := h
  rw [List.eq_replicate_iff]
  refine ⟨hl, fun w hw => ?_⟩
  have := hn _ (List.mem_map_of_mem hw)
  simpa using this

theorem KeepsBut.watches_none {l : List Part} {n : Nat} (k : KeepsBut l s t) (h : s.nav.watches = List.replicate n none)
    (m : Part.nav ∉ l := by decide) : t.nav.watches = List.replicate n none := by
  refine watches_none_of_unfired ?_
  rw [(k.same .nav m).2.2, h]
  simp

theorem noWatches_of_replicate {n : Nat} (h : s.nav.watches = List.replicate n none) : NoWatches s := fun w hw => by
  rw [h] at hw
  exact List.eq_of_mem_replicate hw

/-! ### EJECT (R11, R13) -/

theorem ejectRequest_refused {st : Status} (he : s.transport.mode ≠ .empty) (hj : s.transport.mode ≠ .ejecting)
    (hf : s.transport.mode ≠ .fault) (hr : s.transport.recovering = false) (hc : s.mech.refusal = some st) :
    ejectRequest s = answer st s := by
  unfold ejectRequest
  split
  · next h => exact absurd h he
  · next h => exact absurd h hj
  · next h => exact absurd h hf
  · simp only [hr, hc, Bool.false_eq_true, if_false]

theorem ejectRequest_granted (he : s.transport.mode ≠ .empty) (hj : s.transport.mode ≠ .ejecting)
    (hf : s.transport.mode ≠ .fault) (hr : s.transport.recovering = false) (hc : s.mech.refusal = none) :
    ejectRequest s = answer .accepted (giveTarget .empty (grantOperator .direct s)) := by
  unfold ejectRequest
  split
  · next h => exact absurd h he
  · next h => exact absurd h hj
  · next h => exact absurd h hf
  · simp only [hr, hc, Bool.false_eq_true, if_false]

theorem grantOperator_direct (h : MechDirect s) (hr : s.transport.resetInFlight = false) (a : OperatorActivity) :
    grantOperator a s = setMech (.operator a) s := by
  have same : ({ s.transport with resetInFlight := false } : Transport) = s.transport := by rw [← hr]
  rw [grantOperator, endOperator_direct h]
  exact congrArg (fun t => setMech (.operator a) { s with transport := t }) same

theorem MechDirect.refusal (h : MechDirect s) : s.mech.refusal = none := by rcases h with h | h <;> rw [h] <;> rfl

/-- EJECT in STOP or a threaded mode that the operator or no one holds gives the target EMPTY (R11). -/
theorem ejectRequest_taken (hm : s.transport.mode = .stop ∨ s.transport.mode.threaded = true) (hr : s.transport.recovering = false)
    (hq : s.transport.resetInFlight = false) (hd : MechDirect s) :
    ejectRequest s = answer .accepted (giveTarget .empty (setMech (.operator .direct) s)) := by
  have other : ∀ m : Mode, m ≠ .stop → m.threaded = false → s.transport.mode ≠ m := by
    rintro m hs ht rfl
    rcases hm with h | h
    · exact hs h
    · rw [ht] at h; cases h
  rw [ejectRequest_granted (other .empty (by decide) rfl) (other .ejecting (by decide) rfl) (other .fault (by decide) rfl) hr
    hd.refusal, grantOperator_direct hd hq]

/-! ### A mechanical step begins (R12) -/

/-- The end of an event in which a mechanical step has begun from a state. -/
structure Stepping (k : MechStep) (s t : State) : Prop where
  record : t.transport = { s.transport with stepStart := s.now }.reached k.mode (some (.mech k)) s.now
  note   : Announced .mode t.transportBytes t
  keeps  : KeepsBut [.transport, .counter, .estimate, .marks, .sending] s t

/-- A step that begins outside STOPPING ends no DECK_RESET sequence. -/
theorem beginMech_sequence {k : MechStep} (hr : b.transport.resetInFlight = false ∨ s.transport.resetInFlight = true) :
    b.transport.resetInFlight = false ∨ (beginMech k s).transport.resetInFlight = true := by
  refine hr.imp id fun h => ?_
  rw [beginMech_transport]
  cases k <;> simp [Transport.reached, h, MechStep.mode]

theorem stepping_settled (k : MechStep) (hb : s.power.state ≠ .backup) (hn : NotStopping s)
    (hr : b.transport.resetInFlight = false ∨ s.transport.resetInFlight = true) :
    (settleUnits b (beginMech k s)).transport = { s.transport with stepStart := s.now }.reached k.mode (some (.mech k)) s.now ∧
      ModeNoted (settleUnits b (beginMech k s)) ∧
      KeepsBut [.transport, .counter, .estimate, .marks, .sending] s (settleUnits b (beginMech k s)) := by
  have hn' : NotStopping (beginMech k s) := hn.of (beginMech_still k s).power
  have settled := settleUnits_keeps (beginMech_sequence (k := k) hr) hn'
  exact ⟨settled.transport.trans (beginMech_transport k s), (beginMech_noted k hb).settleUnits (beginMech_sequence hr) hn',
    ((beginMech_still k s).mono (by simp [stillParts])).trans (settled.mono (by simp))⟩

theorem stepping_event (k : MechStep) (hb : s.power.state ≠ .backup) (hn : NotStopping s)
    (hr : b.transport.resetInFlight = false ∨ s.transport.resetInFlight = true) : Stepping k s (endDeckEvent b (beginMech k s)) := by
  obtain ⟨ht, hm, hk⟩ := stepping_settled k hb hn hr
  exact ⟨(chooseFrame_transport _).trans ht, hm.announced, hk.trans ((chooseFrame_keeps _).mono (by simp))⟩

theorem stepping_answered (q : RequestKind) (r : Reply) (k : MechStep) (hb : s.power.state ≠ .backup) (hn : NotStopping s)
    (hr : b.transport.resetInFlight = false ∨ s.transport.resetInFlight = true) :
    Stepping k s (answered q r (settleUnits b (beginMech k s))) := by
  obtain ⟨ht, hm, hk⟩ := stepping_settled k hb hn hr
  exact ⟨(answered_transport ..).trans ht, hm.answered q r, hk.trans ((answered_keeps ..).mono (by simp))⟩

namespace Stepping

variable {k : MechStep} (h : Stepping k s t)

include h in
theorem mode : t.transport.mode = k.mode := by rw [h.record]; rfl

include h in
theorem change : t.transport.change = some (.mech k) := by rw [h.record]; rfl

include h in
theorem start : t.transport.stepStart = s.now := by rw [h.record]; rfl

include h in
theorem target {m : Mode} (ht : s.transport.target = some m) (hm : m ≠ k.mode := by decide) : t.transport.target = some m := by
  rw [h.record, ← ht]
  exact if_neg fun e => hm (Option.some.inj (ht.symm.trans e))

end Stepping

/-! ### The statements -/

theorem exec_eject {st : Status} (hs : PortReady s) (h : ejectRequest s = answer st u) :
    exec .eject s = .next (answered .eject { status := st } (settleUnits s u)) := by
  have served : requestFrame .eject [] s = answered .eject (ejectRequest s).2 (settleUnits s (ejectRequest s).1) :=
    requestFrame_ready hs rfl
  rw [h] at served
  exact congrArg _ served

/-- An EJECT that begins a mechanical step is ACCEPTED. -/
theorem eject_stepping {k : MechStep} {v : State} (hs : PortReady s) (h : ejectRequest s = answer .accepted (beginMech k v))
    (hq : s.transport.resetInFlight = false) (hn : NotStopping v) (hb : v.power.state ≠ .backup) :
    ∃ t, exec .eject s = .next t ∧ Replied .eject { status := .accepted } t ∧ Stepping k v t :=
  ⟨_, exec_eject hs h, replied_answered .., stepping_answered _ _ k hb hn (.inl hq)⟩

/-- The path to EMPTY from rest or from a threaded mode. -/
theorem ejectRequest_steps (hm : s.transport.mode = .stop ∨ s.transport.mode.threaded = true) (hr : s.transport.recovering = false)
    (hq : s.transport.resetInFlight = false) (hd : MechDirect s) (hc : s.transport.change = none) :
    (s.transport.mode = .stop → ejectRequest s =
      answer .accepted (beginMech .ejecting (aimed .empty none (setMech (.operator .direct) s)))) ∧
    (s.transport.mode ≠ .stop → ejectRequest s =
      answer .accepted (beginUnthreading .plain (aimed .empty none (setMech (.operator .direct) s)))) := by
  rw [ejectRequest_taken hm hr hq hd]
  refine ⟨fun h => congrArg _ (setTarget_ejects (s := setMech (.operator .direct) s) h hc none), fun h => ?_⟩
  refine congrArg _ (setTarget_unthreads (s := setMech (.operator .direct) s) ⟨?_, ?_⟩ (.inr rfl) none)
  · exact hm.resolve_left h
  · exact mechInFlight_of_none hc

/-- A recovery from FAULT under way to a target (R13). -/
def recoveringTo (m : Mode) (s : State) : State := { s with transport := { s.transport with recovering := true, target := some m } }

/-- A recovery by EJECT begins the mechanical step outward from where the mechanism stands; out is EMPTY at once (R13). -/
theorem recover_eject (s : State) :
    (s.pins.position = .threaded ∨ s.pins.position = .betweenLoadedAndThreaded →
      recover true s = beginMech .unthreading { recoveringTo .empty s with transport.unthreadEnd := .plain }) ∧
    (s.pins.position = .loaded ∨ s.pins.position = .betweenOutAndLoaded → recover true s = beginMech .ejecting (recoveringTo .empty s)) ∧
    (s.pins.position = .out → recover true s = enterEmpty { s with transport.recovering := true }) := by
  refine ⟨fun h => ?_, fun h => ?_, fun h => ?_⟩
  · rcases h with h | h <;> simp only [recover, h] <;> rfl
  · rcases h with h | h <;> simp only [recover, h] <;> rfl
  · simp [recover, h]

theorem ejectRequest_fault (h : s.transport.mode = .fault) : ejectRequest s = answer .accepted (recover true s) := by
  unfold ejectRequest
  split <;> simp_all

/-- The parts that the EJECT of a held deck may change, as the frame of the statement lists them. -/
theorem aimed_keeps (m : Mode) (c : Option StopCause) (s : State) : KeepsBut [.transport] s (aimed m c s) := by
  refine ⟨fun q hq => ?_⟩
  cases q <;> simp_all [SamePart, aimed]

theorem refusal_timer (h : s.mech.isTimer = true) : s.mech.refusal = some .busyTimer := by
  cases hm : s.mech <;> simp_all [MechClaim.isTimer, MechClaim.refusal]

theorem refusal_protect (h : s.mech.isProtect = true) : s.mech.refusal = some .busyProtect := by
  cases hm : s.mech <;> simp_all [MechClaim.isProtect, MechClaim.refusal]

/-- A change of the transport record alone. -/
theorem withTransport_keeps (r : Transport) (s : State) : KeepsBut [.transport] s { s with transport := r } := by
  refine ⟨fun q hq => ?_⟩
  cases q <;> simp_all [SamePart]

theorem endEmpty_still (hn : NotStopping s) (hr : b.transport.resetInFlight = false) :
    settleUnits b (setMech .free (emptyDeck s)) = forgetCandidate (setMech .free (emptyDeck s)) := by
  refine settleUnits_still (.inl hr) (hn.of (emptyDeck_keeps s).power) ?_
  rw [setMech_transport, emptyDeck_transport]
  rfl

theorem forgetCandidate_keeps (s : State) : KeepsBut [.estimate] s (forgetCandidate s) := by
  refine ⟨fun q hq => ?_⟩
  cases q <;> simp_all [SamePart, forgetCandidate]

/-- The position record as EMPTY is entered at a time, with the report period that takes effect (R45). -/
def TapePosition.emptied (p : TapePosition) (now period : Nat) : TapePosition :=
  { p with
    supply := p.supply.empty .stalled, takeUp := p.takeUp.empty .stalled, cls := none, origin := .none, idCount := 0,
    candidate := none, lastIdent := none, fraction := none, held := false, counter := 0, quality := .exact, spanStart := none,
    lastReport := now, reportPeriod := period }

/-- An event has ended in EMPTY, with no program and no navigation to act on it. -/
structure Emptied (s t : State) : Prop where
  record  : t.transport = s.transport.emptied.reached .empty none s.now
  tape    : t.tape = s.tape.emptied s.now s.link.period
  mech    : t.mech = .free
  history : t.marks.history = []
  writer  : t.marks.writer = none
  goto    : t.nav.goto = .idle
  run     : t.nav.run = .cold
  watches : t.nav.watches = List.replicate 8 none
  note    : Announced .mode t.transportBytes t
  keeps   : KeepsBut emptyParts s t

/-- The end of an event in EMPTY, whatever is then sent. -/
theorem emptied_of_sent {send : State → State} (hb : b.transport.resetInFlight = false) (hn : NotStopping s)
    (hr : s.power.state ≠ .backup) (keeps : ∀ u, KeepsBut [.sending] u (send u)) (tape : ∀ u, (send u).tape = u.tape)
    (note : ∀ u, ModeNoted u → Announced .mode (send u).transportBytes (send u)) :
    Emptied s (send (settleUnits b (setMech .free (emptyDeck s)))) := by
  rw [endEmpty_still hn hb]
  have sent := keeps (forgetCandidate (setMech .free (emptyDeck s)))
  obtain ⟨writer, -, history⟩ := sent.same .marks (by decide)
  exact
    { record := sent.transport.trans (emptyDeck_transport s)
      tape := (tape _).trans (by simp only [forgetCandidate, setMech_tape, emptyDeck_tape]; rfl)
      mech := sent.mech
      history := history
      writer := writer
      goto := sent.goto
      run := sent.run
      watches := sent.watches_none rfl
      note := note _ ((emptyDeck_noted hr).of rfl rfl)
      keeps := ((emptyDeck_keeps s).trans (((setMech_keeps .free _).mono (by simp [emptyParts])).trans
        ((forgetCandidate_keeps _).mono (by simp [emptyParts])))).trans (sent.mono (by simp [emptyParts])) }

/-- Settles O6: the refusals change nothing, the path outward begins a mechanical step, and the out position ends in EMPTY at once. -/
theorem ejectServed : Obligations.EjectServed := by
  intro s hs hd
  refine ⟨fun hm => ?_, fun hm => ?_, fun he hj hf hr => ⟨fun hc => ?_, fun hc => ?_⟩, fun hq hn hd hr hc hm => ?_,
    fun hm hc hq hn hp => ?_, fun hm hc hq hn hp hv hk ho => ?_⟩
  · exact congrArg _ (requestFrame_refused hs hd rfl (by simp only [serve, ejectRequest, hm]))
  · exact congrArg _ (requestFrame_refused hs hd rfl (by simp only [serve, ejectRequest, hm]))
  · exact congrArg _ (requestFrame_refused hs hd rfl (by simp only [serve, ejectRequest_refused he hj hf hr (refusal_timer hc)]))
  · exact congrArg _ (requestFrame_refused hs hd rfl (by simp only [serve, ejectRequest_refused he hj hf hr (refusal_protect hc)]))
  · obtain ⟨ejects, unthreads⟩ := ejectRequest_steps hm hr hq hd hc
    have taken : KeepsBut [.transport, .counter, .estimate, .marks, .mech, .sending] s
        (aimed .empty none (setMech (.operator .direct) s)) :=
      ((setMech_keeps ..).mono (by simp)).trans ((aimed_keeps ..).mono (by simp))
    by_cases h : s.transport.mode = .stop
    · obtain ⟨t, ht, replied, st⟩ := eject_stepping hs (ejects h) hq hn.of hs.runs
      exact ⟨t, ht, replied, st.keeps.mech, fun _ => ⟨st.mode, st.change⟩, fun hne => absurd h hne, st.start,
        by rw [st.record]; rfl, st.note, taken.trans (st.keeps.mono (by simp))⟩
    · obtain ⟨t, ht, replied, st⟩ := eject_stepping hs (unthreads h) hq hn.of hs.runs
      exact ⟨t, ht, replied, st.keeps.mech, fun hst => absurd hst h, fun _ => ⟨st.mode, st.change, st.target rfl⟩, st.start,
        by rw [st.record]; rfl, st.note,
        (taken.trans ((withTransport_keeps ..).mono (by simp))).trans (st.keeps.mono (by simp))⟩
  · obtain ⟨unthreads, ejects, -⟩ := recover_eject s
    have request := ejectRequest_fault hm
    have turned : ∀ r, KeepsBut [.transport, .counter, .estimate, .marks, .sending] s { s with transport := r } :=
      fun r => (withTransport_keeps r s).mono (by simp)
    by_cases h : s.pins.position = .threaded ∨ s.pins.position = .betweenLoadedAndThreaded
    · rw [unthreads h] at request
      obtain ⟨t, ht, replied, st⟩ := eject_stepping hs request hq hn.of hs.runs
      refine ⟨t, ht, replied, by rw [st.record]; rfl, by rw [st.record]; rfl, st.start,
        fun _ => ⟨st.mode, st.change, st.target rfl⟩, fun h' => ?_, st.note,
        (turned _).trans st.keeps⟩
      rcases h with h | h <;> simp [h] at h'
    · have h' : s.pins.position = .loaded ∨ s.pins.position = .betweenOutAndLoaded := by
        cases hpos : s.pins.position <;> simp_all
      rw [ejects h'] at request
      obtain ⟨t, ht, replied, st⟩ := eject_stepping hs request hq hn.of hs.runs
      exact ⟨t, ht, replied, by rw [st.record]; rfl, by rw [st.record]; rfl, st.start, fun h'' => absurd h'' h,
        fun _ => ⟨st.mode, st.change⟩, st.note, (turned _).trans st.keeps⟩
  · obtain ⟨-, -, out⟩ := recover_eject s
    have request : ejectRequest s = answer .accepted (setMech .free (emptyDeck { s with transport.recovering := true })) := by
      rw [ejectRequest_fault hm, out ho, enterEmpty_idle hp.of hv.of (.inr (by simp [hk, MechClaim.isProtect]))]
    have ended := emptied_of_sent (s := { s with transport.recovering := true }) hq hn.of hs.runs
      (answered_keeps .eject { status := .accepted }) (answered_tape _ _) fun u h => h.answered _ _
    have tape := ended.tape
    exact ⟨_, exec_eject hs request, replied_answered .., by rw [ended.record]; rfl, by rw [ended.record]; rfl, by rw [ended.record]; rfl,
      by rw [ended.record]; rfl, by rw [ended.record]; rfl, ended.mech, by rw [tape]; rfl, by rw [tape]; rfl, by rw [tape]; rfl,
      ended.history, noWatches_of_replicate ended.watches, by rw [ended.run]; rfl, ended.note,
      ((withTransport_keeps _ s).mono (by simp)).trans ended.keeps⟩

/-- The connections report something else. -/
def State.withPins (p : Pins) (s : State) : State := { s with pins := p }

theorem withPins_keeps (p : Pins) (s : State) : KeepsBut [.pins] s (s.withPins p) := by
  refine ⟨fun q hq => ?_⟩
  cases q <;> simp_all [SamePart, State.withPins]

/-- The report of a mechanical step's end is acted on while the step is in flight (R8 to R11). -/
theorem stepReport_acts {k : MechStep} (hb : s.power.state ≠ .backup) (hc : s.transport.change = some (.mech k)) (p : Pins)
    (act : State → State) :
    (if (s.withPins p).stepping k then deckEvent act (s.withPins p) else s.withPins p) =
      endDeckEvent (s.withPins p) (act (s.withPins p)) := by
  have step : (s.withPins p).stepping k = true := by simp [State.stepping, State.withPins, hc]
  exact (if_pos step).trans (deckEvent_running (s := s.withPins p) hb act)

/-- Settles O11: the out position empties the deck, and with nothing in flight the coming to rest frees its claim. -/
theorem ejectEndsInEmpty : Obligations.EjectEndsInEmpty := by
  intro s hb hm hc hq hn hd hp hv inside
  obtain ⟨out, hout⟩ : ∃ p : Pins, p = { s.pins with position := .out, cassetteIn := inside } := ⟨_, rfl⟩
  have acts := stepReport_acts hb hc out enterEmpty
  rw [enterEmpty_idle (s := s.withPins out) hp.of hv.of hd] at acts
  have ended : Emptied (s.withPins out) (endDeckEvent (s.withPins out) (setMech .free (emptyDeck (s.withPins out)))) :=
    emptied_of_sent hq hn.of hb chooseFrame_keeps chooseFrame_tape fun u h => h.announced
  have record := ended.record
  have tape := ended.tape
  have exec_out : exec (.ejectComplete inside) s = .next (endDeckEvent (s.withPins out) (setMech .free (emptyDeck (s.withPins out)))) := by
    rw [← acts, hout]
    rfl
  exact ⟨_, exec_out, by rw [record]; rfl, by rw [record]; rfl, by rw [record]; rfl, by rw [record]; rfl,
    by rw [record]; rfl, by rw [record]; rfl, by rw [record]; rfl, by rw [tape]; rfl, by rw [tape]; rfl,
    by rw [tape]; rfl, by rw [tape]; rfl, by rw [tape]; rfl, by rw [tape]; rfl, by rw [tape]; rfl, by rw [tape]; rfl,
    by rw [tape]; rfl, ended.history, ended.writer, ended.watches, by rw [ended.run]; rfl, by rw [ended.run]; rfl, ended.goto,
    ended.mech, ended.keeps.pins.trans hout, ended.note, ((withPins_keeps _ s).mono (by simp)).trans (ended.keeps.mono (by simp [emptyParts]))⟩

end Sys2Proof.Machine
end

section
/-! O8, O9, O10 and O12: the mechanical steps confirmed, and the one that is not (R8 to R10, R12). -/

namespace Sys2Proof.Machine

variable {b s t : State}

/-! ### STOP entered (R8, R10, R185) -/

/-- No rewind waits for the end of the stop any more (R24). -/
def forgetRewind (s : State) : State := { s with transport.rewindDue := false }

theorem forgetRewind_keeps (s : State) : KeepsBut [.transport] s (forgetRewind s) := withTransport_keeps ..

theorem atStop_eq (s : State) : atStop s =
    if s.rewinds then autoRewind s
    else if s.transport.target.isSome then choosePath (forgetRewind s) else comeToRest (forgetRewind s) := rfl

theorem ModeNoted.forgetRewind (h : ModeNoted s) : ModeNoted (forgetRewind s) := ModeNoted.of_bytes h rfl rfl

theorem ModeNoted.setMech (h : ModeNoted s) (c : MechClaim) : ModeNoted (setMech c s) := h.of rfl rfl

theorem ModeNoted.forgetCandidate (h : ModeNoted s) : ModeNoted (forgetCandidate s) := h.of rfl rfl

/-- STOP is reached with nothing left to do: the claim is given up (R185, R187). -/
theorem atStop_idle (hp : NoPrograms s) (hn : NoNavigation s) (hm : s.transport.mode = .stop) (hs : s.settled = true)
    (hr : s.rewinds = false) (hd : MechDirect s ∨ s.mech.isProtect = true) :
    atStop s = setMech .free (forgetRewind s) := by
  have target : s.transport.target.isSome = false := by
    simp only [State.settled, Bool.and_eq_true, beq_iff_eq] at hs
    simp [hs.2]
  have mode : (forgetRewind s).transport.mode = .stop := hm
  have settled : (forgetRewind s).settled = true := hs
  have still : (forgetRewind s).standsStill = true := by simp [State.standsStill, settled, mode]
  simp only [atStop_eq, hr, Bool.false_eq_true, if_false, target]
  exact comeToRest_idle hp.of hn.of still hd

/-- STOP is reached with a target left, and the path to it begins (R4). -/
theorem atStop_path {m : Mode} (ht : s.transport.target = some m) : atStop s = choosePath (forgetRewind s) := by
  have hr : s.rewinds = false := by simp [State.rewinds, ht]
  simp only [atStop_eq, hr, Bool.false_eq_true, if_false, ht, Option.isSome_some, if_true]

theorem endRecovery_none (h : s.transport.recovering = false) : endRecovery s = s := by
  simp only [endRecovery, h, Bool.false_eq_true, if_false]
  rw [← h]

theorem enterStop_of_target {m : Mode} (ht : s.transport.target = some m) (hm : m ≠ .stop) :
    enterStop s = choosePath (forgetRewind (enterMode .stop none s)) := by
  have target : (enterMode .stop none s).transport.target = some m := by
    rw [enterMode_transport, Transport.reached, ht]
    exact if_neg fun e => hm (Option.some.inj e)
  simp only [enterStop, ht, Option.all_some, beq_iff_eq, hm, if_false, atStop_path target]

/-- What a confirmed step leaves as it begins another one in STOP. -/
theorem atRest_keeps (s : State) :
    KeepsBut stillParts s (forgetRewind (enterMode .stop none s)) :=
  (enterMode_still rfl none s).trans ((forgetRewind_keeps _).mono (by simp [stillParts]))

/-! ### LOADING (R8, R45, R62) -/

/-- The record as the loaded position ends LOADING with no other target left. -/
def Transport.loadedWith (r : Transport) (tab : Bool) : Transport :=
  { r with
    recovering := false, faultCause := if r.recovering then none else r.faultCause, recordTab := tab, playSpeed := .standard,
    stopCause := none }

theorem cassetteLoad_keeps (s : State) : KeepsBut [.counter, .reels, .estimate, .marks, .sending] s (cassetteLoad s) := by
  refine KeepsBut.trans ((resetCassette_keeps .collecting s).mono (by simp)) ⟨fun q hq => ?_⟩
  cases q <;> simp_all [SamePart, cassetteLoad]

theorem ModeNoted.cassetteLoad (h : ModeNoted s) : ModeNoted (cassetteLoad s) := (h.resetCassette .collecting).of rfl rfl

theorem programAtLoad_idle (h : NoPrograms s) : programAtLoad s = s := by
  simp [programAtLoad, State.activeProgram, h.active]

/-- STOP with a cassette load, before the claims are looked at. -/
def loadedDeck (s : State) : State :=
  cassetteLoad (enterMode .stop none { s with transport := s.transport.loadedWith s.pins.recordTab })

theorem loadedDeck_transport (s : State) :
    (loadedDeck s).transport = (s.transport.loadedWith s.pins.recordTab).reached .stop none s.now := by
  rw [loadedDeck, (cassetteLoad_keeps _).transport, enterMode_transport]

theorem loadedDeck_keeps (s : State) :
    KeepsBut [.transport, .counter, .reels, .estimate, .marks, .sending] s (loadedDeck s) :=
  ((withTransport_keeps _ s).mono (by simp)).trans
    (((enterMode_still rfl none _).mono (by simp [stillParts])).trans ((cassetteLoad_keeps _).mono (by simp)))

/-- The loaded position with no other target left, and neither program nor navigation to act on it. -/
theorem enterLoaded_idle (hp : NoPrograms s) (hn : NoNavigation s) (ht : s.transport.target = some .stop) (hd : MechDirect s) :
    enterLoaded s = setMech .free (forgetRewind (loadedDeck s)) := by
  have kept := loadedDeck_keeps s
  have record := loadedDeck_transport s
  have rewinds : (loadedDeck s).rewinds = false := by
    rcases hd with h | h <;> simp [State.rewinds, kept.mech, h, MechClaim.isProtect]
  have settled : (loadedDeck s).settled = true := by
    simp [State.settled, record, Transport.reached, Transport.loadedWith, ht]
  have rest := atStop_idle (hp.of kept.sched) ⟨by rw [kept.goto]; exact hn.goto, by rw [kept.run]; exact hn.run⟩
    (by rw [record]; rfl) settled rewinds (.inl (by simpa only [MechDirect, kept.mech] using hd))
  have entered : enterLoaded s = programAtLoad (atStop (loadedDeck s)) := by
    simp only [enterLoaded, ht, Option.all_some, beq_self_eq_true, if_true]
    rfl
  rw [entered, rest, programAtLoad_idle (s := setMech .free (forgetRewind (loadedDeck s))) (hp.of kept.sched)]

/-- The position record after a cassette load at a time, with the report period that takes effect (R45). -/
def TapePosition.loaded (p : TapePosition) (now period : Nat) : TapePosition :=
  { p.emptied now period with supply := p.supply.empty .collecting, takeUp := p.takeUp.empty .collecting }

theorem loadedDeck_tape (s : State) : (loadedDeck s).tape = s.tape.loaded s.now s.link.period := by
  obtain ⟨v, hv⟩ : ∃ v : State, v = { s with transport := s.transport.loadedWith s.pins.recordTab } := ⟨_, rfl⟩
  have now : (enterMode .stop none v).now = s.now := by rw [((enterMode_still rfl none v).same .time (by decide)).1, hv]
  have period : (enterMode .stop none v).link.period = s.link.period := by
    rw [((enterMode_still rfl none v).same .reception (by decide)).2.2.2.2.1, hv]
  have tape : (enterMode .stop none v).tape = { s.tape with spanStart := none } := by rw [enterMode_tape_still rfl, hv]
  rw [loadedDeck, ← hv]
  simp only [cassetteLoad, resetCassette, postTape, post_tape, emptyLists, now, period, tape]
  rfl

theorem loadedDeck_writer (h : s.transport.mode ≠ .record) : (loadedDeck s).marks.writer = s.marks.writer := by
  have reset : ∀ p (u : State), (resetCassette p u).marks = u.marks := fun p u => by simp [resetCassette, postTape, emptyLists]
  rw [loadedDeck, cassetteLoad]
  dsimp only
  rw [reset]
  exact enterMode_writer (s := { s with transport := s.transport.loadedWith s.pins.recordTab }) h (by decide) none

theorem loadedDeck_noted (h : s.power.state ≠ .backup) : ModeNoted (loadedDeck s) :=
  (enterMode_noted (s := { s with transport := s.transport.loadedWith s.pins.recordTab }) .stop none h).cassetteLoad

/-- An event has ended in STOP with a cassette load, and neither program nor navigation to act on it. -/
structure Loaded (s t : State) : Prop where
  record  : t.transport = { s.transport.loadedWith s.pins.recordTab with rewindDue := false }.reached .stop none s.now
  tape    : t.tape = s.tape.loaded s.now s.link.period
  mech    : t.mech = .free
  history : t.marks.history = []
  writer  : s.transport.mode ≠ .record → t.marks.writer = s.marks.writer
  note    : Announced .mode t.transportBytes t
  keeps   : KeepsBut [.transport, .counter, .reels, .estimate, .marks, .mech, .sending] s t

theorem loaded_ended (hb : b.transport.resetInFlight = false) (hn : NotStopping s) (hr : s.power.state ≠ .backup) :
    Loaded s (endDeckEvent b (setMech .free (forgetRewind (loadedDeck s)))) := by
  have kept := (loadedDeck_keeps s).trans ((forgetRewind_keeps _).mono (by simp))
  have record : (forgetRewind (loadedDeck s)).transport =
      { s.transport.loadedWith s.pins.recordTab with rewindDue := false }.reached .stop none s.now := by
    rw [forgetRewind]
    dsimp only
    rw [loadedDeck_transport]
    rfl
  have settled : settleUnits b (setMech .free (forgetRewind (loadedDeck s))) =
      forgetCandidate (setMech .free (forgetRewind (loadedDeck s))) :=
    settleUnits_still (.inl hb) (hn.of kept.power) (by rw [setMech_transport, record]; rfl)
  have sent := chooseFrame_keeps (forgetCandidate (setMech .free (forgetRewind (loadedDeck s))))
  obtain ⟨writer, -, history⟩ := sent.same .marks (by decide)
  rw [endDeckEvent, settled]
  exact
    { record := sent.transport.trans record
      tape := (chooseFrame_tape _).trans (by
        have tape : (setMech .free (forgetRewind (loadedDeck s))).tape = s.tape.loaded s.now s.link.period := loadedDeck_tape s
        rw [forgetCandidate, tape]
        rfl)
      mech := sent.mech
      history := history
      writer := fun h => writer.trans (loadedDeck_writer h)
      note := ((loadedDeck_noted hr).forgetRewind.setMech .free).forgetCandidate.announced
      keeps := ((kept.mono (by simp)).trans ((setMech_keeps .free _).mono (by simp))).trans
        (((forgetCandidate_keeps _).mono (by simp)).trans (sent.mono (by simp))) }

/-- Settles O8: the closing of the switch begins LOADING, and the load resets what belongs to the cassette. -/
theorem loadingRuns : Obligations.LoadingRuns := by
  intro s
  refine ⟨fun hb hm hq hn => ?_, fun hb => ?_, fun hb hm hc ht hq hn hd hp hv tab => ?_⟩
  · obtain ⟨p, hp⟩ : ∃ p : Pins, p = { s.pins with cassetteIn := true } := ⟨_, rfl⟩
    obtain ⟨u, hu⟩ : ∃ u : State, u = { s.withPins p with
      transport := { s.transport with cassettePresent := true, target := some .stop } } := ⟨_, rfl⟩
    have began : exec .cassetteInsert s = .next (endDeckEvent (s.withPins p) (beginMech .loading u)) := by
      have acts : cassetteIn s = endDeckEvent (s.withPins p) (beginLoading (s.withPins p)) := by
        rw [← deckEvent_running (s := s.withPins p) hb, hp]
        exact if_pos hm
      rw [hu]
      exact congrArg _ acts
    have kept : KeepsBut [.pins, .transport] s u := by
      rw [hu]
      exact ((withPins_keeps p s).mono (by simp)).trans ((withTransport_keeps _ _).mono (by simp))
    have st : Stepping .loading u (endDeckEvent (s.withPins p) (beginMech .loading u)) :=
      stepping_event .loading (by rw [kept.power]; exact hb) (hn.of kept.power) (.inl hq)
    have running := (st.keeps.power.trans kept.power).symm ▸ hb
    have present : u.transport.cassettePresent = true := by rw [hu]
    exact ⟨_, began, st.mode, st.change, by rw [st.record]; exact present, st.target (by rw [hu]), st.start.trans (by rw [hu]; rfl),
      loadingMotor_step _ running st.change, st.keeps.pins.trans (by rw [hu]; exact hp), st.note,
      (kept.mono (by simp)).trans (st.keeps.mono (by simp))⟩
  · have still : cassetteIn s = { s with pins.cassetteIn := true } := by simp [cassetteIn, deckEvent, hb]
    exact congrArg _ still
  · obtain ⟨p, hp'⟩ : ∃ p : Pins, p = { s.pins with position := .loaded, recordTab := tab } := ⟨_, rfl⟩
    have acts := stepReport_acts hb hc p enterLoaded
    rw [enterLoaded_idle (s := s.withPins p) hp.of hv.of ht hd] at acts
    have exec_loaded : exec (.loadingComplete tab) s =
        .next (endDeckEvent (s.withPins p) (setMech .free (forgetRewind (loadedDeck (s.withPins p))))) := by
      rw [← acts, hp']
      rfl
    have ended : Loaded (s.withPins p) (endDeckEvent (s.withPins p) (setMech .free (forgetRewind (loadedDeck (s.withPins p))))) :=
      loaded_ended hq hn.of hb
    have record := ended.record
    have position := ended.tape
    exact ⟨_, exec_loaded, by rw [record]; rfl, by rw [record]; rfl,
      by rw [record]; simp [Transport.reached, Transport.loadedWith, State.withPins, ht], by rw [record, hp']; rfl, by rw [record]; rfl,
      by rw [record]; rfl, by rw [position]; rfl, by rw [position]; rfl,
      by rw [position]; rfl, by rw [position]; rfl, by rw [position]; rfl, by rw [position]; rfl,
      by rw [position]; rfl, by rw [position]; rfl, by rw [position]; rfl, by rw [position]; rfl, by rw [position]; rfl,
      ended.history, ended.writer (fun e => by cases hm.symm.trans e), ended.mech, ended.keeps.pins.trans hp', ended.note,
      ((withPins_keeps _ s).mono (by simp)).trans (ended.keeps.mono (by simp))⟩

/-! ### THREADING confirmed (R9, R16) -/

theorem enterThreaded_servo {m : Mode} (ht : s.transport.target = some m) (hm : m.threaded = true) (hf : s.recordForbidden m = false) :
    enterThreaded s = beginServo m s := by
  unfold enterThreaded
  split
  · next e => rw [ht] at e; cases e
  · next e => rw [ht] at e; cases e; cases hm
  · next e => rw [ht] at e; cases e; cases hm
  · next k _ _ e =>
    obtain rfl : m = k := Option.some.inj (ht.symm.trans e)
    simp [hf]

theorem enterThreaded_back {m : Mode} (ht : s.transport.target = some m) (hm : m = .stop ∨ m = .empty) :
    enterThreaded s = beginUnthreading .plain s := by
  have same : ({ s with transport.target := some m } : State) = s := by rw [← ht]
  rcases hm with rfl | rfl <;> simp only [enterThreaded, ht, threadBack, Option.getD_some] <;> rw [same]

theorem enterThreaded_forbidden {m : Mode} (ht : s.transport.target = some m) (hm : m = .record ∨ m = .recPause)
    (hf : s.recordForbidden m = true) :
    enterThreaded s = beginUnthreading .plain { dropTarget s with transport.target := some .stop } := by
  have dropped : (dropTarget s).transport.target = none := by simp [dropTarget]
  rcases hm with rfl | rfl <;> simp only [enterThreaded, ht, hf, if_true, threadBack, dropped, Option.getD_none]

/-- Settles O9: the newest target decides between the servo change and the way back. -/
theorem threadingConfirmed : Obligations.ThreadingConfirmed := by
  intro s hb hd hm hc hq hn
  obtain ⟨p, hp⟩ : ∃ p : Pins, p = { s.pins with position := .threaded } := ⟨_, rfl⟩
  have acts : exec .threadingComplete s = .next (endDeckEvent (s.withPins p) (enterThreaded (s.withPins p))) := by
    rw [← stepReport_acts hb hc p enterThreaded, hp]
    rfl
  have pins := withPins_keeps p s
  refine ⟨fun m ht hth hr => ?_, fun m ht hse => ?_, fun m ht hr hf => ?_⟩
  · have allowed : s.recordForbidden m = false := by
      by_cases h : m = .record ∨ m = .recPause
      · obtain ⟨tab, dew⟩ := hr h
        simp [State.recordForbidden, tab, dew]
      · rw [not_or] at h
        simp [State.recordForbidden, h]
    have ident : forgetCandidate s = s := hd.undue.ident.resolve_left (by
      simp [identifying_of_not_motion (s := s) (by rw [hm]; rfl)])
    have same : forgetCandidate (beginServo m (s.withPins p)) = beginServo m (s.withPins p) :=
      congrArg (fun u => { beginServo m (s.withPins p) with tape := u }) (congrArg State.tape ident)
    have settled : settleUnits (s.withPins p) (beginServo m (s.withPins p)) = beginServo m (s.withPins p) :=
      by
      rw [settleUnits_still (b := s.withPins p) (u := beginServo m (s.withPins p)) (.inl hq) hn.of (show s.transport.mode.motion = false by rw [hm]; rfl),
        same]
    have sent := chooseFrame_keeps (beginServo m (s.withPins p))
    rw [enterThreaded_servo (s := s.withPins p) ht hth allowed, endDeckEvent, settled] at acts
    exact ⟨_, acts, sent.transport, sent.pins.trans hp,
      (pins.mono (by simp)).trans (((beginServo_keeps m _).mono (by simp)).trans (sent.mono (by simp)))⟩
  · rw [enterThreaded_back (s := s.withPins p) ht hse] at acts
    have st : Stepping .unthreading _ (endDeckEvent (s.withPins p) (beginUnthreading .plain (s.withPins p))) :=
      stepping_event (s := { s.withPins p with transport.unthreadEnd := .plain }) .unthreading hb hn.of (.inl hq)
    exact ⟨_, acts, st.mode, st.change, st.target ht (by rcases hse with rfl | rfl <;> decide), st.start, st.keeps.pins.trans hp, st.note,
      (pins.mono (by simp)).trans (((withTransport_keeps _ _).mono (by simp)).trans (st.keeps.mono (by simp)))⟩
  · have forbidden : s.recordForbidden m = true := by
      rcases hr with rfl | rfl <;> rcases hf with h | h <;> simp [State.recordForbidden, h]
    rw [enterThreaded_forbidden (s := s.withPins p) ht hr forbidden] at acts
    have dropped := dropTarget_keeps (s.withPins p)
    have st : Stepping .unthreading _ (endDeckEvent (s.withPins p)
        (beginUnthreading .plain { dropTarget (s.withPins p) with transport.target := some .stop })) :=
      stepping_event (s := { dropTarget (s.withPins p) with transport.target := some .stop, transport.unthreadEnd := .plain })
        .unthreading (by rw [show State.power _ = s.power from dropped.power]; exact hb) (hn.of dropped.power) (.inl hq)
    exact ⟨_, acts, st.mode, st.change, st.target rfl, st.start.trans (dropped.same .time (by decide)).1,
      st.keeps.pins.trans (dropped.pins.trans hp), st.note,
      (pins.mono (by simp)).trans ((dropped.mono (by simp)).trans
        (((withTransport_keeps _ _).mono (by simp)).trans (st.keeps.mono (by simp))))⟩

/-! ### UNTHREADING confirmed (R10) -/

/-- The path ends in STOP (R10, R185, R187). -/
theorem enterStop_idle (hp : NoPrograms s) (hn : NoNavigation s) (ht : s.transport.target = none ∨ s.transport.target = some .stop)
    (hr : s.transport.rewindDue = false) (hd : MechDirect s ∨ s.mech.isProtect = true) :
    enterStop s = setMech .free (forgetRewind (enterMode .stop none (endRecovery s))) := by
  have kept := (withTransport_keeps (endRecovery s).transport s).mono (m := stillParts) (by simp [stillParts])
    |>.trans (enterMode_still (m := .stop) rfl none (endRecovery s))
  have record := enterMode_transport .stop none (endRecovery s)
  have entered : enterStop s = atStop (enterMode .stop none (endRecovery s)) := by
    rcases ht with ht | ht <;> simp [enterStop, ht]
  rw [entered]
  refine atStop_idle (hp.of kept.sched) ⟨by rw [kept.goto]; exact hn.goto, by rw [kept.run]; exact hn.run⟩ (by rw [record]; rfl) ?_ ?_
    (by simpa only [MechDirect, kept.mech] using hd)
  · rw [State.settled, record]
    rcases ht with ht | ht <;> simp [Transport.reached, endRecovery, ht]
  · rw [State.rewinds, record]
    simp [Transport.reached, endRecovery, hr]

/-- Settles O10: the path ends in STOP, where the claim is released, or goes on by what the target asks for. -/
theorem unthreadingConfirmed : Obligations.UnthreadingConfirmed := by
  intro s hb hm hc he hq hn hw hr hp hv
  obtain ⟨p, hpin⟩ : ∃ p : Pins, p = { s.pins with position := .loaded } := ⟨_, rfl⟩
  have plain : enterUnthreaded (s.withPins p) = enterStop (s.withPins p) := by
    unfold enterUnthreaded
    rw [show (s.withPins p).transport.unthreadEnd = .plain from he]
  have acts : exec .unthreadingComplete s = .next (endDeckEvent (s.withPins p) (enterStop (s.withPins p))) := by
    rw [← plain, ← stepReport_acts hb hc p enterUnthreaded, hpin]
    rfl
  have pins := withPins_keeps p s
  refine ⟨fun ht hd => ?_, fun m ht hcase => ?_⟩
  · rw [enterStop_idle (s := s.withPins p) hp.of hv.of (.inr ht) hw hd, endRecovery_none (s := s.withPins p) hr] at acts
    obtain ⟨u, hu⟩ : ∃ u, u = setMech .free (forgetRewind (enterMode .stop none (s.withPins p))) := ⟨_, rfl⟩
    have kept : KeepsBut (.mech :: stillParts) (s.withPins p) u := by
      rw [hu]
      exact ((atRest_keeps _).mono fun _ h => .tail _ h).trans ((setMech_keeps ..).mono (by simp))
    have deck : u.transport = { s.transport with rewindDue := false }.reached .stop none s.now := by
      rw [hu, setMech_transport, forgetRewind]
      dsimp only
      rw [enterMode_transport]
      rfl
    have noted : ModeNoted (forgetCandidate u) := by
      rw [hu]
      exact ((enterMode_noted (s := s.withPins p) .stop none hb).forgetRewind.setMech .free).forgetCandidate
    have settled : settleUnits (s.withPins p) u = forgetCandidate u :=
      settleUnits_still (.inl hq) (hn.of kept.power) (by rw [deck]; rfl)
    have sent := chooseFrame_keeps (forgetCandidate u)
    rw [← hu, endDeckEvent, settled] at acts
    have record := (chooseFrame_transport (forgetCandidate u)).trans deck
    exact ⟨_, acts, by rw [record]; rfl, by rw [record]; rfl, by rw [record]; simp [Transport.reached, ht], by rw [record]; rfl,
      sent.mech.trans (by rw [hu]; rfl), (sent.pins.trans kept.pins).trans hpin, noted.announced,
      (pins.mono (by simp)).trans ((kept.mono (by simp [stillParts])).trans
        (((forgetCandidate_keeps _).mono (by simp)).trans (sent.mono (by simp))))⟩
  · have hs : m ≠ .stop := by
      rintro rfl
      rcases hcase with h | ⟨h, -⟩ <;> cases h
    obtain ⟨u, hu⟩ : ∃ u, u = forgetRewind (enterMode .stop none (s.withPins p)) := ⟨_, rfl⟩
    rw [enterStop_of_target (s := s.withPins p) ht hs, ← hu] at acts
    have kept : KeepsBut stillParts (s.withPins p) u := hu ▸ atRest_keeps _
    have deck : u.transport = { s.transport with rewindDue := false }.reached .stop none s.now := by
      rw [hu, forgetRewind]
      dsimp only
      rw [enterMode_transport]
      rfl
    have target : u.transport.target = some m := by
      rw [deck, Transport.reached]
      simp [ht, hs]
    obtain ⟨k, hk⟩ : ∃ k : MechStep, k = if m = .empty then .ejecting else .threading := ⟨_, rfl⟩
    have path : choosePath u = beginMech k u := by
      rcases hcase with rfl | ⟨hth, dew, tab⟩
      · rw [hk, choosePath_ejects (by rw [deck]; rfl) target]
        rfl
      · have hne : m ≠ .empty := by rintro rfl; cases hth
        rw [hk, if_neg hne]
        refine choosePath_threads (by rw [deck]; rfl) target hth ?_ (by rw [deck]; exact dew)
        by_cases h : m = .record ∨ m = .recPause
        · simp [State.tabForbids, deck, Transport.reached, tab h]
        · rw [not_or] at h
          simp [State.tabForbids, h]
    rw [path] at acts
    have st : Stepping k u (endDeckEvent (s.withPins p) (beginMech k u)) :=
      stepping_event k (by rw [kept.power]; exact hb) (hn.of kept.power) (.inl hq)
    have mode : k.mode = if m = .empty then .ejecting else .threading := by rw [hk]; split <;> rfl
    refine ⟨_, acts, st.mode.trans mode, by rw [st.change, hk], st.start.trans (kept.same .time (by decide)).1, fun hne => ?_,
      (st.keeps.pins.trans kept.pins).trans hpin, st.note,
      (pins.mono (by simp)).trans ((kept.mono (by simp [stillParts])).trans (st.keeps.mono (by simp)))⟩
    refine st.target target ?_
    rintro rfl
    rw [mode, if_neg hne] at hcase
    rcases hcase with h | ⟨h, -⟩ <;> cases h

/-! ### FAULT (R12) -/

/-- The go-to as it is closed, before its note is posted (R68). -/
def Goto.closed (g : Goto) (o : GotoOutcome) (c : Int) : Goto :=
  { g with
    active := false, outcome := some o, landed := if o = .done then some c else none
    overshoot := if o = .done then some (c - g.landingPoint) else none }

theorem closeGoto_eq (o : GotoOutcome) (s : State) :
    closeGoto o s = postGoto { s with nav.goto := s.nav.goto.closed o s.tape.counter } := rfl

theorem closeRun_eq (r : RunResult) (s : State) :
    closeRun r s = postRun { s with nav.run := { s.nav.run with state := .done, result := some r } } := rfl

theorem ModeNoted.withNav (h : ModeNoted s) (n : Navigation) : ModeNoted { s with nav := n } := ModeNoted.of_bytes h rfl rfl

theorem ModeNoted.closeGotoIf (h : ModeNoted s) (o : GotoOutcome) : ModeNoted (if s.nav.goto.active then closeGoto o s else s) := by
  split
  · rw [closeGoto_eq]
    exact (h.withNav { s.nav with goto := s.nav.goto.closed o s.tape.counter }).post (j := .goto) (by decide) _
  · exact h

theorem ModeNoted.closeRunIf (h : ModeNoted s) (r : RunResult) : ModeNoted (if s.nav.run.state.active then closeRun r s else s) := by
  split
  · rw [closeRun_eq]
    exact (h.withNav { s.nav with run := { s.nav.run with state := .done, result := some r } }).post (j := .run) (by decide) _
  · exact h

theorem ModeNoted.endOperator (h : ModeNoted s) (o : GotoOutcome) (r : RunResult) : ModeNoted (endOperator o r s) := by
  unfold Machine.endOperator
  split
  · exact h.closeGotoIf o
  · exact (h.closeGotoIf o).closeRunIf r
  all_goals exact h

/-- A protection takes the mechanism: what the operator does with it ends, with the outcome of its chapter (R24, R72, R84). -/
theorem takeProtect_untimed (h : s.mech.isTimer = false) (c : Protection) :
    takeProtect c s = setMech (.protect c)
      (if c.isLeader then endOperator .tapeEnd s.nav.run.leaderResult s else endOperator .preempted .preempted s) := by
  unfold takeProtect
  cases hm : s.mech with
  | timer a => rw [hm] at h; cases h
  | _ => rfl

theorem heldAtFault_idle (h : NoPrograms s) : heldAtFault s = s := by simp [heldAtFault, h.active]

/-- The record of a step that is not confirmed (R12). -/
def Transport.faulted (r : Transport) (k : MechStep) : Transport :=
  { r with target := none, faultCause := some k, recovering := false, rewindDue := false }

theorem enterFault_idle (hp : NoPrograms s) (hm : s.mech.isTimer = false) (k : MechStep) :
    enterFault k s = setMech (.protect .mech)
      (endOperator .preempted .preempted (enterMode .fault none { s with transport := s.transport.faulted k })) := by
  obtain ⟨u, hu⟩ : ∃ u, u = enterMode .fault none { s with transport := s.transport.faulted k } := ⟨_, rfl⟩
  have kept : KeepsBut stillParts s u := by
    rw [hu]
    exact ((withTransport_keeps _ s).mono (by simp [stillParts])).trans (enterMode_still rfl ..)
  have taken : takeProtect .mech u = setMech (.protect .mech) (endOperator .preempted .preempted u) :=
    takeProtect_untimed (by rw [kept.mech]; exact hm) .mech
  have entered : enterFault k s = heldAtFault (takeProtect .mech u) := by rw [hu]; rfl
  rw [entered, taken, ← hu]
  exact heldAtFault_idle (hp.of ((endOperator_keeps ..).sched.trans kept.sched))

/-- The limit of a mechanical step is reached with the position that the switches report (R12). -/
theorem stepExpired_running {k : MechStep} (hb : s.power.state ≠ .backup) (hc : s.transport.change = some (.mech k)) (p : Position) :
    stepExpired p s = endDeckEvent (s.withPins { s.pins with position := p })
      (enterFault k (leapTo (s.transport.stepStart + seconds 4) (s.withPins { s.pins with position := p }))) := by
  rw [stepExpired, hc]
  exact timerEvent_running (s := s.withPins { s.pins with position := p }) hb _ _

/-- Settles O12: the limit of the step in flight is reached, and FAULT is entered under PROTECT. -/
theorem mechTimeoutFaults : Obligations.MechTimeoutFaults := by
  intro s hb hq hn hp hm k p hc hle
  rw [Bool.not_eq_true] at hm
  obtain ⟨v, hv⟩ : ∃ v, v = leapTo (s.transport.stepStart + seconds 4) (s.withPins { s.pins with position := p }) := ⟨_, rfl⟩
  have kv : KeepsBut [.time, .nav, .pins] s v := by
    rw [hv]
    exact ((withPins_keeps _ s).mono (by simp)).trans ((leapTo_keeps ..).mono (by simp))
  obtain ⟨f, hf⟩ : ∃ f, f = enterMode .fault none { v with transport := v.transport.faulted k } := ⟨_, rfl⟩
  have kf : KeepsBut stillParts v f := by
    rw [hf]
    exact ((withTransport_keeps _ v).mono (by simp [stillParts])).trans (enterMode_still rfl ..)
  obtain ⟨u, hu⟩ : ∃ u, u = setMech (.protect .mech) (endOperator .preempted .preempted f) := ⟨_, rfl⟩
  have ku : KeepsBut [.nav, .sending, .mech] f u := by
    rw [hu]
    exact ((endOperator_keeps ..).mono (by simp)).trans ((setMech_keeps ..).mono (by simp))
  have deck : u.transport = (s.transport.faulted k).reached .fault none v.now := by
    rw [ku.transport, hf, enterMode_transport, kv.transport]
  have faulted : enterFault k v = u := by
    rw [enterFault_idle (hp.of kv.sched) (by rw [kv.mech]; exact hm), ← hf, ← hu]
  have acts : exec (.mechTimeout p) s = .next (endDeckEvent (s.withPins { s.pins with position := p }) u) := by
    have expired := stepExpired_running hb hc p
    rw [← hv, faulted] at expired
    exact congrArg _ expired
  have power : u.power = s.power := ku.power.trans (kf.power.trans kv.power)
  have settled : settleUnits (s.withPins { s.pins with position := p }) u = forgetCandidate u :=
    settleUnits_still (.inl hq) (hn.of power) (by rw [deck]; rfl)
  have noted : ModeNoted (forgetCandidate u) := by
    have running : v.power.state ≠ .backup := by rw [kv.power]; exact hb
    have entered : ModeNoted f := by
      rw [hf]
      exact enterMode_noted (s := { v with transport := v.transport.faulted k }) .fault none running
    rw [hu]
    exact ((entered.endOperator ..).setMech _).forgetCandidate
  have sent := chooseFrame_keeps (forgetCandidate u)
  rw [endDeckEvent, settled] at acts
  have record := (chooseFrame_transport (forgetCandidate u)).trans deck
  have kept : KeepsBut [.time, .pins, .transport, .counter, .estimate, .marks, .nav, .mech, .sending] s u :=
    (kv.mono (by simp)).trans ((kf.mono (by simp [stillParts])).trans (ku.mono (by simp)))
  have now : u.now = s.transport.stepStart + seconds 4 := by
    rw [(ku.same .time (by decide)).1, (kf.same .time (by decide)).1, hv]
    exact leapTo_now_of_le hle
  have pins : u.pins = { s.pins with position := p } := by
    rw [ku.pins, kf.pins, hv]
    rfl
  exact ⟨_, acts, (sent.same .time (by decide)).1.trans now, by rw [record]; rfl, by rw [record]; rfl, by rw [record]; rfl,
    by rw [record]; rfl, sent.mech.trans (by rw [hu]; rfl), sent.pins.trans pins, noted.announced,
    kept.trans (((forgetCandidate_keeps _).mono (by simp)).trans (sent.mono (by simp)))⟩

end Sys2Proof.Machine
end

section
/-! O13, O14, O16 and O60: the servo, the dew sensor, the detection window, and the machine after reset (R14, R15, R18, R21, R26). -/

namespace Sys2Proof.Machine

variable {b s t : State}

/-! ### The reset state (R26) -/

theorem join_replicate_none {α : Type} (k n : Nat) : (List.replicate k (none : Option α))[n]?.join = none := by
  rw [List.getElem?_replicate]
  split <;> rfl

theorem sound_reset : Sound State.reset :=
  ⟨⟨by decide, by decide, by decide, by decide⟩, by decide, by decide, by decide, by decide, by decide, by decide, by decide, by decide,
    by decide, by decide, by decide⟩

/-- Settles O60: the reset state, field by field. -/
theorem soundAtReset : Obligations.SoundAtReset := by
  have preset : ∀ n, State.reset.preset n = none := fun n => by
    rw [State.preset]
    split
    · rfl
    · exact join_replicate_none 99 (n - 1)
  have program : ∀ n, State.reset.program n = none := fun n => by
    rw [State.program]
    split
    · rfl
    · exact join_replicate_none 16 (n - 1)
  have power : State.reset.link.line = some Frame.coldPower ∧ Frame.coldPower.payload.drop 2 = State.reset.powerBytes := by
    decide
  exact ⟨sound_reset, rfl, rfl, rfl, rfl, rfl, rfl, rfl, rfl, rfl, rfl, noWatches_of_replicate (n := 8) rfl, ⟨rfl, rfl⟩, rfl, rfl,
    preset, rfl, rfl, rfl, rfl, rfl, rfl, rfl, program, rfl, rfl, rfl, rfl, rfl, rfl, _, power.1, rfl, power.2⟩

/-! ### The lock of a settled mode (R14, R15) -/

theorem loseLock_settled (h : Threaded s) (hc : s.transport.change = none) :
    loseLock s = { s with transport.lockLostAt := some (s.transport.lockLostAt.getD s.now) } := by
  cases hl : s.transport.lockLostAt with
  | none => simp [loseLock, h.mode, hc, hl]
  | some t =>
    have same : ({ s with transport.lockLostAt := some t } : State) = s := by rw [← hl]
    simp only [loseLock, hl, Option.isNone_some, Bool.and_false, Bool.false_eq_true, if_false, Option.getD_some]
    exact same.symm

/-- The test of the tuner's lock touches the tuner and its note alone (R95, R100). -/
theorem lockTest_keeps (s : State) : KeepsBut [.tuner, .sending] s (lockTest s) := by
  have tuner : ∀ x, KeepsBut [.tuner, .sending] s { s with tuner := x } := fun x => by
    refine ⟨fun q hq => ?_⟩
    cases q <;> simp_all [SamePart]
  unfold lockTest
  split
  · exact .refl _ _
  · split
    · split
      · exact (tuner _).trans ((postTune_keeps _).mono (by simp))
      · exact .refl _ _
    · exact tuner _
    all_goals exact .refl _ _

theorem lockTest_tape (s : State) : (lockTest s).tape = s.tape := by
  unfold lockTest
  split
  · rfl
  · split
    · split
      · simp [enterLocked]
      · rfl
    all_goals rfl

/-- What the conditions read is the same, the whole position record included. -/
theorem Undue.of_tape (h : Undue s) (tape : t.tape = s.tape) (mech : t.mech = s.mech) (power : t.power = s.power)
    (mode : t.transport.mode = s.transport.mode) (change : t.transport.change = s.transport.change)
    (target : t.transport.target = s.transport.target) (relock : t.transport.relockPending = s.transport.relockPending) : Undue t :=
  h.of mode change target relock mech power (congrArg _ tape) (congrArg _ tape) (congrArg _ tape) (congrArg _ tape) (congrArg _ tape)
    (congrArg _ tape) (congrArg _ tape) (congrArg _ tape)

/-- With the lock regained an identification may be owed again; nothing is given up (R14, R33). -/
theorem Undue.regainLock (h : Undue s) : Undue (regainLock s) := by
  refine ⟨h.held, ?_, h.standby⟩
  refine h.ident.imp (fun hi => ?_) fun hf => ?_
  · simp only [State.identifying, Bool.and_eq_true] at hi
    obtain ⟨⟨⟨⟨cls, mode⟩, change⟩, -⟩, valid⟩ := hi
    have valid' : (Machine.regainLock s).bothValid = true := valid
    simp only [State.identifying, Machine.regainLock, cls, mode, change, Bool.true_and, Bool.not_false]
    exact valid'
  · exact congrArg (fun u => { Machine.regainLock s with tape := u }) (congrArg State.tape hf)

theorem holdAgain_idle (h : NoPrograms s) : holdAgain s = s := by simp [holdAgain, h.activeProgram]

theorem programAtDry_idle (h : NoPrograms s) : programAtDry s = s := by
  simp [programAtDry, holdAgain_idle h, rulesIfFree, h.applyRules]

/-- With no program to go on the end of the wet spell clears the flag, and that is all (R21). -/
theorem clearDew_idle (hp : NoPrograms s) : clearDew s = postMode { s with transport.dew := false, transport.drySince := none } :=
  programAtDry_idle (hp.of (by simp))

/-- The loss of lock starts the supervision (R14). -/
theorem loseLock_event (hb : s.power.state ≠ .backup) (hd : Undue s) (h : Threaded s) (hc : s.transport.change = none)
    (hl : s.transport.lockLostAt = none) : deckEvent loseLock s = chooseFrame { s with transport.lockLostAt := some s.now } := by
  have undue : Undue { s with transport.lockLostAt := some s.now } := hd.of
  rw [deckEvent_running hb, loseLock_settled h hc, hl]
  exact undue.endDeckEvent (sequence_same rfl)

theorem syncChanged_of_ne {present : Bool} (h : present ≠ s.pins.sync) :
    syncChanged present s = deckEvent (fun s => lockTest (loseLock s)) (s.withPins { s.pins with sync := present }) := if_neg h

/-- A change of the sync detector's report starts it too, unless it runs (R15). -/
theorem syncChanged_event {present : Bool} (hb : s.power.state ≠ .backup) (hd : Undue s) (h : Threaded s)
    (hc : s.transport.change = none) (hp : present ≠ s.pins.sync) :
    ∃ u, syncChanged present s = chooseFrame u ∧ u.pins = { s.pins with sync := present } ∧
      u.transport = { s.transport with lockLostAt := some (s.transport.lockLostAt.getD s.now) } ∧
      KeepsBut [.pins, .transport, .tuner, .sending] s u := by
  obtain ⟨v, hv⟩ : ∃ v, v = s.withPins { s.pins with sync := present } := ⟨_, rfl⟩
  have kv : KeepsBut [.pins] s v := hv ▸ withPins_keeps ..
  have lost := loseLock_settled (s := v) (by rw [hv]; exact ⟨h.mode, h.change⟩) (by rw [kv.transport]; exact hc)
  have locked : KeepsBut [.transport] v (loseLock v) := by rw [lost]; exact withTransport_keeps ..
  have tested := lockTest_keeps (loseLock v)
  have deck : (lockTest (loseLock v)).transport = { s.transport with lockLostAt := some (s.transport.lockLostAt.getD s.now) } := by
    rw [tested.transport, lost, hv]
    rfl
  have tape : (lockTest (loseLock v)).tape = s.tape := by
    rw [lockTest_tape, lost, hv]
    rfl
  have undue : Undue (lockTest (loseLock v)) := hd.of_tape tape (tested.mech.trans (locked.mech.trans kv.mech))
    (tested.power.trans (locked.power.trans kv.power)) (by rw [deck]) (by rw [deck]) (by rw [deck]) (by rw [deck])
  have acts : syncChanged present s = endDeckEvent v (lockTest (loseLock v)) := by
    rw [syncChanged_of_ne hp, ← hv]
    exact deckEvent_running (by rw [kv.power]; exact hb) _
  refine ⟨_, acts.trans (undue.endDeckEvent (sequence_same ?_)), (tested.pins.trans locked.pins).trans (by rw [hv]; rfl), deck,
    (kv.mono (by simp)).trans ((locked.mono (by simp)).trans (tested.mono (by simp)))⟩
  rw [deck, kv.transport]

/-- The lock regained ends the supervision (R14). -/
theorem regainLock_event (hb : s.power.state ≠ .backup) (hd : Undue s) (hc : s.transport.change = none)
    (hl : s.transport.lockLostAt.isSome = true) (w : Leaders) : servoLocked w s = chooseFrame (regainLock s) := by
  simp only [servoLocked, hc, hl, if_true]
  rw [deckEvent_running hb]
  exact hd.regainLock.endDeckEvent (sequence_same rfl)

/-- The first dry report starts the 60 s (R21). -/
theorem dryReported_event (hb : s.power.state ≠ .backup) (hd : Undue s) (hw : s.transport.dew = true)
    (hs : s.transport.drySince = none) :
    deckEvent (dewReported false) s = chooseFrame { s with transport.drySince := some s.now } := by
  have undue : Undue { s with transport.drySince := some s.now } := hd.of
  have dry : dewReported false s = { s with transport.drySince := some s.now } := by simp [dewReported, hw, hs]
  rw [deckEvent_running hb, dry]
  exact undue.endDeckEvent (sequence_same rfl)

/-- The 60 s of dry reports clear the flag (R21). -/
theorem clearDew_event {limit : Nat} (hb : s.power.state ≠ .backup) (hd : Undue s) (hp : NoPrograms s) :
    ∃ u, timerEvent (some limit) clearDew s = chooseFrame u ∧ u.now = (leapTo limit s).now ∧ ModeNoted u ∧
      u.transport = { s.transport with dew := false, drySince := none } ∧ KeepsBut [.time, .transport, .nav, .sending] s u := by
  obtain ⟨v, hv⟩ : ∃ v, v = leapTo limit s := ⟨_, rfl⟩
  have kv : KeepsBut [.time, .nav] s v := hv ▸ leapTo_keeps ..
  obtain ⟨w, hw⟩ : ∃ w : State, w = { v with transport := { v.transport with dew := false, drySince := none } } := ⟨_, rfl⟩
  have kw : KeepsBut [.transport] v w := hw ▸ withTransport_keeps ..
  have posted := postMode_keeps w
  have deck : (postMode w).transport = { s.transport with dew := false, drySince := none } := by
    rw [posted.transport, hw, kv.transport]
  have tape : (postMode w).tape = s.tape := by
    rw [postMode_tape, hw, hv]
    rfl
  have power : w.power = s.power := kw.power.trans kv.power
  have undue : Undue (postMode w) := hd.of_tape tape (posted.mech.trans (kw.mech.trans kv.mech)) (posted.power.trans power)
    (by rw [deck]) (by rw [deck]) (by rw [deck]) (by rw [deck])
  have cleared : clearDew v = postMode w := by rw [hw]; exact clearDew_idle (hp.of kv.sched)
  refine ⟨postMode w, ?_, (posted.same .time (by decide)).1.trans ((kw.same .time (by decide)).1.trans (by rw [hv])),
    postMode_noted (by rw [power]; exact hb), deck, (kv.mono (by simp)).trans ((kw.mono (by simp)).trans (posted.mono (by simp)))⟩
  rw [timerEvent_running hb, ← hv, cleared]
  exact undue.endDeckEvent (sequence_same (by rw [deck]))

/-- Settles O14: a lock lost or regained and a dry report change the record alone, and nothing that the end of an event tests. -/
theorem lockAndDewFollowed : Obligations.LockAndDewFollowed := by
  intro s hb hd
  refine ⟨fun hm hc => ⟨fun hl => ?_, fun present hne => ?_, fun since hl hn w => ?_⟩,
    fun hw => ⟨fun hdry => ?_, fun since hdry hle hq hn hp => ?_⟩⟩
  · exact congrArg _ (loseLock_event hb hd.undue hm hc hl)
  · obtain ⟨u, acts, pins, deck, kept⟩ := syncChanged_event hb hd.undue hm hc hne
    have sent := chooseFrame_keeps u
    exact ⟨_, congrArg Host.Outcome.next acts, sent.pins.trans pins, sent.transport.trans deck, kept.trans (sent.mono (by simp))⟩
  · have sent := chooseFrame_keeps (regainLock s)
    exact ⟨_, congrArg Host.Outcome.next (regainLock_event hb hd.undue hc (by rw [hl]; rfl) w), sent.transport,
      ((withTransport_keeps _ s).mono (by simp)).trans (sent.mono (by simp))⟩
  · have undue : Undue { s with pins.dew := false } := hd.undue.of
    exact congrArg _ (dryReported_event (s := { s with pins.dew := false }) hb undue hw hdry)
  · obtain ⟨u, acts, now, noted, deck, kept⟩ := clearDew_event (limit := since + seconds 60) hb hd.undue hp
    have limit : s.dryLimit = some (since + seconds 60) := by simp [State.dryLimit, hdry]
    have sent := chooseFrame_keeps u
    exact ⟨_, congrArg Host.Outcome.next ((congrArg (fun l => timerEvent l clearDew s) limit).trans acts),
      (sent.same .time (by decide)).1.trans (now.trans (leapTo_now_of_le hle)), sent.transport.trans deck, noted.announced,
      kept.trans (sent.mono (by simp))⟩

/-! ### The detection window (R18) -/

variable {fr n : Nat} {c r r' : Speed}

theorem countMatches_iff : countMatches fr n c r = true ↔
    9 * fr * r.sigma ≤ 10 * n * c.sigma ∧ 10 * n * c.sigma ≤ 11 * fr * r.sigma := by
  simp only [countMatches, Bool.and_eq_true, decide_eq_true_eq, Nat.mul_right_comm 10 c.sigma n]

/-- The bands of one tenth around the classes do not meet (R18). -/
theorem Speed.eq_of_bands (h : 9 * r.sigma ≤ 11 * r'.sigma) (h' : 9 * r'.sigma ≤ 11 * r.sigma) : r = r' := by
  cases r <;> cases r' <;> simp [Speed.sigma] at h h' ⊢

theorem countMatches_unique (hf : 0 < fr) (h : countMatches fr n c r = true) (h' : countMatches fr n c r' = true) : r = r' := by
  obtain ⟨lo, hi⟩ := countMatches_iff.mp h
  obtain ⟨lo', hi'⟩ := countMatches_iff.mp h'
  refine Speed.eq_of_bands (Nat.le_of_mul_le_mul_left ?_ hf) (Nat.le_of_mul_le_mul_left ?_ hf)
  · rw [Nat.mul_left_comm, Nat.mul_left_comm fr, ← Nat.mul_assoc, ← Nat.mul_assoc]
    exact lo.trans hi'
  · rw [Nat.mul_left_comm, Nat.mul_left_comm fr, ← Nat.mul_assoc, ← Nat.mul_assoc]
    exact lo'.trans hi

theorem mem_speeds (r : Speed) : r ∈ [Speed.standard, .long, .extended] := by cases r <;> simp

theorem detectedClass_of_matches (hf : 0 < fr) (h : countMatches fr n c r = true) : detectedClass fr n c = some r := by
  have hn : n ≠ 0 := by
    rintro rfl
    have lo := (countMatches_iff.mp h).1
    have hr : 0 < r.sigma := by cases r <;> decide
    simp only [Nat.mul_zero, Nat.zero_mul, Nat.le_zero, Nat.mul_eq_zero] at lo
    omega
  rw [detectedClass, if_neg hn]
  cases found : [Speed.standard, .long, .extended].find? (countMatches fr n c) with
  | none => exact absurd h (List.find?_eq_none.mp found r (mem_speeds r))
  | some x => rw [countMatches_unique hf (List.find?_some found) h]

theorem detectedClass_none (hn : n ≠ 0) (h : ∀ r, countMatches fr n c r = false) : detectedClass fr n c = none := by
  rw [detectedClass, if_neg hn, List.find?_eq_none]
  simp [h]

/-- The class in use after a detection window: the class that it gives, if it gives one (R18). -/
def detectedAfter (w : DetectWindow) (s : State) : Speed :=
  (detectedClass s.settings.frameRate w.count s.transport.playSpeed).getD s.transport.playSpeed

/-- The window closed, before the capstan is changed. -/
def withoutDetect (s : State) : State := { s with transport.detect := none }

theorem closeDetection_eq {w : DetectWindow} (h : s.transport.detect = some w) : closeDetection s =
    if detectedAfter w s = s.transport.playSpeed then withoutDetect s else changePlaySpeed (detectedAfter w s) (withoutDetect s) := by
  rcases Option.eq_none_or_eq_some (detectedClass s.settings.frameRate w.count s.transport.playSpeed) with hd | ⟨v, hd⟩
  · simp only [closeDetection, h, hd, detectedAfter, Option.getD_none, if_true]
    rfl
  · simp only [closeDetection, h, hd, detectedAfter, Option.getD_some]
    rfl

/-- The record as the capstan is changed in a settled PLAY: its relock is supervised (R18). -/
def Transport.relocking (t : Transport) (v : Speed) (now : Nat) : Transport :=
  { t with playSpeed := v, relockPending := true, lockLostAt := t.lockLostAt.orElse fun _ => some now }

theorem changePlaySpeed_settled (v : Speed) (h : s.transport.change = none) : changePlaySpeed v s =
    postMode (emptyLists .collecting { s with transport := s.transport.relocking v s.now }) := by
  have settled : (s.transport.change == none) = true := by rw [h]; rfl
  simp only [changePlaySpeed, settled, if_true]
  rfl

theorem changePlaySpeed_keeps (v : Speed) (s : State) : KeepsBut [.transport, .reels, .sending] s (changePlaySpeed v s) := by
  exact ((withTransport_keeps _ s).mono (by simp)).trans
    (((emptyLists_keeps .collecting _).mono (by simp)).trans ((postMode_keeps _).mono (by simp)))

/-- The detection window has closed with a class in use. -/
structure Detected (x : Speed) (s t : State) : Prop where
  mode    : t.transport.mode = s.transport.mode
  detect  : t.transport.detect = none
  speed   : t.transport.playSpeed = x
  relock  : x ≠ s.transport.playSpeed → t.transport.relockPending = true ∧ t.transport.lockLostAt ≠ none
  reels   : x ≠ s.transport.playSpeed → t.tape.supply = s.tape.supply.empty .collecting ∧ t.tape.takeUp = s.tape.takeUp.empty .collecting
  noted   : x ≠ s.transport.playSpeed → ModeNoted t
  keeps   : KeepsBut [.transport, .reels, .sending] s t

theorem changePlaySpeed_detected {x : Speed} (hb : s.power.state ≠ .backup) (hc : s.transport.change = none) :
    Detected x s (changePlaySpeed x (withoutDetect s)) := by
  have changed := changePlaySpeed_settled (s := withoutDetect s) x hc
  have record : (changePlaySpeed x (withoutDetect s)).transport = { s.transport with detect := none }.relocking x s.now := by
    rw [changed, postMode_transport]
    rfl
  have tape : (changePlaySpeed x (withoutDetect s)).tape = { s.tape with
      supply := s.tape.supply.empty .collecting, takeUp := s.tape.takeUp.empty .collecting } := by
    rw [changed, postMode_tape]
    rfl
  refine ⟨by rw [record]; rfl, by rw [record]; rfl, by rw [record]; rfl, fun _ => ⟨by rw [record]; rfl, ?_⟩,
    fun _ => ⟨by rw [tape], by rw [tape]⟩, fun _ => by rw [changed]; exact postMode_noted hb,
    ((withTransport_keeps _ s).mono (by simp)).trans (changePlaySpeed_keeps ..)⟩
  rw [record]
  cases hl : s.transport.lockLostAt <;> simp [Transport.relocking, hl]

theorem closeDetection_detected {w : DetectWindow} (hb : s.power.state ≠ .backup) (hc : s.transport.change = none)
    (h : s.transport.detect = some w) : Detected (detectedAfter w s) s (closeDetection s) := by
  rw [closeDetection_eq h]
  split
  · next e =>
    exact ⟨rfl, rfl, e.symm, fun hne => absurd e hne, fun hne => absurd e hne, fun hne => absurd e hne,
      (withTransport_keeps _ s).mono (by simp)⟩
  · exact changePlaySpeed_detected hb hc

/-- Settles O16: the bands of the classes are apart, so that the count decides the class, and the change of class does the rest. -/
theorem speedDetected : Obligations.SpeedDetected := by
  intro s hb hq hn hm hc w hw hle c near
  obtain ⟨v, hv⟩ : ∃ v, v = leapTo (w.start + seconds 1) s := ⟨_, rfl⟩
  have kv : KeepsBut [.time, .nav] s v := hv ▸ leapTo_keeps ..
  obtain ⟨x, hx⟩ : ∃ x, x = detectedAfter w s := ⟨_, rfl⟩
  have after : detectedAfter w v = x := by rw [hx, detectedAfter, kv.settings, kv.transport]; rfl
  obtain ⟨u, hu⟩ : ∃ u, u = closeDetection v := ⟨_, rfl⟩
  have d : Detected x v u := by
    rw [hu, ← after]
    exact closeDetection_detected (by rw [kv.power]; exact hb) (by rw [kv.transport]; exact hc) (by rw [kv.transport]; exact hw)
  have limit : s.detectLimit = some (w.start + seconds 1) := by simp [State.detectLimit, hw]
  have acts : timerEvent s.detectLimit closeDetection s = endDeckEvent s u := by
    rw [limit, timerEvent_running hb, ← hv, ← hu]
  have power : NotStopping u := hn.of (d.keeps.power.trans kv.power)
  have ended := endDeckEvent_keeps (b := s) (u := u) (.inl hq) power
  have speed : (endDeckEvent s u).transport.playSpeed = x := by rw [ended.transport, d.speed]
  have decided : ∀ y, detectedClass s.settings.frameRate w.count c = some y → x = y := fun y hy => by
    rw [hx, detectedAfter, hy, Option.getD_some]
  refine ⟨_, congrArg Host.Outcome.next acts, ?_, by rw [ended.transport, d.mode, kv.transport]; exact hm,
    by rw [ended.transport, d.detect], fun h0 => ?_, fun r hf hr => ?_, fun h0 h1 h2 h3 => ?_, fun hne => ?_,
    (kv.mono (by simp)).trans ((d.keeps.mono (by simp)).trans (ended.mono (by simp)))⟩
  · rw [(ended.same .time (by decide)).1, (d.keeps.same .time (by decide)).1, hv]
    exact leapTo_now_of_le hle
  · rw [speed]
    exact decided _ (by rw [h0]; rfl)
  · rw [speed]
    exact decided _ (detectedClass_of_matches hf (countMatches_iff.mpr hr))
  · have unmatched : ∀ r, countMatches s.settings.frameRate w.count c r = false := fun r => by
      rw [← Bool.not_eq_true, countMatches_iff]
      cases r
      exacts [h1, h2, h3]
    rw [speed, hx, detectedAfter, detectedClass_none h0 unmatched, Option.getD_none]
  · have moved : x ≠ v.transport.playSpeed := by
      rw [kv.transport]
      exact speed ▸ hne
    obtain ⟨supply, takeUp⟩ := ended.same .reels (by decide)
    obtain ⟨supplied, taken⟩ := d.reels moved
    obtain ⟨pending, lost⟩ := d.relock moved
    have tape : v.tape = s.tape := by rw [hv, leapTo_tape]
    exact ⟨by rw [ended.transport]; exact pending, by rw [ended.transport]; exact lost, by rw [supply, supplied, tape]; rfl,
      by rw [takeUp, taken, tape]; rfl, ((d.noted moved).settleUnits (.inl hq) power).announced⟩

end Sys2Proof.Machine
end

section
/-! O13: the servo condition met (R14), and what a mode reached by it sets (R3, R17, R18, R31, R38, R43, R190). -/

namespace Sys2Proof.Machine

variable {b s t : State} {m : Mode} {w : Leaders}

/-! ### The other units at a threaded mode (R66, R165, R166) -/

theorem programAtRecPause_idle (h : NoPrograms s) : programAtRecPause s = s := by simp [programAtRecPause, h.active]

theorem programAtRecord_idle (h : NoPrograms s) : programAtRecord s = s := by simp [programAtRecord, h.activeProgram]

theorem unitsAtMode_idle (hp : NoPrograms s) (hn : NoNavigation s) (m : Mode) : unitsAtMode m s = s := by
  cases m <;> simp only [unitsAtMode, gotoAtMode_idle hn, programAtRecPause_idle hp, programAtRecord_idle hp]

/-- No leader of the mode's direction reports (R22). -/
def NoLeader (m : Mode) (w : Leaders) : Prop :=
  ¬ (m.direction = some .forward ∧ w.atEnd) ∧ ¬ (m.direction = some .reverse ∧ w.atStart)

theorem leaderAtMode_idle (h : NoLeader s.transport.mode w) : leaderAtMode w s = s := by
  obtain ⟨forward, reverse⟩ := h
  unfold leaderAtMode
  split
  · next e => rw [if_neg fun at_ => forward ⟨e, at_⟩]
  · next e => rw [if_neg fun at_ => reverse ⟨e, at_⟩]
  · rfl

/-! ### The estimate held (R38) -/

theorem heldDue_checkHeld (s : State) : (checkHeld s).heldDue = false := by
  cases h : s.heldDue with
  | false => rw [checkHeld_of_not h, h]
  | true => rw [checkHeld_of_due h]; simp [State.heldDue, postTape]

theorem checkIdentifying_held (s : State) : (checkIdentifying s).tape.held = s.tape.held := by
  unfold checkIdentifying
  split <;> rfl

theorem checkIdentifying_outbox (s : State) : (checkIdentifying s).link.outbox = s.link.outbox := by
  unfold checkIdentifying
  split <;> rfl

/-- The lists emptied as a motion is reached leave no pair of valid periods. -/
theorem enterMode_bothValid (hm : m.motion = true) (c : Option Change) (s : State) : (enterMode m c s).bothValid = false := by
  simp [State.bothValid, enterMode_tape, tapeAtMode_motion hm, emptyLists]

theorem enterMode_heldDue (hm : m.motion = true) (c : Option Change) (hf : s.tape.fraction ≠ none) (hh : s.tape.held = false) :
    (enterMode m c s).heldDue = true := by
  have fraction : (enterMode m c s).tape.fraction = s.tape.fraction := by simp [enterMode_tape, tapeAtMode_motion hm, emptyLists]
  have held : (enterMode m c s).tape.held = s.tape.held := by simp [enterMode_tape, tapeAtMode_motion hm, emptyLists]
  simp [State.heldDue, hm, enterMode_bothValid hm, fraction, held, hh, Option.isSome_iff_ne_none, hf]

/-- An estimate that stands is held as a motion empties the lists; the TAPE note tells of it (R38, R40). -/
theorem checkHeld_enterMode (hb : s.power.state ≠ .backup) (hm : m.motion = true) (c : Option Change) (hf : s.tape.fraction ≠ none) :
    (checkHeld (enterMode m c s)).tape.held = true ∧ (s.tape.held = false → TapeNoted (checkHeld (enterMode m c s))) := by
  cases hh : s.tape.held with
  | false =>
    have due := enterMode_heldDue (c := c) hm hf hh
    rw [checkHeld_of_due due]
    have power : (enterMode m c s).power = s.power := (enterMode_keeps ..).power
    refine ⟨by simp [postTape], fun _ => postTape_noted ?_⟩
    rw [show State.power _ = s.power from power]
    exact hb
  | true =>
    have held : (enterMode m c s).tape.held = true := by simp [enterMode_tape, tapeAtMode_motion hm, emptyLists, hh]
    have still : (enterMode m c s).heldDue = false := by simp [State.heldDue, held]
    rw [checkHeld_of_not still]
    exact ⟨held, nofun⟩

/-! ### The mode reached (R7, R14) -/

theorem enterThreadedMode_idle (hp : NoPrograms s) (hn : NoNavigation s) (h : NoLeader m w) : enterThreadedMode m w s =
    checkHeld (enterMode m none (s.withPins { s.pins with startLeader := w.atStart, endLeader := w.atEnd })) := by
  obtain ⟨u, hu⟩ : ∃ u, u = checkHeld (enterMode m none (s.withPins { s.pins with startLeader := w.atStart, endLeader := w.atEnd })) :=
    ⟨_, rfl⟩
  have kept : KeepsBut (.estimate :: .pins :: modeParts) s u := by
    rw [hu]
    exact ((withPins_keeps _ s).mono (by simp)).trans (((enterMode_keeps ..).mono (by simp [modeParts])).trans
      ((checkHeld_keeps _).mono (by simp [modeParts])))
  have mode : u.transport.mode = m := by rw [hu, (checkHeld_keeps _).transport, enterMode_mode]
  have entered : enterThreadedMode m w s = leaderAtMode w (unitsAtMode m u) := by rw [hu]; rfl
  rw [← hu, entered, unitsAtMode_idle (hp.of (kept.sched (by decide)))
    ⟨by rw [kept.goto (by decide)]; exact hn.goto, by rw [kept.run (by decide)]; exact hn.run⟩]
  exact leaderAtMode_idle (by rw [mode]; exact h)

/-- A deck event has ended in a mode reached by the servo. -/
structure ServoReached (m : Mode) (s t : State) : Prop where
  record  : t.transport = s.transport.reached m none s.now
  motion  : m.motion = true → t.tape.supply = s.tape.supply.empty .collecting ∧ t.tape.takeUp = s.tape.takeUp.empty .collecting ∧
    t.tape.spanStart = some s.now
  held    : m.motion = true → s.tape.fraction ≠ none → t.tape.held = true ∧ (s.tape.held = false → TapeAnnounced t)
  still   : m.motion = false → t.tape.supply = s.tape.supply ∧ t.tape.takeUp = s.tape.takeUp ∧ t.tape.spanStart = none
  counter : t.tape.counter = s.tape.counter ∧ t.tape.quality = s.tape.quality
  note    : Announced .mode t.transportBytes t
  keeps   : KeepsBut [.transport, .counter, .reels, .estimate, .marks, .sending] s t

theorem servoReached_ended (hb : s.power.state ≠ .backup) (hr : b.transport.resetInFlight = false) (hn : NotStopping s) (m : Mode) :
    ServoReached m s (endDeckEvent b (checkHeld (enterMode m none s))) := by
  obtain ⟨e, he⟩ : ∃ e, e = enterMode m none s := ⟨_, rfl⟩
  have ke : KeepsBut modeParts s e := he ▸ enterMode_keeps ..
  have tape : e.tape = (tapeAtMode m s).tape := he ▸ enterMode_tape ..
  have running : NotStopping (checkHeld e) := hn.of ((checkHeld_keeps e).power.trans ke.power)
  have settled : settleUnits b (checkHeld e) = checkIdentifying (checkHeld e) := by
    rw [settleUnits_eq (.inl hr) running, checkHeld_of_not (heldDue_checkHeld e)]
  rw [← he, endDeckEvent, settled]
  have kt : KeepsBut [.estimate, .sending] e (chooseFrame (checkIdentifying (checkHeld e))) :=
    (checkHeld_keeps e).trans (((checkIdentifying_keeps _).mono (by simp)).trans ((chooseFrame_keeps _).mono (by simp)))
  obtain ⟨counter, quality, span⟩ := kt.same .counter (by decide)
  obtain ⟨supply, takeUp⟩ := kt.same .reels (by decide)
  have held : (chooseFrame (checkIdentifying (checkHeld e))).tape.held = (checkHeld e).tape.held := by
    rw [chooseFrame_tape, checkIdentifying_held]
  exact
    { record := kt.transport.trans (he ▸ enterMode_transport ..)
      motion := fun hm => by
        rw [tapeAtMode_motion hm] at tape
        rw [supply, takeUp, span, tape]
        exact ⟨rfl, rfl, rfl⟩
      held := fun hm hf => by
        obtain ⟨h, noted⟩ := checkHeld_enterMode hb hm none hf
        rw [← he] at h noted
        exact ⟨held.trans h, fun hh => ((noted hh).of (checkIdentifying_outbox _)).announced⟩
      still := fun hm => by
        rw [tapeAtMode_still hm] at tape
        rw [supply, takeUp, span, tape]
        exact ⟨rfl, rfl, rfl⟩
      counter := by
        have same : (tapeAtMode m s).tape.counter = s.tape.counter ∧ (tapeAtMode m s).tape.quality = s.tape.quality := by
          unfold tapeAtMode
          split <;> exact ⟨rfl, rfl⟩
        rw [counter, quality, tape]
        exact same
      note := (((he ▸ enterMode_noted m none hb : ModeNoted e).checkHeld).of (checkIdentifying_keeps _).transport
        (checkIdentifying_outbox _)).announced
      keeps := (ke.mono (by simp [modeParts])).trans (kt.mono (by simp)) }

/-- In OPERATING the drives run as the mode asks (R3). -/
theorem drives_of_threaded (ho : s.power.state = .operating) (ht : s.transport.mode.threaded = true) :
    s.drum = .locked ∧
    (s.transport.mode = .still ∨ s.transport.mode = .recPause → s.capstan = .stopped) ∧
    (s.transport.mode = .windFwd ∨ s.transport.mode = .windRev → s.capstan = .pinchReleased) ∧
    (s.transport.mode = .play → s.capstan = .drawing .forward s.transport.playSpeed.tapeSpeed) ∧
    (s.transport.mode = .searchFwd → s.capstan = .drawing .forward (7 * s.transport.playSpeed.tapeSpeed)) ∧
    (s.transport.mode = .searchRev → s.capstan = .drawing .reverse (7 * s.transport.playSpeed.tapeSpeed)) ∧
    (∀ v, s.transport.recordClass = some v → s.transport.mode = .record → s.capstan = .drawing .forward v.tapeSpeed) := by
  refine ⟨?_, ?_, ?_, ?_, ?_, ?_, fun v hv => ?_⟩
  · rw [drum_operating s ho]
    cases hm : s.transport.mode <;> rw [hm] at ht <;> first | rfl | cases ht
  · rintro (h | h) <;> simp [State.capstan, ho, h]
  · rintro (h | h) <;> simp [State.capstan, ho, h]
  all_goals intro h; simp [State.capstan, ho, h]
  simp [hv]

/-- Settles O13: with neither program nor navigation nor leader to act on it, the mode reached event is all that happens. -/
theorem servoLockReachesMode : Obligations.ServoLockReachesMode := by
  intro s hb hq hn hp hv m hc hm w hf hr
  obtain ⟨p, hpin⟩ : ∃ p : Pins, p = { s.pins with startLeader := w.atStart, endLeader := w.atEnd } := ⟨_, rfl⟩
  have acts : servoLocked w s = endDeckEvent s (checkHeld (enterMode m none (s.withPins p))) := by
    rw [hpin, ← enterThreadedMode_idle hp hv ⟨hf, hr⟩]
    simp only [servoLocked, hc]
    exact deckEvent_running hb _
  obtain ⟨t, ht⟩ : ∃ t, t = endDeckEvent s (checkHeld (enterMode m none (s.withPins p))) := ⟨_, rfl⟩
  have reached : ServoReached m (s.withPins p) t := ht ▸ servoReached_ended (s := s.withPins p) hb hq hn.of m
  have record := reached.record
  have mode : t.transport.mode = m := by rw [record]; rfl
  have playSpeed : t.transport.playSpeed = s.transport.playSpeed := by rw [record]; rfl
  have power : t.power = s.power := reached.keeps.power
  refine ⟨t, congrArg Host.Outcome.next (acts.trans ht.symm), mode, by rw [record]; rfl, by rw [record]; rfl, by rw [record]; rfl,
    fun h h' => ?_, fun h => ?_, fun h => ?_, by rw [record]; rfl, fun h => ?_, fun ho => ?_, fun hs => ?_, fun h => ?_,
    reached.counter.1, reached.counter.2, reached.keeps.pins.trans hpin, reached.note,
    ((withPins_keeps p s).mono (by simp)).trans (reached.keeps.mono (by simp))⟩
  · rw [record]
    cases m <;> first | rfl | exact absurd rfl h | exact absurd rfl h'
  · rw [record, h]
    rfl
  · rw [record, h]
    cases ho : s.transport.recordOrder <;> simp [Transport.reached, Transport.classAt, State.withPins, ho]
  · obtain ⟨supply, takeUp, span⟩ := reached.motion h
    exact ⟨supply, takeUp, span, reached.held h⟩
  · have drives := drives_of_threaded (s := t) (by rw [power]; exact ho) (by rw [mode]; exact hm)
    rw [mode, playSpeed] at drives
    exact drives
  · exact drives_off t (by rw [power, hs]; decide)
  · exact reached.still (by simpa using h)

end Sys2Proof.Machine
end

section
/-! O7, O25 and O26: the recording speed, and the control pulses (R17, R19, R39, R42, R51); with them the navigation unit that no go-to, no
run and no watch gives anything to do. -/

namespace Sys2Proof.Machine

variable {b s t : State}

/-! ### A navigation unit without orders (R66, R74, R82) -/

theorem NoWatches.watch (h : NoWatches s) (n : Nat) : s.watch n = none := by
  rw [State.watch]
  split
  · rfl
  · cases hw : s.nav.watches[n - 1]? with
    | none => rfl
    | some w => rw [h w (List.mem_of_getElem? hw)]; rfl

theorem foldl_of_fixed {α β : Type} {f : α → β → α} {a : α} (h : ∀ x, f a x = a) (l : List β) : l.foldl f a = a := by
  induction l with
  | nil => rfl
  | cons x l ih => rw [List.foldl_cons, h, ih]

theorem offerWatches_idle {a : Fired} (h : NoWatches a.state) (f : Firing) : offerWatches f a = a :=
  foldl_of_fixed (fun n => by simp only [offerPlace, h.watch]) _

theorem evaluateRemain_idle (h : NoWatches s) : evaluateRemain s = s := by
  unfold evaluateRemain
  split
  · rw [foldl_of_fixed fun n => by simp only [remainPlace, h.watch]]
    rfl
  · rfl

theorem gotoStep_idle (h : NoNavigation s) (d : Direction) : gotoStep d s = s := by simp [gotoStep, h.goto]

theorem gotoMark_idle (h : NoNavigation s) (r : MarkRecord) : gotoMark r s = s := by simp [gotoMark, h.goto]

theorem NoNavigation.not_playing (h : NoNavigation s) (i : Nat) : s.nav.run.state ≠ .playing i := fun e => by
  have hr := h.run
  rw [e] at hr
  cases hr

theorem runStep_idle (h : NoNavigation s) (d : Direction) : runStep d s = s := by
  unfold runStep
  split
  · next i e => exact absurd e (h.not_playing i)
  all_goals rfl

theorem runMark_idle (h : NoNavigation s) (r : MarkRecord) : runMark r s = s := by
  unfold runMark
  split
  · next i e => exact absurd e (h.not_playing i)
  all_goals rfl

theorem navigate_idle (hw : NoWatches s) (hn : NoNavigation s) (d : Option Direction) (r : Option MarkRecord) : navigate d r s = s := by
  cases d <;> cases r <;>
    simp [navigate, offerWatches_idle, hw, gotoStep_idle hn, runStep_idle hn, gotoMark_idle hn, runMark_idle hn, giveAction]

/-! ### REC_SPEED (R17, R39) -/

theorem Undue.post (h : Undue s) (k : NoteKey) (c : List Byte) : Undue (post k c s) :=
  h.of_tape (post_tape ..) (post_mech ..) (post_power ..) (by rw [post_transport]) (by rw [post_transport]) (by rw [post_transport])
    (by rw [post_transport])

theorem Undue.postTape (h : Undue s) : Undue (postTape s) :=
  Undue.post (s := { s with tape.lastReport := s.now, tape.reportPeriod := s.link.period }) h.of _ _

/-- A quotient rounded with a half upward is the floor of the quotient and a half (R1). -/
theorem rounded_eq_floor (n d : Nat) (hd : 0 < d) : rounded n d = ⌊(n : ℚ) / d + 1 / 2⌋.toNat := by
  have hq : (0 : ℚ) < d := by exact_mod_cast hd
  have quotient : (n : ℚ) / d + 1 / 2 = ((2 * n + d : Nat) : ℚ) / ((2 * d : Nat) : ℚ) := by
    push_cast
    field_simp
  rw [quotient, rounded, ← Nat.floor_div_eq_div (K := ℚ) (2 * n + d) (2 * d), Int.floor_toNat]

/-- The record with another recording speed, and its MODE note (R17). -/
def setSpeed (v : Speed) (s : State) : State := postMode { s with transport := { s.transport with recordSpeed := v } }

theorem setSpeed_keeps (v : Speed) (s : State) : KeepsBut [.transport, .sending] s (setSpeed v s) :=
  ((withTransport_keeps _ s).mono (by simp)).trans ((postMode_keeps _).mono (by simp))

theorem setSpeed_transport (v : Speed) (s : State) : (setSpeed v s).transport = { s.transport with recordSpeed := v } :=
  postMode_transport _

theorem setSpeed_tape (v : Speed) (s : State) : (setSpeed v s).tape = s.tape := postMode_tape _

theorem Undue.setSpeed (h : Undue s) (v : Speed) : Undue (setSpeed v s) :=
  Undue.post (s := { s with transport.recordSpeed := v }) h.of _ _

theorem recSpeed_of_unknown {x : Byte} {v : Speed} (hv : Speed.ofByte x = some v) (hf : s.tape.fraction = none) :
    serve .recSpeed [x] s = answer .ok (setSpeed v s) := by
  have fraction : (setSpeed v s).tape.fraction = none := by rw [setSpeed_tape]; exact hf
  have request : serve .recSpeed [x] s = answer .ok (if (v != s.transport.recordSpeed) && (setSpeed v s).tape.fraction.isSome
      then evaluateRemain (postTape (setSpeed v s)) else setSpeed v s) := by
    show recSpeedRequest x s = _
    simp only [recSpeedRequest, hv]
    rfl
  rw [request, fraction]
  simp

theorem recSpeed_of_known {x : Byte} {v : Speed} (hv : Speed.ofByte x = some v) (hf : s.tape.fraction.isSome = true) (hw : NoWatches s) :
    serve .recSpeed [x] s = answer .ok (if v = s.transport.recordSpeed then setSpeed v s else postTape (setSpeed v s)) := by
  have fraction : (setSpeed v s).tape.fraction.isSome = true := by rw [setSpeed_tape]; exact hf
  have watches : NoWatches (postTape (setSpeed v s)) := fun w h => hw w (by simpa [setSpeed, postTape] using h)
  have request : serve .recSpeed [x] s = answer .ok (if (v != s.transport.recordSpeed) && (setSpeed v s).tape.fraction.isSome
      then evaluateRemain (postTape (setSpeed v s)) else setSpeed v s) := by
    show recSpeedRequest x s = _
    simp only [recSpeedRequest, hv]
    rfl
  rw [request, fraction, evaluateRemain_idle watches]
  by_cases h : v = s.transport.recordSpeed <;> simp [h]

/-- R and E at a setting, each rounded on its own (R39). -/
theorem times_of_estimate {e : Nat × CassetteClass} (h : t.estimate = some e) (v : Speed) :
    t.remaining v = some ⌊(e.1 * e.2.minutes * 60 * v.sigma : ℚ) / 10000 + 1 / 2⌋.toNat ∧
    t.elapsed v = some ⌊((10000 - e.1 : Nat) * e.2.minutes * 60 * v.sigma : ℚ) / 10000 + 1 / 2⌋.toNat := by
  have remain := rounded_eq_floor (e.1 * e.2.minutes * 60 * v.sigma) 10000 (by decide)
  have elapsed := rounded_eq_floor ((10000 - e.1) * e.2.minutes * 60 * v.sigma) 10000 (by decide)
  push_cast at remain elapsed
  simp only [State.remaining, State.elapsed, h, Option.map_some, remainingTime, elapsedTime, remain, elapsed]
  exact ⟨trivial, trivial⟩

/-- Settles O7: the setting and its note, and with an estimate the TAPE note of a change. -/
theorem recSpeedSets : Obligations.RecSpeedSets := by
  intro s hs hd x
  refine ⟨fun hv => ?_, fun v hv hf => ?_, fun e he hw v hv => ?_⟩
  · have refused : serve .recSpeed [x] s = answer .range s := by
      show recSpeedRequest x s = _
      simp only [recSpeedRequest, hv]
    exact congrArg _ (requestFrame_refused hs hd rfl refused)
  · have undue := hd.undue.setSpeed v
    have served : requestFrame .recSpeed [x] s = answered .recSpeed { status := .ok } (settleUnits s (setSpeed v s)) := by
      rw [requestFrame_ready hs rfl, recSpeed_of_unknown hv hf]
      rfl
    rw [undue.settles (sequence_same (by rw [setSpeed_transport]))] at served
    have sent := answered_keeps .recSpeed { status := .ok } (setSpeed v s)
    have noted : ModeNoted (setSpeed v s) := postMode_noted hs.runs
    exact ⟨_, congrArg Host.Outcome.next served, replied_answered .., sent.transport.trans (setSpeed_transport ..), noted.answered _ _,
      (setSpeed_keeps v s).trans (sent.mono (by simp))⟩
  · obtain ⟨u, hu⟩ : ∃ u, u = if v = s.transport.recordSpeed then setSpeed v s else postTape (setSpeed v s) := ⟨_, rfl⟩
    have known : s.tape.fraction.isSome = true := by
      cases hf : s.tape.fraction with
      | some f => rfl
      | none => simp [State.estimate, hf] at he
    have undue : Undue u := by
      rw [hu]
      split
      · exact hd.undue.setSpeed v
      · exact (hd.undue.setSpeed v).postTape
    have kept : KeepsBut [.estimate, .sending] (setSpeed v s) u := by
      rw [hu]
      split
      · exact .refl _ _
      · exact postTape_keeps _
    have position : u.tape.fraction = s.tape.fraction ∧ u.tape.cls = s.tape.cls := by
      rw [hu]
      split <;> simp [postTape, setSpeed_tape]
    obtain ⟨fraction, cls⟩ := position
    have transport : u.transport = { s.transport with recordSpeed := v } := kept.transport.trans (setSpeed_transport ..)
    have served : requestFrame .recSpeed [x] s = answered .recSpeed { status := .ok } (settleUnits s u) := by
      rw [requestFrame_ready hs rfl, recSpeed_of_known hv known hw, hu]
      rfl
    rw [undue.settles (sequence_same (by rw [transport]))] at served
    have sent := answered_keeps .recSpeed { status := .ok } u
    have estimate : (answered .recSpeed { status := .ok } u).estimate = some e := by
      rw [← he]
      simp only [State.estimate, answered_tape, fraction, cls]
    obtain ⟨remain, elapsed⟩ := times_of_estimate estimate v
    refine ⟨_, congrArg Host.Outcome.next served, replied_answered .., sent.transport.trans transport, remain, elapsed,
      by rw [answered_tape, fraction], fun hne => ?_,
      ((setSpeed_keeps v s).mono (by simp)).trans ((kept.mono (by simp)).trans (sent.mono (by simp)))⟩
    have noted : TapeNoted u := by
      rw [hu, if_neg hne]
      exact postTape_noted (by rw [(setSpeed_keeps v s).power]; exact hs.runs)
    exact TapeNoted.announced (s := putReply (replyFrame .recSpeed { status := .ok }) u) noted.of

/-! ### A pulse counted (R42, R43) -/

variable {d : Direction}

theorem Goto.tracked_idle {g : Goto} (h : g.active = false) : g.tracked = g := by simp [Goto.tracked, h]

theorem Run.tracked_idle {r : Run} (h : r.state.active = false) : r.tracked = r := by
  unfold Run.tracked
  split
  · next e => rw [e] at h; cases h
  all_goals rfl

/-- The counter after one pulse in a direction, wherever it stands (R42). -/
def State.nextCount (s : State) : Direction → Int
  | .forward => s.tape.counter + 1
  | .reverse => s.tape.counter - 1

/-- The counter can go on in a direction (R42). -/
def State.countsOn (s : State) : Direction → Bool
  | .forward => decide (s.tape.counter < s.counterBound)
  | .reverse => decide (-(s.counterBound : Int) < s.tape.counter)

/-- A pulse starts the no-track span again (R43). -/
def spanned (s : State) : State := { s with tape.spanStart := some s.now }

theorem countPulse_eq (h : NoNavigation s) (d : Direction) : countPulse d s =
    if s.countsOn d then { spanned s with tape.counter := s.nextCount d } else drift (spanned s) := by
  cases d <;>
    simp only [countPulse, Goto.tracked_idle h.goto, Run.tracked_idle h.run, State.countsOn, decide_eq_true_eq] <;> rfl

theorem drift_eq (h : NoNavigation s) : drift s =
    if s.tape.quality = .drifted then s else postTape { s with tape.quality := .drifted } := by
  have same : ({ s with tape.quality := .drifted, nav.goto.drifted := s.nav.goto.drifted || s.nav.goto.active } : State) =
      { s with tape.quality := .drifted } := by
    rw [h.goto, Bool.or_false]
  simp only [drift, same]

/-- A pulse has been counted, or found at the bound. -/
structure Counted (d : Direction) (s t : State) : Prop where
  moved   : s.countsOn d = true → t.tape.counter = s.nextCount d ∧ t.tape.quality = s.tape.quality ∧ KeepsBut [.counter] s t
  bound   : s.countsOn d = false → t.tape.counter = s.tape.counter ∧ t.tape.quality = .drifted ∧
    (s.power.state ≠ .backup → s.tape.quality = .exact → TapeNoted t)
  span    : t.tape.spanStart = some s.now
  marks   : t.marks = s.marks
  nav     : t.nav = s.nav
  undue   : Undue s → Undue t
  keeps   : KeepsBut [.counter, .estimate, .sending] s t

theorem spanned_keeps (s : State) : KeepsBut [.counter] s (spanned s) := by
  refine ⟨fun q hq => ?_⟩
  cases q <;> simp_all [SamePart, spanned]

theorem counted (h : NoNavigation s) (d : Direction) : Counted d s (countPulse d s) := by
  rw [countPulse_eq h]
  cases hc : s.countsOn d with
  | true =>
    have kept : KeepsBut [.counter] s { spanned s with tape.counter := s.nextCount d } := by
      refine (spanned_keeps s).trans ⟨fun q hq => ?_⟩
      cases q <;> simp_all [SamePart]
    exact ⟨fun _ => ⟨rfl, rfl, kept⟩, fun h => (nomatch hc.symm.trans h), rfl, rfl, rfl, fun hu => hu.of, kept.mono (by simp)⟩
  | false =>
    have idle : NoNavigation (spanned s) := h.of
    rw [if_neg (by decide), drift_eq idle]
    split
    · next hq =>
      exact ⟨fun h => (nomatch hc.symm.trans h), fun _ => ⟨rfl, hq, fun _ he => (nomatch hq.symm.trans he)⟩, rfl, rfl, rfl, fun hu => hu.of,
        (spanned_keeps s).mono (by simp)⟩
    · have kept : KeepsBut [.counter, .estimate, .sending] s (postTape { spanned s with tape.quality := .drifted }) := by
        refine KeepsBut.after ((postTape_keeps _).mono (by simp)) (((spanned_keeps s).mono (by simp)).trans ⟨fun q hq => ?_⟩)
        cases q <;> simp_all [SamePart]
      exact ⟨fun h => (nomatch hc.symm.trans h), fun _ => ⟨by simp [postTape, spanned], by simp [postTape], fun hb _ => postTape_noted hb⟩,
        by simp [postTape, spanned], by simp [postTape, spanned], by simp [postTape, spanned],
        fun hu => Undue.postTape (s := { spanned s with tape.quality := .drifted }) hu.of, kept⟩

theorem counterBound_eq (h : s.settings.frameRate = 25 ∨ s.settings.frameRate = 30) :
    (s.counterBound : Int) = 36000 * s.settings.frameRate - 1 := by
  rcases h with h | h <;> simp [State.counterBound, h]

/-! ### A pulse read (R19, R58) -/

theorem countDetection_keeps (s : State) : KeepsBut [.transport] s (countDetection s) := by
  unfold countDetection
  split
  · exact withTransport_keeps ..
  · exact .refl _ _

theorem countDetection_counts {w : DetectWindow} (hp : s.transport.mode = .play) (hw : s.transport.detect = some w) :
    (countDetection s).transport.detect = some { w with count := w.count + 1 } := by
  simp only [countDetection, hp, hw, if_true]

theorem countDetection_undue (h : Undue s) : Undue (countDetection s) := by
  unfold countDetection
  split
  · exact h.of
  · exact h

theorem countDetection_sequence (s : State) : (countDetection s).transport.resetInFlight = s.transport.resetInFlight := by
  unfold countDetection
  split <;> rfl

theorem Undue.recordRead (h : Undue s) (r : Option MarkRecord) : Undue (recordRead r s) := by
  cases r with
  | none => exact h
  | some r => exact h.of

theorem Undue.noteRead (h : Undue s) (r : Option MarkRecord) : Undue (noteRead r s) := by
  cases r with
  | none => exact h
  | some r => exact h.post _ _

theorem recordRead_keeps (r : Option MarkRecord) (s : State) : KeepsBut [.marks, .sending] s (recordRead r s) := by
  cases r with
  | none => exact .refl _ _
  | some r => exact recordPass_keeps r s

theorem noteRead_keeps (r : Option MarkRecord) (s : State) : KeepsBut [.sending] s (noteRead r s) := by
  cases r with
  | none => exact .refl _ _
  | some r => exact postMark_keeps r s

/-- The decoder has taken a pulse, and what it gave is in the history (R54 to R58). -/
def decodedPulse (shape : Shape) (before : Int) (s : State) : State :=
  let r := s.marks.decoder.pulse shape before s.tape.counter s.now
  noteRead r.2 (recordRead r.2 { s with marks.decoder := r.1 })

theorem decodedPulse_keeps (shape : Shape) (before : Int) (s : State) : KeepsBut [.marks, .sending] s (decodedPulse shape before s) := by
  refine KeepsBut.after ((noteRead_keeps _ _).mono (by simp)) (KeepsBut.after (recordRead_keeps _ _) ⟨fun q hq => ?_⟩)
  cases q <;> simp_all [SamePart]

theorem decodedPulse_tape (shape : Shape) (before : Int) (s : State) : (decodedPulse shape before s).tape = s.tape := by
  simp only [decodedPulse]
  cases (s.marks.decoder.pulse shape before s.tape.counter s.now).2 with
  | none => rfl
  | some r => exact postMark_tape _ _

theorem decodedPulse_writer (shape : Shape) (before : Int) (s : State) :
    (decodedPulse shape before s).marks.writer = s.marks.writer := by
  simp only [decodedPulse]
  cases (s.marks.decoder.pulse shape before s.tape.counter s.now).2 with
  | none => rfl
  | some r => simp [noteRead, recordRead, recordPass]

theorem Undue.decodedPulse (h : Undue s) (shape : Shape) (before : Int) : Undue (decodedPulse shape before s) :=
  Undue.noteRead (Undue.recordRead (s := { s with marks.decoder := _ }) h.of _) _

/-- With nothing to navigate a pulse read is counted and decoded (R19). -/
theorem pulseRead_idle (hw : NoWatches s) (hn : NoNavigation s) (shape : Shape) (d : Direction) :
    pulseRead shape d s = decodedPulse shape s.tape.counter (countPulse d (countDetection s)) := by
  have nav : (countPulse d (countDetection s)).nav = s.nav := by
    have detected : (countDetection s).nav = s.nav := by unfold countDetection; split <;> rfl
    rw [(counted (hn.of detected) d).nav, detected]
  have recorded : ∀ r (u : State), (recordRead r u).nav = u.nav := fun r u => by cases r <;> rfl
  simp only [pulseRead, decodedPulse]
  rw [navigate_idle]
  · exact fun w h => hw w (by rw [recorded] at h; exact nav ▸ h)
  · exact hn.of (by rw [recorded]; exact nav)

theorem Mode.reading_of_direction {m : Mode} (h : m.direction = some d) (hr : m ≠ .record) : m.reading = true := by
  simp [Mode.reading, Mode.motion, h, hr]

/-- Settles O25: the pulse is counted, and what decodes and detects with it touches neither the counter nor the writer. -/
theorem counterFollowsRead : Obligations.CounterFollowsRead := by
  intro s hb hd hn hw hf hm d hdir shape bound next
  obtain ⟨c, hc⟩ : ∃ c, c = countDetection s := ⟨_, rfl⟩
  have kc : KeepsBut [.transport] s c := hc ▸ countDetection_keeps s
  have nav : c.nav = s.nav := by rw [hc]; unfold countDetection; split <;> rfl
  have tape : c.tape = s.tape := by rw [hc]; unfold countDetection; split <;> rfl
  have marks : c.marks = s.marks := by rw [hc]; unfold countDetection; split <;> rfl
  have pulse := counted (hn.of nav) d
  obtain ⟨u, hu⟩ : ∃ u, u = decodedPulse shape s.tape.counter (countPulse d c) := ⟨_, rfl⟩
  have ku : KeepsBut [.marks, .sending] (countPulse d c) u := hu ▸ decodedPulse_keeps ..
  have tapeU : u.tape = (countPulse d c).tape := hu ▸ decodedPulse_tape ..
  have undue : Undue u := hu ▸ (pulse.undue (hc ▸ countDetection_undue hd.undue)).decodedPulse ..
  have transport : u.transport = c.transport := ku.transport.trans pulse.keeps.transport
  have acts : readActed shape s = chooseFrame u := by
    have reads : readActed shape s = deckEvent (pulseRead shape d) s := by
      simp only [readActed, hdir, Mode.reading_of_direction hdir hm, if_true]
    rw [reads, deckEvent_running hb, pulseRead_idle hw hn, ← hc, ← hu]
    exact undue.endDeckEvent (sequence_same (by rw [transport, hc]; exact countDetection_sequence s))
  have sent := chooseFrame_keeps u
  have position : (chooseFrame u).tape = (countPulse d c).tape := (chooseFrame_tape u).trans tapeU
  have counterBound : (c.counterBound : Int) = bound := by
    rw [counterBound_eq (by rw [kc.settings]; exact hf), kc.settings]
  have ahead : c.nextCount d = next := by cases d <;> simp [State.nextCount, tape, next]
  have deck : (chooseFrame u).transport = c.transport := sent.transport.trans transport
  have writer : (chooseFrame u).marks.writer = s.marks.writer := by
    rw [(sent.same .marks (by decide)).1, hu, decodedPulse_writer, pulse.marks, marks]
  refine ⟨_, congrArg Host.Outcome.next acts, fun lo hi => ?_, fun out => ?_, by rw [position, pulse.span, (kc.same .time (by decide)).1],
    fun w hw hp => ?_, fun hp => ?_, writer,
    (kc.mono (by simp)).trans ((pulse.keeps.mono (by simp)).trans ((ku.mono (by simp)).trans (sent.mono (by simp))))⟩
  · have on : c.countsOn d = true := by
      cases d <;> simp only [State.countsOn, decide_eq_true_eq, counterBound, tape] <;> simp only [next] at lo hi <;> omega
    obtain ⟨counter, quality, -⟩ := pulse.moved on
    rw [position]
    exact ⟨counter.trans ahead, quality.trans (by rw [tape])⟩
  · have off : c.countsOn d = false := by
      rcases out with ⟨rfl, h⟩ | ⟨rfl, h⟩ <;>
        simp only [State.countsOn, decide_eq_false_iff_not, counterBound, tape] <;> simp only [next] at h <;> omega
    obtain ⟨counter, quality, -⟩ := pulse.bound off
    rw [position]
    exact ⟨counter.trans (by rw [tape]), quality⟩
  · rw [deck, hc, countDetection_counts hp hw]
  · rw [deck, hc, countDetection, if_neg hp]

/-! ### A pulse written (R19, R51) -/

/-- The mark that the seventeenth pulse completes. -/
def Writing.record (w : Writing) (p : Int) : MarkRecord := writtenRecord p (.coded w.code)

theorem advanceWriter_idle (h : s.marks.writer = none) : advanceWriter s = s := by simp only [advanceWriter, h]

/-- The mark one pulse on, written at a counter value; the first pulse fixes the position (R51). -/
def Writing.goesOn (w : Writing) (c : Int) : Writing :=
  { w with next := w.next + 1, position := if w.next = 1 then some c else w.position }

theorem advanceWriter_next {w : Writing} (h : s.marks.writer = some w) (hn : w.next < 17) :
    advanceWriter s = { s with marks.writer := some (w.goesOn s.tape.counter) } := by
  simp only [advanceWriter, h, hn, if_true]
  rfl

theorem advanceWriter_last {w : Writing} (h : s.marks.writer = some w) (hn : ¬ w.next < 17) : ∃ p, (∀ q, w.next = 17 →
    w.position = some q → p = q) ∧ advanceWriter s = postMark (w.record p) (recordPass (w.record p) { s with marks.writer := none }) := by
  refine ⟨(if w.next = 1 then some s.tape.counter else w.position).getD s.tape.counter, fun q h17 hq => ?_, ?_⟩
  · rw [h17, if_neg (by decide), hq]
    rfl
  · simp only [advanceWriter, h, hn, if_false]
    rfl

/-- The writer goes on: the history, the writer and the MARK note are all that changes. -/
theorem advanceWriter_keeps (s : State) : KeepsBut [.marks, .sending] s (advanceWriter s) := by
  have marks : ∀ x, KeepsBut [.marks] s { s with marks.writer := x } := fun x => by
    refine ⟨fun q hq => ?_⟩
    cases q <;> simp_all [SamePart]
  cases hw : s.marks.writer with
  | none => rw [advanceWriter_idle hw]; exact .refl _ _
  | some w =>
    by_cases hn : w.next < 17
    · rw [advanceWriter_next hw hn]
      exact (marks _).mono (by simp)
    · obtain ⟨p, -, e⟩ := advanceWriter_last hw hn
      rw [e]
      exact ((marks none).mono (by simp)).trans ((recordPass_keeps ..).trans ((postMark_keeps ..).mono (by simp)))

theorem advanceWriter_tape (s : State) : (advanceWriter s).tape = s.tape := by
  cases hw : s.marks.writer with
  | none => rw [advanceWriter_idle hw]
  | some w =>
    by_cases hn : w.next < 17
    · rw [advanceWriter_next hw hn]
    · obtain ⟨p, -, e⟩ := advanceWriter_last hw hn
      rw [e, postMark_tape]
      rfl

theorem advanceWriter_decoder (s : State) : (advanceWriter s).marks.decoder = s.marks.decoder := by
  cases hw : s.marks.writer with
  | none => rw [advanceWriter_idle hw]
  | some w =>
    by_cases hn : w.next < 17
    · rw [advanceWriter_next hw hn]
    · obtain ⟨p, -, e⟩ := advanceWriter_last hw hn
      rw [e, postMark_marks]
      rfl

/-- The history holds the newest sixteen passes (R59). -/
theorem recordPass_history (r : MarkRecord) (s : State) : (recordPass r s).marks.history =
    s.marks.history.drop (s.marks.history.length + 1 - 16) ++ [r] := by
  simp only [recordPass, List.length_append, List.length_singleton]
  exact List.drop_append_of_le_length (by omega)

theorem advanceWriter_nav (s : State) : (advanceWriter s).nav = s.nav := by
  cases hw : s.marks.writer with
  | none => rw [advanceWriter_idle hw]
  | some w =>
    by_cases hn : w.next < 17
    · rw [advanceWriter_next hw hn]
    · obtain ⟨p, -, e⟩ := advanceWriter_last hw hn
      rw [e, postMark_nav]
      rfl

theorem TapeNoted.advanceWriter (h : TapeNoted s) : TapeNoted (advanceWriter s) := by
  cases hw : s.marks.writer with
  | none => rw [advanceWriter_idle hw]; exact h
  | some w =>
    by_cases hn : w.next < 17
    · rw [advanceWriter_next hw hn]
      exact h.of
    · obtain ⟨p, -, e⟩ := advanceWriter_last hw hn
      obtain ⟨c, noted⟩ := h
      rw [e]
      exact ⟨c, Noted.post (s := recordPass (w.record p) { s with marks.writer := none }) noted.of (by decide) _⟩

theorem Undue.advanceWriter (h : Undue s) : Undue (advanceWriter s) := by
  have kept := advanceWriter_keeps s
  refine h.of_tape (advanceWriter_tape s) kept.mech kept.power ?_ ?_ ?_ ?_ <;> rw [kept.transport]

/-- With nothing to navigate a pulse written is counted, and the writer goes on (R19, R51). -/
theorem pulseWritten_idle (hw : NoWatches s) (hn : NoNavigation s) :
    pulseWritten s = advanceWriter (countPulse .forward (s.withPins { s.pins with written := some s.writtenShape })) := by
  have nav : (advanceWriter (countPulse .forward (s.withPins { s.pins with written := some s.writtenShape }))).nav = s.nav := by
    rw [advanceWriter_nav]
    exact (counted (s := s.withPins _) hn.of .forward).nav
  exact navigate_idle (fun w h => hw w (nav ▸ h)) (hn.of nav) _ _

/-- Settles O26: the pulse is counted, and the writer goes on by it. (`pulseWritten` is the model's function.) -/
theorem pulseWritten_holds : Obligations.PulseWritten := by
  intro s hb hd hn hw hf hm next bound
  obtain ⟨p, hp⟩ : ∃ p : Pins, p = { s.pins with written := some s.writtenShape } := ⟨_, rfl⟩
  obtain ⟨c, hc⟩ : ∃ c, c = countPulse .forward (s.withPins p) := ⟨_, rfl⟩
  have pulse : Counted .forward (s.withPins p) c := hc ▸ counted hn.of .forward
  obtain ⟨u, hu⟩ : ∃ u, u = advanceWriter c := ⟨_, rfl⟩
  have ku : KeepsBut [.marks, .sending] c u := hu ▸ advanceWriter_keeps c
  have undue : Undue u := hu ▸ (pulse.undue hd.undue.of).advanceWriter
  have transport : u.transport = s.transport := ku.transport.trans pulse.keeps.transport
  have acts : exec .controlPulseWrite s = .next (chooseFrame u) := by
    have writes : exec .controlPulseWrite s = .next (deckEvent pulseWritten s) := congrArg Host.Outcome.next (if_pos hm)
    rw [writes, deckEvent_running hb, pulseWritten_idle hw hn, ← hp, ← hc, ← hu]
    exact congrArg _ (undue.endDeckEvent (sequence_same (by rw [transport])))
  have sent := chooseFrame_keeps u
  have position : (chooseFrame u).tape = c.tape := by rw [chooseFrame_tape, hu, advanceWriter_tape]
  have pins := withPins_keeps p s
  have counterBound : ((s.withPins p).counterBound : Int) = bound := counterBound_eq hf
  have written : (chooseFrame u).pins = p := sent.pins.trans (ku.pins.trans pulse.keeps.pins)
  obtain ⟨writer, decoder, history⟩ := sent.same .marks (by decide)
  have marks : c.marks = s.marks := pulse.marks
  have past : c.marks.history = s.marks.history := congrArg CueMarks.history marks
  have counting : (s.withPins p).countsOn .forward = decide (next ≤ bound) := by
    simp only [State.countsOn, counterBound, decide_eq_decide]
    exact Int.lt_iff_add_one_le
  refine ⟨_, acts, fun hle => ?_, fun hlt => ?_, by rw [position]; exact pulse.span, ?_, fun hw => ?_, fun w hw => ⟨?_, fun h => ?_,
    fun h => ?_, fun h _ q hq => ?_⟩, by rw [written, hp], (pins.mono (by simp)).trans ((pulse.keeps.mono (by simp)).trans
      ((ku.mono (by simp)).trans (sent.mono (by simp))))⟩
  · obtain ⟨counter, quality, kept⟩ := pulse.moved (by rw [counting]; exact decide_eq_true hle)
    rw [position]
    exact ⟨counter, quality, (pins.mono (by simp)).trans ((kept.mono (by simp)).trans ((ku.mono (by simp)).trans (sent.mono (by simp))))⟩
  · obtain ⟨counter, quality, noted⟩ := pulse.bound (by rw [counting]; exact decide_eq_false (by omega))
    rw [position]
    exact ⟨counter, quality, fun he => (hu ▸ (noted hb he).advanceWriter : TapeNoted u).announced⟩
  · rw [decoder, hu, advanceWriter_decoder, marks]
  · have idle : u = c := hu.trans (advanceWriter_idle (by rw [marks]; exact hw))
    rw [written, hp, writer, history, idle, marks]
    exact ⟨by simp [State.writtenShape, hw], hw, rfl⟩
  · rw [written, hp]
    simp [State.writtenShape, hw]
  · have goes : u = { c with marks.writer := some (w.goesOn c.tape.counter) } :=
      hu.trans (advanceWriter_next (by rw [marks]; exact hw) h)
    rw [writer, history, position, goes]
    exact ⟨past, rfl⟩
  · obtain ⟨q, -, last⟩ := advanceWriter_last (s := c) (by rw [marks]; exact hw) (by omega)
    rw [writer, hu, last, postMark_marks]
    rfl
  · obtain ⟨x, fixed, last⟩ := advanceWriter_last (s := c) (by rw [marks]; exact hw) (by omega)
    obtain rfl := fixed q h hq
    refine ⟨?_, ?_⟩
    · rw [history, hu, last, postMark_marks]
      exact (recordPass_history _ _).trans
        (congrArg (fun l : List MarkRecord => l.drop (l.length + 1 - 16) ++ [w.record x]) past)
    · have noted : Noted .mark ((w.record x).bytes ++ [byteOf (min 255 (s.marks.passCount + 1))]) u := by
        have count : c.marks.passCount = s.marks.passCount := congrArg CueMarks.passCount marks
        have passes : (recordPass (w.record x) { c with marks.writer := none }).marks.passCount = min 255 (s.marks.passCount + 1) :=
          congrArg (fun n => min 255 (n + 1)) count
        have running : c.power.state ≠ .backup := by rw [pulse.keeps.power]; exact hb
        rw [hu, last, postMark, State.markNoteBytes, passes]
        exact post_noted (s := recordPass (w.record x) { c with marks.writer := none }) running _ _
      exact noted.announced (by decide)

end Sys2Proof.Machine
end

section
/-! O53: the loss of the mains, and the qualification in BACKUP (R27, R135, R194, R195). -/

namespace Sys2Proof.Machine

variable {s t : State}

/-! ### The loss (R27, R194) -/

theorem abandonTimer_idle (h : NoPrograms s) (c : DeferralCause) : abandonTimer c s = s := by
  have still : standDown c s = s := by simp [standDown, h.activeProgram]
  have sched : ({ s.sched with active := none, endAction := none, abortStop := none, rewindTail := false } : Scheduler) = s.sched := by
    obtain ⟨-, active, endAction, abortStop, tail⟩ := h
    rw [← active, ← endAction, ← abortStop, ← tail]
  simp only [abandonTimer, still, sched]

/-- In BACKUP a second boundary moves the calendar on, and that is all (R135). -/
theorem secondBoundary_backup (h : s.power.state = .backup) : secondBoundary s =
    { s with clock.time := if Config.calendarSeconds ≤ s.clock.time + 1 then 0 else s.clock.time + 1 } := by
  simp only [secondBoundary, h, beq_self_eq_true, if_true, Bool.not_true, Bool.false_eq_true, and_false, if_false]
  split <;> rfl

/-- The clock has gone over to the crystal (R131, R135). -/
structure OnCrystal (c d : Clock) : Prop where
  set         : d.set = c.set
  setting     : d.setting = c.setting
  reading     : d.reading = c.reading
  previous    : d.previous = c.previous
  windowStart : d.windowStart = c.windowStart
  source      : d.source = .crystal
  time        : c.source = .crystal ∨ c.sinceBoundary < secondUnits → d.time = c.time

/-- In BACKUP the source in use is the crystal; a second that the mains left unfinished may end in the change (R131). -/
theorem recomputeSource_backup (h : s.power.state = .backup) :
    ∃ c, recomputeSource s = { s with clock := c } ∧ OnCrystal s.clock c := by
  have due : s.sourceDue = .crystal := by simp [State.sourceDue, h]
  by_cases hs : s.clock.source = .crystal
  · refine ⟨s.clock, ?_, rfl, rfl, rfl, rfl, rfl, hs, fun _ => rfl⟩
    simp only [recomputeSource, due, hs, if_true]
  · have ne : ¬ TimeSource.crystal = s.clock.source := fun e => hs e.symm
    by_cases hl : secondUnits ≤ s.clock.sinceBoundary
    · obtain ⟨k, hk⟩ : ∃ k : Clock, k = { s.clock with
          source := .crystal, cycleCount := none, sinceBoundary := s.clock.sinceBoundary - secondUnits } := ⟨_, rfl⟩
      refine ⟨{ k with time := if Config.calendarSeconds ≤ k.time + 1 then 0 else k.time + 1 }, ?_, by rw [hk], by rw [hk], by rw [hk],
        by rw [hk], by rw [hk], by rw [hk], fun o => ?_⟩
      · have boundary := secondBoundary_backup (s := { s with clock := k }) h
        rw [← boundary, hk]
        simp only [recomputeSource, due, ne, if_false, hl, if_true]
        rfl
      · rcases o with o | o
        · exact absurd o hs
        · omega
    · refine ⟨{ s.clock with source := .crystal, cycleCount := none }, ?_, rfl, rfl, rfl, rfl, rfl, rfl, fun _ => rfl⟩
      simp only [recomputeSource, due, ne, if_false, hl]

/-- The state as a mains loss finds it, with what is not in the backup domain lost (R27, R194; log 13). -/
def backedUp (s : State) : State :=
  { s with
    transport := s.transport.atLoss, tape := s.tape.atLoss, marks := .cold, nav := .cold, tuner := s.tuner.atLoss, scan := .cold
    mech := .free, tunerOf := .free, link := .cold
    power := { s.power with
      state := .backup, transition := .none, mains := false, qualSince := none, lastChange := .mainsLoss, domainKept := true }
    clock := { s.clock with reading := .absent, previous := none, windowStart := none, windowCount := 0 } }

/-- Without a program a mains loss takes away what the backup domain does not keep, and puts the clock on its crystal. -/
theorem loseMains_idle (h : NoPrograms s) : ∃ c, loseMains s = { backedUp s with clock := c } ∧ OnCrystal (backedUp s).clock c := by
  have lost : loseMains s = recomputeSource (backedUp s) := by
    simp only [loseMains, abandonTimer_idle h]
    rfl
  rw [lost]
  exact recomputeSource_backup rfl

/-- The parts of the backup domain, and of what the loss reads, that a passage of time leaves as they are. -/
structure Elapsed (at_ : Nat) (s v : State) : Prop where
  now       : v.now = at_
  power     : v.power = s.power
  transport : v.transport = s.transport
  tape      : v.tape = s.tape
  tuner     : v.tuner = s.tuner
  sched     : v.sched = s.sched
  settings  : v.settings = s.settings
  clock     : v.clock = { s.clock with sinceBoundary := s.clock.sinceBoundary + (at_ - s.now) }

theorem elapsed_leap {limit : Nat} (h : s.now ≤ limit) : Elapsed limit s (leapTo limit s) :=
  ⟨leapTo_now_of_le h, rfl, rfl, rfl, rfl, rfl, rfl, rfl⟩

theorem elapsed_pins (p : Pins) (s : State) : Elapsed s.now s (s.withPins p) :=
  ⟨rfl, rfl, rfl, rfl, rfl, rfl, rfl, by simp [State.withPins]⟩

/-- What a mains loss at a time leaves of a state (R27, R194). -/
structure MainsLost (at_ : Nat) (s t : State) : Prop where
  now       : t.now = at_
  power     : t.power = { s.power with
    state := .backup, transition := .none, mains := false, qualSince := none, lastChange := .mainsLoss, domainKept := true }
  mech      : t.mech = .free
  tunerOf   : t.tunerOf = .free
  transport : t.transport = s.transport.atLoss
  tape      : t.tape = s.tape.atLoss
  marks     : t.marks = .cold
  nav       : t.nav = .cold
  scan      : t.scan = .cold
  link      : t.link = .cold
  tuner     : t.tuner = s.tuner.atLoss
  sched     : t.sched = s.sched
  settings  : t.settings = s.settings
  set       : t.clock.set = s.clock.set
  setting   : t.clock.setting = s.clock.setting
  source    : t.clock.source = .crystal
  reading   : t.clock.reading = .absent
  previous  : t.clock.previous = none
  window    : t.clock.windowStart = none
  time      : s.clock.source = .crystal ∨ s.clock.sinceBoundary + (at_ - s.now) < 12288000 → t.clock.time = s.clock.time

theorem loseMains_lost {at_ : Nat} {v : State} (h : Elapsed at_ s v) (hp : NoPrograms s) : MainsLost at_ s (loseMains v) := by
  obtain ⟨c, lost, clock⟩ := loseMains_idle (hp.of h.sched)
  have source : v.clock.source = s.clock.source := by rw [h.clock]
  have phase : v.clock.sinceBoundary = s.clock.sinceBoundary + (at_ - s.now) := by rw [h.clock]
  have set : v.clock.set = s.clock.set := by rw [h.clock]
  have setting : v.clock.setting = s.clock.setting := by rw [h.clock]
  have time : v.clock.time = s.clock.time := by rw [h.clock]
  rw [lost]
  exact
    { now := h.now
      power := congrArg (fun p : Power => { p with
        state := .backup, transition := .none, mains := false, qualSince := none, lastChange := .mainsLoss, domainKept := true }) h.power
      mech := rfl
      tunerOf := rfl
      transport := congrArg Transport.atLoss h.transport
      tape := congrArg TapePosition.atLoss h.tape
      marks := rfl
      nav := rfl
      scan := rfl
      link := rfl
      tuner := congrArg Tuner.atLoss h.tuner
      sched := h.sched
      settings := h.settings
      set := clock.set.trans set
      setting := clock.setting.trans setting
      source := clock.source
      reading := clock.reading
      previous := clock.previous
      window := clock.windowStart
      time := fun o => (clock.time (o.imp source.trans fun l => phase.trans_lt l)).trans time }

/-! ### The qualification (R195) -/

theorem milliseconds_sixty : milliseconds 60 = 60 * 12288 := rfl

theorem lossGap_eq (s : State) : s.lossGap = (if s.clock.reading = .hz60 then 50 else 60) * 12288 := by
  rw [State.lossGap]
  split <;> rfl

theorem cyclesArrive_eq (s : State) : s.cyclesArrive = decide (s.now < s.power.lastCycle + 60 * 12288) := by
  rw [State.cyclesArrive, milliseconds_sixty]

theorem qualificationLost_eq (s : State) : qualificationLost s =
    { leapTo (s.power.lastCycle + 60 * 12288) s with power.qualSince := none } := by
  rw [qualificationLost, milliseconds_sixty]

/-- A NORMAL report in BACKUP starts the qualification after LOW, while cycles arrive (R195; log 60). -/
theorem supplyQualified_normal (changed : Bool) (s : State) (hs : s.pins.supply = .normal) :
    supplyQualified .normal changed s = { s with power.qualSince :=
      if changed = true ∧ s.now < s.power.lastCycle + 60 * 12288 ∧ s.power.domainKept ∧ s.power.qualSince = none then some s.now
      else s.power.qualSince } := by
  rw [supplyQualified, cyclesArrive_eq, beginQualification_eq]
  by_cases hc : changed = true <;> by_cases hn : s.now < s.power.lastCycle + 60 * 12288 <;> simp [hc, hn, hs]

theorem withPower_keeps (p : Power) (s : State) : KeepsBut [.power] s { s with power := p } := by
  refine ⟨fun q hq => ?_⟩
  cases q <;> simp_all [SamePart]

/-- Settles O53: the loss empties all but the backup domain, and in BACKUP each event acts on the qualification alone. -/
theorem mainsFails : Obligations.MainsFails := by
  intro s
  refine ⟨fun hb hp => ?_, fun hb hs => ?_, fun hb => ⟨?_, ?_, ?_, fun hq hle => ?_, ?_⟩⟩
  · intro lost gap
    refine ⟨fun hle => ?_, ?_⟩
    · have m := loseMains_lost (elapsed_leap hle) hp
      have fails : exec .mainsLoss s = .next (loseMains (leapTo gap s)) := by
        have limit : s.power.lastCycle + s.lossGap = gap := by rw [lossGap_eq]
        rw [← limit]
        exact congrArg Host.Outcome.next (if_neg hb)
      exact ⟨_, fails, m.now, m.power, m.mech, m.tunerOf, m.transport, m.tape, m.marks, m.nav, m.scan, m.link, m.tuner, fun _ => m.sched,
        m.settings, m.set, m.setting, m.source, m.reading, m.previous, m.window, m.time⟩
    · have m := loseMains_lost (elapsed_pins { s.pins with supply := .low } s) hp
      have fails : exec (.supplyMonitorChange .low) s = .next (loseMains (s.withPins { s.pins with supply := .low })) :=
        congrArg Host.Outcome.next (if_neg hb)
      exact ⟨_, fails, m.now, m.power, m.mech, m.tunerOf, m.transport, m.tape, m.marks, m.nav, m.scan, m.link, m.tuner, fun _ => m.sched,
        m.settings, m.set, m.setting, m.source, m.reading, m.previous, m.window, m.time⟩
  · obtain ⟨p, hp⟩ : ∃ p : Pins, p = { s.pins with supply := .normal } := ⟨_, rfl⟩
    have acts : exec (.supplyMonitorChange .normal) s = .next (chooseFrame (postPower (s.withPins p))) := by
      have reported : supplyReported .normal s = chooseFrame (postPower (s.withPins p)) := by
        rw [hp]
        simp only [supplyReported, hb, if_false, hs]
        rfl
      exact congrArg _ reported
    have posted := postPower_keeps (s.withPins p)
    have sent := chooseFrame_keeps (postPower (s.withPins p))
    have kept := posted.trans sent
    have bytes : (chooseFrame (postPower (s.withPins p))).powerBytes = (s.withPins p).powerBytes := by
      simp only [State.powerBytes, kept.power, kept.pins, (kept.same .time (by decide)).1]
    refine ⟨_, acts, kept.pins.trans hp, ?_, ((withPins_keeps p s).mono (by simp)).trans (kept.mono (by simp))⟩
    rw [bytes]
    exact (post_noted (s := s.withPins p) hb .power _).announced (by decide)
  · have cycle : cycleQualified s = beginQualification { s with power.lastCycle := s.now } := rfl
    refine congrArg Host.Outcome.next ((if_pos hb).trans ?_)
    rw [cycle, beginQualification_eq]
  · exact congrArg Host.Outcome.next (if_pos hb)
  · refine congrArg Host.Outcome.next ((if_pos hb).trans ((supplyQualified_normal _ _ rfl).trans ?_))
    cases hs : s.pins.supply <;> simp
  · have kept := leapTo_keeps (s.power.lastCycle + 60 * 12288) s
    have acts : exec .qualificationGap s = .next (qualificationLost s) :=
      congrArg Host.Outcome.next (if_pos ⟨hb, Option.isSome_iff_ne_none.mpr hq⟩)
    rw [qualificationLost_eq] at acts
    exact ⟨_, acts, leapTo_now_of_le hle, rfl, (kept.mono (by simp)).trans ((withPower_keeps _ _).mono (by simp))⟩
  · exact ⟨_, congrArg Host.Outcome.next (if_pos hb), rfl, rfl, rfl, rfl, rfl, rfl, rfl, rfl, rfl⟩

end Sys2Proof.Machine
end

section
/-! O15: the protections of the tape (R20 to R24): what a protection stop is from a threaded mode, and what it ends. -/

namespace Sys2Proof.Machine

variable {b s t w : State} {c : StopCause}

/-! ### Notes that wait through a mode reached and through the end of the event -/

theorem Noted.cutMark {k : NoteKey} {x : List Byte} (h : Noted k x s) (hk : NoteKey.mark ≠ k) : Noted k x (cutMark s) := by
  unfold Machine.cutMark
  split
  · exact h
  · next w _ =>
    exact Noted.post (s := recordPass (writtenRecord (s.cutPosition w) .damaged) { s with marks.writer := none }) h.of hk _

theorem Noted.writerAtMode {k : NoteKey} {x : List Byte} (h : Noted k x s) (hk : NoteKey.mark ≠ k) (l m : Mode) :
    Noted k x (writerAtMode l m s) := by
  unfold Machine.writerAtMode
  split
  · split
    · exact h.of
    · exact h
  · split
    · exact h.cutMark hk
    · exact h

theorem tapeAtMode_link (m : Mode) (s : State) : (tapeAtMode m s).link = s.link := by
  unfold tapeAtMode
  split <;> rfl

theorem Noted.enterMode {k : NoteKey} {x : List Byte} (h : Noted k x s) (hm : NoteKey.mode ≠ k) (hk : NoteKey.mark ≠ k) (m : Mode)
    (ch : Option Change) : Noted k x (enterMode m ch s) := by
  simp only [Machine.enterMode]
  refine Noted.writerAtMode (Noted.post (Noted.of h ?_) hm _) hk _ _
  rw [tapeAtMode_link]

theorem Noted.settleUnits {k : NoteKey} {x : List Byte} (h : Noted k x s) (hk : NoteKey.tape ≠ k)
    (hr : b.transport.resetInFlight = false ∨ s.transport.resetInFlight = true) (hn : NotStopping s) : Noted k x (settleUnits b s) := by
  have held : Noted k x (checkHeld s) := by
    unfold checkHeld
    split
    · exact Noted.post (s := { s with tape := { s.tape with held := true, lastReport := s.now, reportPeriod := s.link.period } }) h.of hk _
    · exact h
  rw [settleUnits_eq hr hn]
  exact held.of (checkIdentifying_outbox _)

/-! ### A protection stop from a threaded mode (R20) -/

/-- The state in which the UNTHREADING of a protection stop begins, the claim taken. -/
def stopping (c : StopCause) (w : State) : State :=
  { w with transport := { w.transport with
    target := some .stop, stopCause := some c, rewindDue := c == .leaderEnd, unthreadEnd := .plain } }

theorem stopping_keeps (c : StopCause) (w : State) : KeepsBut [.transport] w (stopping c w) := withTransport_keeps ..

/-- From a threaded mode a protection stop takes the claim and begins UNTHREADING (R4, R20). -/
theorem protectionStop_threaded (h : Threaded s) (ht : (takeProtect c.protection s).transport = s.transport) :
    protectionStop c s = beginMech .unthreading (stopping c (takeProtect c.protection s)) := by
  obtain ⟨w, hw⟩ : ∃ w : State, w = { takeProtect c.protection s with transport.rewindDue := c == .leaderEnd } := ⟨_, rfl⟩
  have mode : w.transport.mode = s.transport.mode := by
    rw [← ht, hw]
  have change : w.transport.change = s.transport.change := by
    rw [← ht, hw]
  have threaded : Threaded w := ⟨by rw [mode]; exact h.mode, by
    have same : w.mechInFlight = s.mechInFlight := by simp only [State.mechInFlight, change]
    rw [same]
    exact h.change⟩
  have begun := setTarget_unthreads threaded (.inl rfl) (some c)
  have stop : protectionStop c s = setTarget .stop (some c) w := by rw [hw]; rfl
  rw [stop, begun, hw]
  rfl

/-- The protection stop has begun, and the event has ended. -/
theorem protectionStopped_ended (hm : w.mech = .protect c.protection) (hb : w.power.state ≠ .backup) (hn : NotStopping w)
    (hr : b.transport.resetInFlight = false) :
    ProtectionStopped c w.now (endDeckEvent b (beginMech .unthreading (stopping c w))) ∧
      KeepsBut [.transport, .counter, .estimate, .marks, .sending] w (endDeckEvent b (beginMech .unthreading (stopping c w))) := by
  have st : Stepping .unthreading (stopping c w) (endDeckEvent b (beginMech .unthreading (stopping c w))) :=
    stepping_event .unthreading hb hn.of (.inl hr)
  have kept := ((stopping_keeps c w).mono (by simp)).trans st.keeps
  refine ⟨⟨(kept.same .time (by decide)).1, kept.mech.trans hm, by rw [st.record]; rfl, st.target rfl, st.mode, st.change, st.start,
    by rw [st.record]; rfl, by rw [st.record]; rfl, st.note⟩, kept⟩

/-- A note that the taking of the claim has posted outlives the beginning of UNTHREADING. -/
theorem protectionStopped_noted {k : NoteKey} {x : List Byte} (h : Noted k x w) (hm : NoteKey.mode ≠ k) (hk : NoteKey.mark ≠ k)
    (ht : NoteKey.tape ≠ k) (hn : NotStopping w) (hr : b.transport.resetInFlight = false) :
    Announced k x (endDeckEvent b (beginMech .unthreading (stopping c w))) := by
  have begun : Noted k x (beginMech .unthreading (stopping c w)) := Noted.enterMode (s := { stopping c w with transport.stepStart := w.now })
    h.of hm hk _ _
  have power : (beginMech .unthreading (stopping c w)).power = w.power := (beginMech_keeps ..).power
  exact (begun.settleUnits ht (.inl hr) (hn.of power)).announced (Ne.symm ht)

/-! ### Under the direct activity -/

theorem takeProtect_direct (h : MechDirect s) (p : Protection) : takeProtect p s = setMech (.protect p) s := by
  have timer : s.mech.isTimer = false := by rcases h with h | h <;> rw [h] <;> rfl
  rw [takeProtect_untimed timer]
  simp only [endOperator_direct h, ite_self]

theorem takeProtect_protect {q : Protection} (h : s.mech = .protect q) (p : Protection) : takeProtect p s = setMech (.protect p) s := by
  have same : ∀ o r, endOperator o r s = s := fun o r => by simp [endOperator, h]
  rw [takeProtect_untimed (by rw [h]; rfl)]
  simp only [same, ite_self]

/-- What a protection finds: the state of the event, at its time, in the mode in which it came. -/
structure Met (at_ : Nat) (s v : State) : Prop where
  now    : v.now = at_
  mode   : v.transport.mode = s.transport.mode
  change : v.transport.change = s.transport.change
  keeps  : KeepsBut [.time, .pins, .transport, .sending] s v

theorem Met.threaded {at_ : Nat} (m : Met at_ s t) (h : Threaded s) : Threaded t := ⟨by rw [m.mode]; exact h.mode, by
  have same : t.mechInFlight = s.mechInFlight := by simp only [State.mechInFlight, m.change]
  rw [same]
  exact h.change⟩

theorem met_leap {limit : Nat} (h : s.now ≤ limit) (hv : NoNavigation s) : Met limit s (leapTo limit s) := by
  have kept := leapTo_keeps limit s
  have nav := leapTo_nav hv limit
  refine ⟨leapTo_now_of_le h, rfl, rfl, ⟨fun q hq => ?_⟩⟩
  by_cases hn : q = .nav
  · subst hn
    simp [SamePart, nav]
  · exact kept.same q (by simp_all)

/-- A mechanical step that begins moves no tape, and the counter with it (R42). -/
theorem stepping_counter (k : MechStep) (hn : NotStopping s) (hr : b.transport.resetInFlight = false) :
    (endDeckEvent b (beginMech k s)).tape.counter = s.tape.counter := by
  have ended := endDeckEvent_keeps (b := b) (u := beginMech k s) (.inl hr) (hn.of (beginMech_still k s).power)
  rw [(ended.same .counter (by decide)).1, beginMech_tape]

/-- The parts that the taking of the claim by a protection may change. -/
def takenParts : List Part := [.nav, .sched, .tuner, .tunerOf, .mech, .sending]

/-- A protection that has met a threaded mode stops it, and a note that the taking of the claim has posted is told. -/
theorem protection_stops {at_ : Nat} {v : State} (m : Met at_ s v) (h : Threaded s) (hb : s.power.state ≠ .backup) (hn : NotStopping s)
    (hr : b.transport.resetInFlight = false) (taken : KeepsBut takenParts v (takeProtect c.protection v))
    (hm : (takeProtect c.protection v).mech = .protect c.protection) :
    ProtectionStopped c at_ (endDeckEvent b (protectionStop c v)) ∧
      KeepsBut [.transport, .counter, .estimate, .marks, .sending] (takeProtect c.protection v) (endDeckEvent b (protectionStop c v)) ∧
      (endDeckEvent b (protectionStop c v)).tape.counter = (takeProtect c.protection v).tape.counter ∧
      ∀ k x, Noted k x (takeProtect c.protection v) → NoteKey.mode ≠ k → NoteKey.mark ≠ k → NoteKey.tape ≠ k →
        Announced k x (endDeckEvent b (protectionStop c v)) := by
  have power : (takeProtect c.protection v).power = s.power := (taken.power (by decide)).trans m.keeps.power
  have now : (takeProtect c.protection v).now = at_ := (taken.same .time (by decide)).1.trans m.now
  rw [protectionStop_threaded (m.threaded h) (taken.transport (by decide))]
  obtain ⟨stopped, kept⟩ := protectionStopped_ended (b := b) hm (by rw [power]; exact hb) (hn.of power) hr
  rw [now] at stopped
  exact ⟨stopped, kept, stepping_counter (s := stopping c (takeProtect c.protection v)) _ (hn.of power) hr,
    fun k x noted hmode hmark htape => protectionStopped_noted noted hmode hmark htape (hn.of power) hr⟩

/-- With the mechanism free, under the direct activity or under a protection nothing but the claim and the transport is touched. -/
theorem protection_stops_idle {at_ : Nat} {v : State} (m : Met at_ s v) (h : Threaded s) (hb : s.power.state ≠ .backup)
    (hn : NotStopping s) (hr : b.transport.resetInFlight = false)
    (taken : takeProtect c.protection v = setMech (.protect c.protection) v) :
    ProtectionStopped c at_ (endDeckEvent b (protectionStop c v)) ∧
      KeepsBut [.time, .pins, .transport, .counter, .estimate, .marks, .mech, .sending] s (endDeckEvent b (protectionStop c v)) ∧
      KeepsBut [.transport, .counter, .estimate, .marks, .mech, .sending] v (endDeckEvent b (protectionStop c v)) := by
  have claim : KeepsBut [.mech] v (takeProtect c.protection v) := taken ▸ setMech_keeps ..
  obtain ⟨stopped, kept, -, -⟩ := protection_stops (c := c) m h hb hn hr (claim.mono (by simp [takenParts])) (by rw [taken]; rfl)
  have after := (claim.mono (by simp)).trans (kept.mono (m := [.transport, .counter, .estimate, .marks, .mech, .sending]) (by simp))
  exact ⟨stopped, (m.keeps.mono (by simp)).trans (after.mono (by simp)), after⟩

/-! ### The events -/

/-- A leader of the mode's direction begins the stop of its cause (R22). -/
theorem leader_event {l : Leader} (hb : s.power.state ≠ .backup) (hd : s.transport.mode.direction = some (leaderStops l).1) :
    ∃ b v, exec (.leaderSeen l) s = .next (endDeckEvent b (protectionStop (leaderStops l).2 v)) ∧ b.transport = s.transport ∧
      KeepsBut [.pins, .transport] s v ∧ Met s.now s v := by
  obtain ⟨r, hr⟩ : ∃ r, r = leaderReported l s := ⟨_, rfl⟩
  have transport : r.transport = s.transport := by rw [hr]; cases l <;> rfl
  have now : r.now = s.now := by rw [hr]; cases l <;> rfl
  have kr : KeepsBut [.pins] s r := by rw [hr]; cases l <;> exact withPins_keeps _ s
  have kv : KeepsBut [.pins, .transport] s { r with transport.leaderSeen := true } :=
    (kr.mono (by simp)).trans ((withTransport_keeps _ _).mono (by simp))
  have mode : r.transport.mode = s.transport.mode := by rw [transport]
  have change : r.transport.change = s.transport.change := by rw [transport]
  have moving : r.transport.mode.motion = true := by simp [transport, Mode.motion, hd]
  have acted : leaderActed l r = protectionStop (leaderStops l).2 { r with transport.leaderSeen := true } := by
    simp only [leaderActed, moving, if_true]
    rw [if_pos (show r.transport.mode.direction = _ by rw [transport]; exact hd)]
  refine ⟨r, { r with transport.leaderSeen := true }, ?_, transport, kv, now, mode, change, kv.mono (by simp)⟩
  rw [← acted, ← deckEvent_running (by rw [kr.power]; exact hb), hr]
  rfl

/-- The dew flag is set, and its note posted (R21). -/
def damp (s : State) : State := postMode { s with transport := { s.transport with dew := true, drySince := none } }

theorem damp_transport (s : State) : (damp s).transport = { s.transport with dew := true, drySince := none } := postMode_transport _

theorem damp_keeps (s : State) : KeepsBut [.transport, .sending] s (damp s) :=
  ((withTransport_keeps _ s).mono (by simp)).trans ((postMode_keeps _).mono (by simp))

/-- Wet in a mode that moves or threads the tape (R21): the flag is set, and the stop begins. -/
theorem dewReported_stops (hd : s.transport.dew = false) (hm : s.transport.mode.threaded = true ∨ s.transport.mode = .threading) :
    dewReported true s = protectionStop .dew (damp s) := by
  have mode : (damp s).transport.mode = s.transport.mode := by rw [damp_transport]
  have acts : ((damp s).transport.mode.threaded || (damp s).servoInFlight || (damp s).transport.mode == .threading) = true := by
    rw [mode]
    rcases hm with h | h <;> simp [h]
  have set : dewReported true s = if (damp s).transport.mode.threaded || (damp s).servoInFlight || (damp s).transport.mode == .threading
      then protectionStop .dew (damp s) else programAtDew (damp s) := by
    simp only [dewReported, hd, if_true, Bool.false_eq_true, if_false]
    rfl
  rw [set, if_pos acts]

/-- The dew sensor reports wet in a mode that moves or threads the tape (R21). -/
theorem dew_event (hb : s.power.state ≠ .backup) (hd : s.transport.dew = false)
    (hm : s.transport.mode.threaded = true ∨ s.transport.mode = .threading) :
    ∃ b, b = s.withPins { s.pins with dew := true } ∧
      exec (.dewSensorChange true) s = .next (endDeckEvent b (protectionStop .dew (damp b))) := by
  refine ⟨_, rfl, ?_⟩
  rw [← dewReported_stops (s := s.withPins { s.pins with dew := true }) hd hm]
  exact congrArg _ (deckEvent_running (s := s.withPins { s.pins with dew := true }) hb _)

theorem met_damp (p : Pins) (s : State) : Met s.now s (damp (s.withPins p)) ∧
    KeepsBut [.pins, .transport, .sending] s (damp (s.withPins p)) := by
  have kept := damp_keeps (s.withPins p)
  have all := ((withPins_keeps p s).mono (by simp)).trans (kept.mono (m := [.pins, .transport, .sending]) (by simp))
  have mode : (damp (s.withPins p)).transport.mode = s.transport.mode := by rw [damp_transport]; rfl
  have change : (damp (s.withPins p)).transport.change = s.transport.change := by rw [damp_transport]; rfl
  exact ⟨⟨(kept.same .time (by decide)).1, mode, change, all.mono (by simp)⟩, all⟩

/-- A limit that runs out begins the stop of its cause at its time (R14, R23, R24). -/
theorem limit_stops {limit : Nat} (hle : s.now ≤ limit) (hv : NoNavigation s) (h : Threaded s) (hb : s.power.state ≠ .backup)
    (hn : NotStopping s) (hr : s.transport.resetInFlight = false) (hd : MechDirect s) (c : StopCause) :
    ∃ t, timerEvent (some limit) (protectionStop c) s = t ∧ ProtectionStopped c limit t ∧
      KeepsBut [.time, .pins, .transport, .counter, .estimate, .marks, .mech, .sending] s t := by
  have taken : takeProtect c.protection (leapTo limit s) = setMech (.protect c.protection) (leapTo limit s) :=
    takeProtect_direct (s := leapTo limit s) hd _
  obtain ⟨stopped, kept, -⟩ := protection_stops_idle (met_leap hle hv) h hb hn hr taken
  exact ⟨_, timerEvent_running hb _ _, stopped, kept⟩

/-! ### Dew in THREADING (R21; log 40) -/

/-- A change of the record that is not posted by itself is told by the note that waits already (R7). -/
theorem ModeNoted.noteChange {u : State} (h : ModeNoted s) (hl : u.link.outbox = s.link.outbox) (hb : u.power.state ≠ .backup)
    (hm : u.transport.mode = s.transport.mode) (hc : u.transport.change = s.transport.change)
    (hr : u.transport.recordClass = s.transport.recordClass) : ModeNoted (noteChange s.transport u) := by
  unfold Machine.noteChange
  split
  · exact postMode_noted hb
  · next unchanged =>
    have same : s.transport.notedChange u.transport = false := by simpa [hm] using unchanged
    simp only [Transport.notedChange, Bool.or_eq_false_iff, bne_eq_false_iff_eq] at same
    obtain ⟨⟨⟨⟨⟨⟨⟨target, cassette⟩, tab⟩, dew⟩, play⟩, record⟩, cause⟩, fault⟩ := same
    refine h.of_bytes ?_ hl
    simp only [State.transportBytes, hm, hc, hr, target, cassette, tab, dew, play, record, cause, fault]

/-- In THREADING the stop is held as the target until the step is confirmed (R6, R21). -/
theorem threading_dew (hb : s.power.state ≠ .backup) (hn : NotStopping s) (hr : b.transport.resetInFlight = false)
    (hd : MechDirect s) (hm : s.transport.mode = .threading) (hc : s.transport.change = some (.mech .threading)) :
    let t := endDeckEvent b (protectionStop .dew (damp s))
    t.mech = .protect .dew ∧ t.transport = { s.transport with
      dew := true, drySince := none, target := some .stop, stopCause := some .dew, rewindDue := false } ∧
    Announced .mode t.transportBytes t ∧ KeepsBut [.transport, .estimate, .mech, .sending] s t := by
  have kd := damp_keeps s
  obtain ⟨w, hw⟩ : ∃ w, w = forgetRewind (setMech (.protect .dew) (damp s)) := ⟨_, rfl⟩
  have kw : KeepsBut [.transport, .mech, .sending] s w := by
    rw [hw]
    exact (kd.mono (by simp)).trans (((setMech_keeps ..).mono (by simp)).trans ((forgetRewind_keeps _).mono (by simp)))
  have deck : w.transport = { s.transport with dew := true, drySince := none, rewindDue := false } := by
    rw [hw, forgetRewind]
    dsimp only
    rw [setMech_transport, damp_transport]
  have power : w.power = s.power := kw.power
  have noted : ModeNoted w := by
    have running : ModeNoted (damp s) := postMode_noted hb
    rw [hw]
    exact (running.setMech _).forgetRewind
  obtain ⟨u, hu⟩ : ∃ u, u = noteChange w.transport (aimed .stop (some .dew) w) := ⟨_, rfl⟩
  have flight : w.mechInFlight = true := by simp [State.mechInFlight, deck, hc]
  have mode : w.transport.mode = .threading := by rw [deck]; exact hm
  have held : protectionStop .dew (damp s) = u := by
    have taken : takeProtect .dew (damp s) = setMech (.protect .dew) (damp s) :=
      takeProtect_direct (by simpa only [MechDirect, kd.mech] using hd) _
    have stop : protectionStop .dew (damp s) = setTarget .stop (some .dew) w := by
      rw [hw, ← taken]
      rfl
    rw [stop, hu]
    exact setTarget_held (by rw [mode]; decide) (by rw [mode]; decide) (by rw [mode]; decide) flight _
  have ku : KeepsBut [.transport, .sending] w u := by
    rw [hu]
    exact ((aimed_keeps ..).mono (by simp)).trans ((noteChange_keeps ..).mono (by simp))
  have record : u.transport = { w.transport with target := some .stop, stopCause := some .dew } := by
    rw [hu, (noteChange_keeps ..).transport]
    rfl
  have told : ModeNoted u := hu ▸ noted.noteChange rfl (show w.power.state ≠ .backup by rw [power]; exact hb) rfl rfl rfl
  have settled : settleUnits b u = forgetCandidate u :=
    settleUnits_still (.inl hr) (hn.of (ku.power.trans power)) (by rw [record]; exact mode ▸ rfl)
  have sent := chooseFrame_keeps (forgetCandidate u)
  intro t
  have ends : t = chooseFrame (forgetCandidate u) := by
    rw [← settled, ← held]
    rfl
  rw [ends]
  refine ⟨sent.mech.trans (ku.mech.trans (by rw [hw]; rfl)), sent.transport.trans (record.trans (by rw [deck])),
    told.forgetCandidate.announced, (kw.mono (by simp)).trans ((ku.mono (by simp)).trans
      (((forgetCandidate_keeps _).mono (by simp)).trans (sent.mono (by simp))))⟩

/-! ### What a protection ends (R24, R68, R72, R84, R177) -/

/-- The outcome that a protection gives to a go-to (R72). -/
def Protection.gotoOutcome (p : Protection) : GotoOutcome := if p.isLeader then .tapeEnd else .preempted

/-- The result that a protection gives to a run (R84). -/
def Protection.runResult (p : Protection) (r : Run) : RunResult := if p.isLeader then r.leaderResult else .preempted

theorem takeProtect_operator (h : s.mech.isTimer = false) (p : Protection) :
    takeProtect p s = setMech (.protect p) (endOperator p.gotoOutcome (p.runResult s.nav.run) s) := by
  rw [takeProtect_untimed h, Protection.gotoOutcome, Protection.runResult]
  cases p.isLeader <;> rfl

theorem takeProtect_operator_keeps (h : s.mech.isTimer = false) (p : Protection) :
    KeepsBut [.nav, .mech, .sending] s (takeProtect p s) := by
  rw [takeProtect_operator h]
  exact ((endOperator_keeps ..).mono (by simp)).trans ((setMech_keeps ..).mono (by simp))

/-- A go-to closed short of its target, and the note of it. -/
structure GotoClosed (o : GotoOutcome) (t : State) : Prop where
  active    : t.nav.goto.active = false
  outcome   : t.nav.goto.outcome = some o
  landed    : t.nav.goto.landed = none
  overshoot : t.nav.goto.overshoot = none
  noted     : Noted .goto t.gotoNoteBytes t

theorem closeGoto_closed {o : GotoOutcome} (ho : o ≠ .done) (hb : s.power.state ≠ .backup) : GotoClosed o (closeGoto o s) := by
  obtain ⟨v, hv⟩ : ∃ v : State, v = { s with nav.goto := s.nav.goto.closed o s.tape.counter } := ⟨_, rfl⟩
  have closed : closeGoto o s = postGoto v := by rw [hv]; rfl
  have goto : (postGoto v).nav.goto = s.nav.goto.closed o s.tape.counter := by rw [postGoto_nav, hv]
  have bytes : (postGoto v).gotoNoteBytes = v.gotoNoteBytes := by simp only [State.gotoNoteBytes, postGoto_nav, postGoto_tape]
  rw [closed]
  refine ⟨by rw [goto]; rfl, by rw [goto]; rfl, by rw [goto]; exact if_neg ho, by rw [goto]; exact if_neg ho, ?_⟩
  rw [bytes]
  exact post_noted (by rw [hv]; exact hb) _ _

/-- A run closed with a result, and the note of it. -/
structure RunClosed (r : RunResult) (s t : State) : Prop where
  state    : t.nav.run.state = .done
  result   : t.nav.run.result = some r
  segments : t.nav.run.segments = s.nav.run.segments
  goto     : t.nav.goto = s.nav.goto
  noted    : Noted .run t.runNoteBytes t

theorem closeRun_closed (r : RunResult) (hb : s.power.state ≠ .backup) : RunClosed r s (closeRun r s) := by
  obtain ⟨v, hv⟩ : ∃ v : State, v = { s with nav.run := { s.nav.run with state := .done, result := some r } } := ⟨_, rfl⟩
  have closed : closeRun r s = postRun v := by rw [hv]; rfl
  have bytes : (postRun v).runNoteBytes = v.runNoteBytes := by simp only [State.runNoteBytes, postRun_nav, postRun_tape]
  rw [closed]
  refine ⟨by rw [postRun_nav, hv], by rw [postRun_nav, hv], by rw [postRun_nav, hv], by rw [postRun_nav, hv], ?_⟩
  rw [bytes]
  exact post_noted (by rw [hv]; exact hb) _ _

/-- What the end of an event leaves of a go-to that a protection has closed. -/
structure GotoEnded (o : GotoOutcome) (s t : State) : Prop where
  active    : t.nav.goto.active = false
  outcome   : t.nav.goto.outcome = some o
  landed    : t.nav.goto.landed = none
  overshoot : t.nav.goto.overshoot = none
  note      : Announced .goto t.gotoNoteBytes t
  keeps     : KeepsBut [.pins, .transport, .counter, .estimate, .marks, .nav, .mech, .sending] s t

theorem goto_ended {v : State} (m : Met s.now s v) (kv : KeepsBut [.pins, .transport, .sending] s v) (hm : s.mech = .operator .goTo)
    (ha : s.nav.goto.active = true) (h : Threaded s) (hb : s.power.state ≠ .backup) (hn : NotStopping s)
    (hr : b.transport.resetInFlight = false) (c : StopCause) :
    ProtectionStopped c s.now (endDeckEvent b (protectionStop c v)) ∧
      GotoEnded c.protection.gotoOutcome s (endDeckEvent b (protectionStop c v)) := by
  have mech : v.mech = .operator .goTo := kv.mech.trans hm
  have active : v.nav.goto.active = true := by rw [kv.goto]; exact ha
  have running : v.power.state ≠ .backup := by rw [kv.power]; exact hb
  have short : c.protection.gotoOutcome ≠ .done := by unfold Protection.gotoOutcome; split <;> decide
  have untimed : v.mech.isTimer = false := by rw [mech]; rfl
  have taken : takeProtect c.protection v = setMech (.protect c.protection) (closeGoto c.protection.gotoOutcome v) := by
    rw [takeProtect_operator untimed]
    simp only [endOperator, mech, active, if_true]
  have kept := takeProtect_operator_keeps untimed c.protection
  obtain ⟨stopped, after, counter, told⟩ := protection_stops (c := c) m h hb hn hr (kept.mono (by simp [takenParts]))
    (by rw [taken]; rfl)
  obtain ⟨closed, outcome, landed, overshoot, noted⟩ := closeGoto_closed short running
  have goto := after.goto
  have bytes : (endDeckEvent b (protectionStop c v)).gotoNoteBytes = (closeGoto c.protection.gotoOutcome v).gotoNoteBytes := by
    rw [taken] at goto counter
    simp only [State.gotoNoteBytes, goto, counter, setMech_nav, setMech_tape]
  rw [taken] at goto
  refine ⟨stopped, goto ▸ closed, goto ▸ outcome, goto ▸ landed, goto ▸ overshoot, ?_,
    (kv.mono (by simp)).trans ((kept.mono (by simp)).trans (after.mono (by simp)))⟩
  rw [bytes]
  exact told _ _ (by rw [taken]; exact noted.of) (by decide) (by decide) (by decide)

/-- What the end of an event leaves of a run that a protection has closed. -/
structure RunEnded (r : RunResult) (s t : State) : Prop where
  state    : t.nav.run.state = .done
  result   : t.nav.run.result = some r
  goto     : t.nav.goto.active = false
  segments : t.nav.run.segments = s.nav.run.segments
  note     : Announced .run t.runNoteBytes t
  keeps    : KeepsBut [.pins, .transport, .counter, .estimate, .marks, .nav, .mech, .sending] s t

theorem endOperator_run {o : GotoOutcome} {r : RunResult} (hm : s.mech = .operator .run) (ha : s.nav.run.state.active = true)
    (hb : s.power.state ≠ .backup) (ho : o ≠ .done) : ∃ v, endOperator o r s = closeRun r v ∧ v.nav.run = s.nav.run ∧
      v.nav.goto.active = false ∧ v.power.state ≠ .backup := by
  cases hg : s.nav.goto.active with
  | true =>
    have run : (closeGoto o s).nav.run = s.nav.run := by rw [closeGoto_eq, postGoto_nav]
    refine ⟨closeGoto o s, ?_, run, (closeGoto_closed ho hb).active, by rw [(closeGoto_keeps o s).power]; exact hb⟩
    simp only [endOperator, hm, hg, if_true, run, ha]
  | false =>
    refine ⟨s, ?_, rfl, hg, hb⟩
    simp only [endOperator, hm, hg, Bool.false_eq_true, if_false, ha, if_true]

theorem run_ended {v : State} (m : Met s.now s v) (kv : KeepsBut [.pins, .transport, .sending] s v) (hm : s.mech = .operator .run)
    (ha : s.nav.run.state.active = true) (h : Threaded s) (hb : s.power.state ≠ .backup) (hn : NotStopping s)
    (hr : b.transport.resetInFlight = false) (c : StopCause) :
    ProtectionStopped c s.now (endDeckEvent b (protectionStop c v)) ∧
      RunEnded (c.protection.runResult s.nav.run) s (endDeckEvent b (protectionStop c v)) := by
  have mech : v.mech = .operator .run := kv.mech.trans hm
  have running : v.power.state ≠ .backup := by rw [kv.power]; exact hb
  have short : c.protection.gotoOutcome ≠ .done := by unfold Protection.gotoOutcome; split <;> decide
  have untimed : v.mech.isTimer = false := by rw [mech]; rfl
  obtain ⟨x, ends, run, goto, up⟩ := endOperator_run (r := c.protection.runResult s.nav.run) mech (by rw [kv.run]; exact ha) running short
  have taken : takeProtect c.protection v = setMech (.protect c.protection) (closeRun (c.protection.runResult s.nav.run) x) := by
    rw [takeProtect_operator untimed, kv.run, ends]
  have kept := takeProtect_operator_keeps untimed c.protection
  obtain ⟨stopped, after, counter, told⟩ := protection_stops (c := c) m h hb hn hr (kept.mono (by simp [takenParts]))
    (by rw [taken]; rfl)
  obtain ⟨state, result, segments, gotoSame, noted⟩ := closeRun_closed (s := x) (c.protection.runResult s.nav.run) up
  have runAfter := after.run
  have gotoAfter := after.goto
  rw [taken] at runAfter gotoAfter counter
  have bytes : (endDeckEvent b (protectionStop c v)).runNoteBytes =
      (closeRun (c.protection.runResult s.nav.run) x).runNoteBytes := by
    simp only [State.runNoteBytes, runAfter, counter, setMech_nav, setMech_tape]
  refine ⟨stopped, runAfter ▸ state, runAfter ▸ result, ?_, ?_, ?_,
    (kv.mono (by simp)).trans ((kept.mono (by simp)).trans (after.mono (by simp)))⟩
  · rw [gotoAfter, setMech_nav, gotoSame]
    exact goto
  · rw [runAfter, setMech_nav, segments, run, kv.run]
  · rw [bytes]
    exact told _ _ (by rw [taken]; exact noted.of) (by decide) (by decide) (by decide)

/-! ### An end action (R177) -/

theorem setTunerClaim_keeps (x : TunerClaim) (s : State) : KeepsBut [.tunerOf, .sending] s (setTunerClaim x s) := by
  have claim : KeepsBut [.tunerOf] s { s with tunerOf := x } := by
    refine ⟨fun q hq => ?_⟩
    cases q <;> simp_all [SamePart]
  unfold setTunerClaim
  split
  · exact .refl _ _
  · exact (claim.mono (by simp)).trans ((postTune_keeps _).mono (by simp))

theorem withTuner_keeps (x : Tuner) (s : State) : KeepsBut [.tuner] s { s with tuner := x } := by
  refine ⟨fun q hq => ?_⟩
  cases q <;> simp_all [SamePart]

theorem retune_keeps (s : State) : KeepsBut [.tuner, .sending] s (retune s) :=
  ((withTuner_keeps _ s).mono (by simp)).trans ((postTune_keeps _).mono (by simp))

/-- The scheduler gives up the TUNER claim that it holds (R187). -/
theorem releaseTimerTuner_free (h : s.tunerOf.isTimer = true) :
    (releaseTimerTuner s).tunerOf = .free ∧ KeepsBut [.tuner, .tunerOf, .sending] s (releaseTimerTuner s) := by
  have kept := (setTunerClaim_keeps .free s).mono (m := [.tuner, .tunerOf, .sending]) (by simp)
  have claim := setTunerClaim_tunerOf s .free
  unfold releaseTimerTuner
  rw [if_pos h]
  dsimp only
  split
  · exact ⟨claim, kept⟩
  · split
    · have posted := ((withTuner_keeps { (setTunerClaim .free s).tuner with copy := .current } (setTunerClaim .free s)).mono
        (m := [.tuner, .sending])
        (by simp)).trans ((postTune_keeps _).mono (by simp))
      exact ⟨posted.tunerOf.trans claim, kept.trans (posted.mono (by simp))⟩
    · have tuned := retune_keeps (setTunerClaim .free s)
      exact ⟨tuned.tunerOf.trans claim, kept.trans (tuned.mono (by simp))⟩

theorem takeProtect_timer {x : TimerActivity} (h : s.mech = .timer x) (p : Protection) :
    takeProtect p s = timerPreempted x p (setMech (.protect p) s) := by
  have same : ∀ o r, endOperator o r s = s := fun o r => by simp [endOperator, h]
  simp only [takeProtect, same, ite_self, h]

/-- The state as a protection has taken the claim of an end action. -/
def withSched (x : Scheduler) (p : Protection) (s : State) : State := { setMech (.protect p) s with sched := x }

theorem withSched_keeps (x : Scheduler) (p : Protection) (s : State) : KeepsBut [.mech, .sched] s (withSched x p s) := by
  refine ((setMech_keeps (.protect p) s).mono (by simp)).trans ⟨fun q hq => ?_⟩
  cases q <;> simp_all [SamePart, withSched]

/-- An end action that a protection meets is ended, and the TUNER claim given up with it (R177). -/
theorem endAction_dropped {v : State} {e : Nat × EndAction} (m : Met s.now s v) (kv : KeepsBut [.pins, .transport, .sending] s v)
    (hm : s.mech = .timer (.endAction e.1)) (ht : s.tunerOf = .timer (.endAction e.1)) (h : Threaded s) (hb : s.power.state ≠ .backup)
    (hn : NotStopping s) (hr : b.transport.resetInFlight = false) (hc : c.protection ≠ .leaderStart) :
    ProtectionStopped c s.now (endDeckEvent b (protectionStop c v)) ∧
      (endDeckEvent b (protectionStop c v)).sched = { s.sched with endAction := none } ∧
      (endDeckEvent b (protectionStop c v)).tunerOf = .free := by
  obtain ⟨x, hx⟩ : ∃ x, x = withSched { v.sched with endAction := none } c.protection v := ⟨_, rfl⟩
  have kx : KeepsBut [.mech, .sched] v x := hx ▸ withSched_keeps ..
  have taken : takeProtect c.protection v = releaseTimerTuner x := by
    rw [takeProtect_timer (kv.mech.trans hm), timerPreempted, if_neg fun o => hc o.2, hx]
    rfl
  obtain ⟨free, released⟩ := releaseTimerTuner_free (s := x) (by rw [kx.tunerOf, kv.tunerOf, ht]; rfl)
  have kept : KeepsBut takenParts v (takeProtect c.protection v) := by
    rw [taken]
    exact (kx.mono (by simp [takenParts])).trans (released.mono (by simp [takenParts]))
  obtain ⟨stopped, after, -, -⟩ := protection_stops (c := c) m h hb hn hr kept (by rw [taken, released.mech, hx]; rfl)
  refine ⟨stopped, ?_, by rw [after.tunerOf, taken, free]⟩
  rw [after.sched, taken, released.sched, hx, ← kv.sched]
  rfl

/-- An end action of REWIND that the start leader completes keeps the TUNER claim until its tail is over (R177). -/
theorem endAction_completed {v : State} {e : Nat × EndAction} (m : Met s.now s v) (kv : KeepsBut [.pins, .transport, .sending] s v)
    (he : s.sched.endAction = some e) (hw : e.2 = .rewind) (hm : s.mech = .timer (.endAction e.1)) (h : Threaded s)
    (hb : s.power.state ≠ .backup) (hn : NotStopping s) (hr : b.transport.resetInFlight = false) :
    ProtectionStopped .leaderStart s.now (endDeckEvent b (protectionStop .leaderStart v)) ∧
      (endDeckEvent b (protectionStop .leaderStart v)).sched = { s.sched with endAction := none, rewindTail := true } ∧
      (endDeckEvent b (protectionStop .leaderStart v)).tunerOf = s.tunerOf := by
  obtain ⟨x, hx⟩ : ∃ x, x = withSched { v.sched with endAction := none, rewindTail := true } .leaderStart v := ⟨_, rfl⟩
  have kx : KeepsBut [.mech, .sched] v x := hx ▸ withSched_keeps ..
  have rewinds : (setMech (.protect .leaderStart) v).sched.endAction.any (fun e => e.2 == .rewind) = true := by
    rw [setMech_sched, kv.sched, he]
    simp [hw]
  have taken : takeProtect (StopCause.protection .leaderStart) v = x := by
    rw [show StopCause.protection .leaderStart = Protection.leaderStart from rfl, takeProtect_timer (kv.mech.trans hm), timerPreempted,
      if_pos ⟨rewinds, rfl⟩, hx]
    rfl
  obtain ⟨stopped, after, -, -⟩ := protection_stops (c := .leaderStart) m h hb hn hr
    (by rw [taken]; exact kx.mono (by simp [takenParts])) (by rw [taken, hx]; rfl)
  refine ⟨stopped, ?_, by rw [after.tunerOf, taken, kx.tunerOf, kv.tunerOf]⟩
  rw [after.sched, taken, hx, ← kv.sched]
  rfl

/-! ### The rewind after a LEADER_END stop (R24) -/

/-- STOP reached with the rewind due begins THREADING toward WIND_REV (R24). -/
theorem atStop_rewinds (h : s.rewinds = true) (hm : s.transport.mode = .stop) (hc : s.transport.change = none) :
    atStop s = beginMech .threading (aimed .windRev s.transport.stopCause (forgetRewind s)) := by
  have dew : s.transport.dew = false := by
    simp only [State.rewinds, Bool.and_eq_true, Bool.not_eq_true'] at h
    exact h.1.2
  have mode : (forgetRewind s).transport.mode = .stop := hm
  have dropped : (forgetRewind s).wouldDrop .windRev = false := by
    have dry : (forgetRewind s).transport.dew = false := dew
    simp [State.wouldDrop, State.tabForbids, State.recordForbidden, dry]
  have path := choosePath_threads (s := aimed .windRev s.transport.stopCause (forgetRewind s)) hm rfl rfl
    (by simp [State.tabForbids]) dew
  have aim : autoRewind s = setTarget .windRev s.transport.stopCause (forgetRewind s) := rfl
  rw [atStop_eq, if_pos h, aim, setTarget_path (s := forgetRewind s) (by rw [mode]; decide) (by rw [mode]; decide) (by rw [mode]; decide)
    (mechInFlight_of_none hc) dropped, path, noteChange_moved]
  rw [beginMech_mode, mode]
  decide

/-- What follows the stop of a LEADER_END protection. -/
structure RewindTaken (s t : State) : Prop where
  cause  : t.transport.stopCause = s.transport.stopCause
  due    : t.transport.rewindDue = false
  goes   : s.settings.autoRewind = true → s.transport.dew = false → t.mech = s.mech ∧ t.transport.mode = .threading ∧
    t.transport.change = some (.mech .threading) ∧ t.transport.target = some .windRev ∧ t.transport.stepStart = s.now
  ends   : s.settings.autoRewind = false ∨ s.transport.dew = true → t.mech = .free ∧ t.transport.mode = .stop ∧
    t.transport.change = none ∧ t.transport.target = none
  note   : Announced .mode t.transportBytes t
  keeps  : KeepsBut [.transport, .counter, .estimate, .marks, .mech, .sending] s t

/-- STOP entered by a LEADER_END stop with its target reached, before the rewind is looked at. -/
theorem enterStop_of_stop (ht : s.transport.target = some .stop) (hr : s.transport.recovering = false) :
    enterStop s = atStop (enterMode .stop none s) := by
  simp only [enterStop, ht, Option.all_some, beq_self_eq_true, if_true, endRecovery_none hr]

theorem enterStop_rewind (hb : s.power.state ≠ .backup) (hn : NotStopping s) (hq : b.transport.resetInFlight = false)
    (hm : s.mech = .protect .leaderEnd) (hd : s.transport.rewindDue = true) (hr : s.transport.recovering = false)
    (ht : s.transport.target = some .stop) (hp : NoPrograms s) (hv : NoNavigation s) :
    RewindTaken s (endDeckEvent b (enterStop s)) := by
  obtain ⟨e, he⟩ : ∃ e, e = enterMode .stop none s := ⟨_, rfl⟩
  have ke : KeepsBut stillParts s e := he ▸ enterMode_still rfl none s
  have deck : e.transport = s.transport.reached .stop none s.now := he ▸ enterMode_transport ..
  have target : e.transport.target = none := by rw [deck]; simp [Transport.reached, ht]
  have power : e.power = s.power := ke.power
  rw [enterStop_of_stop ht hr, ← he]
  by_cases go : s.settings.autoRewind = true ∧ s.transport.dew = false
  · obtain ⟨auto, dew⟩ := go
    have rewinds : e.rewinds = true := by
      rw [State.rewinds, target, ke.mech, ke.settings, deck]
      simp [Transport.reached, hd, hm, auto, dew, MechClaim.isProtect]
    obtain ⟨x, hx⟩ : ∃ x, x = aimed .windRev e.transport.stopCause (forgetRewind e) := ⟨_, rfl⟩
    have kx : KeepsBut stillParts s x := by
      rw [hx]
      exact ke.trans (((forgetRewind_keeps _).mono (by simp [stillParts])).trans ((aimed_keeps ..).mono (by simp [stillParts])))
    have st : Stepping .threading x (endDeckEvent b (beginMech .threading x)) :=
      stepping_event .threading (by rw [kx.power]; exact hb) (hn.of kx.power) (.inl hq)
    have cause : x.transport.stopCause = s.transport.stopCause := by rw [hx]; exact deck ▸ rfl
    have due : x.transport.rewindDue = false := by rw [hx]; rfl
    rw [atStop_rewinds rewinds (by rw [deck]; rfl) (by rw [deck]; rfl), ← hx]
    refine ⟨by rw [st.record]; exact cause, by rw [st.record]; exact due,
      fun _ _ => ⟨st.keeps.mech.trans kx.mech, st.mode, st.change, st.target (by rw [hx]; rfl), st.start.trans (kx.same .time (by decide)).1⟩,
      fun o => ?_, st.note, (kx.mono (by simp [stillParts])).trans (st.keeps.mono (by simp))⟩
    rcases o with o | o
    · rw [auto] at o; cases o
    · rw [dew] at o; cases o
  · have rests : e.rewinds = false := by
      rw [State.rewinds, ke.settings, deck]
      rw [not_and_or, Bool.not_eq_true, Bool.not_eq_false] at go
      rcases go with h | h <;> simp [Transport.reached, h]
    have protect : e.mech.isProtect = true := by rw [ke.mech, hm]; rfl
    have still := atStop_idle (hp.of ke.sched) ⟨by rw [ke.goto]; exact hv.goto, by rw [ke.run]; exact hv.run⟩ (by rw [deck]; rfl)
      (by rw [State.settled, target, deck]; rfl) rests (.inr protect)
    obtain ⟨x, hx⟩ : ∃ x, x = setMech .free (forgetRewind e) := ⟨_, rfl⟩
    have kx : KeepsBut [.transport, .counter, .marks, .mech, .sending] s x := by
      rw [hx]
      exact (ke.mono (by simp [stillParts])).trans (((forgetRewind_keeps _).mono (by simp)).trans ((setMech_keeps ..).mono (by simp)))
    have record : x.transport = { s.transport with rewindDue := false }.reached .stop none s.now := by
      rw [hx, setMech_transport, forgetRewind]
      dsimp only
      rw [deck]
      rfl
    have settled : settleUnits b x = forgetCandidate x := settleUnits_still (.inl hq) (hn.of kx.power) (by rw [record]; rfl)
    have noted : ModeNoted (forgetCandidate x) := by
      rw [hx, he]
      exact ((enterMode_noted .stop none hb).forgetRewind.setMech .free).forgetCandidate
    have sent := chooseFrame_keeps (forgetCandidate x)
    rw [still, ← hx, endDeckEvent, settled]
    have final := (chooseFrame_transport (forgetCandidate x)).trans record
    refine ⟨by rw [final]; rfl, by rw [final]; rfl, fun auto dew => absurd ⟨auto, dew⟩ go, fun _ => ⟨sent.mech.trans (by rw [hx]; rfl),
      by rw [final]; rfl, by rw [final]; rfl, by rw [final]; simp [Transport.reached, ht]⟩, noted.announced,
      (kx.mono (by simp)).trans (((forgetCandidate_keeps _).mono (by simp)).trans (sent.mono (by simp)))⟩

/-! ### The statement -/

theorem servoLimit_change {m : Mode} (h : s.transport.change = some (.servo m)) :
    s.servoLimit = some (s.transport.servoStart + seconds 1) := by simp [State.servoLimit, h]

theorem servoLimit_lost {since : Nat} (h : s.transport.change = none) (hl : s.transport.lockLostAt = some since) :
    s.servoLimit = some (since + seconds 1) := by simp [State.servoLimit, h, hl]

/-- UNTHREADING begun by a protection is not under way in a threaded mode (R23). -/
theorem Threaded.not_leaderJustStopped (h : Threaded s) : s.leaderJustStopped = false := by
  have step : s.stepping .unthreading = false := by
    by_contra hs
    rw [Bool.not_eq_false, State.stepping, beq_iff_eq] at hs
    have change := h.change
    simp [State.mechInFlight, hs] at change
  simp [State.leaderJustStopped, step]

/-- The stops that the protections begin from a threaded mode under the direct activity. -/
theorem protections_direct (hb : s.power.state ≠ .backup) (hr : s.transport.resetInFlight = false) (hn : NotStopping s)
    (hd : MechDirect s) (hv : NoNavigation s) (h : Threaded s) :
    let stopped := fun (c : StopCause) (at_ : Nat) (o : Host.Outcome State Fault Refusal) =>
      ∃ t, o = .next t ∧ ProtectionStopped c at_ t ∧
        KeepsBut [.time, .pins, .transport, .counter, .estimate, .marks, .mech, .sending] s t
    (∀ (l : Option Nat) (limit : Nat) (c : StopCause), l = some limit → s.now ≤ limit →
      stopped c limit (.next (timerEvent l (protectionStop c) s))) ∧
    (s.transport.dew = false → stopped .dew s.now (exec (.dewSensorChange true) s)) ∧
    (∀ l : Leader, s.transport.mode.direction = some (leaderStops l).1 →
      stopped (leaderStops l).2 s.now (exec (.leaderSeen l) s)) := by
  refine ⟨fun l limit c hl hle => ?_, fun dew => ?_, fun l dir => ?_⟩
  · obtain ⟨t, acts, stop, kept⟩ := limit_stops hle hv h hb hn hr hd c
    exact ⟨t, by rw [hl, acts], stop, kept⟩
  · obtain ⟨b, rfl, acts⟩ := dew_event hb dew (.inl h.mode)
    obtain ⟨m, kv⟩ := met_damp { s.pins with dew := true } s
    obtain ⟨stop, kept, -⟩ := protection_stops_idle (b := s.withPins { s.pins with dew := true }) (c := .dew) m h hb hn hr
      (takeProtect_direct (by simpa only [MechDirect, kv.mech] using hd) _)
    exact ⟨_, acts, stop, kept⟩
  · obtain ⟨b, v, acts, same, kv, m⟩ := leader_event hb dir
    obtain ⟨stop, kept, -⟩ := protection_stops_idle (b := b) (c := (leaderStops l).2) m h hb hn (by rw [same]; exact hr)
      (takeProtect_direct (by simpa only [MechDirect, kv.mech] using hd) _)
    exact ⟨_, acts, stop, kept⟩

/-- What a leader's stop finds (R22). -/
theorem leader_met {l : Leader} (hb : s.power.state ≠ .backup) (hr : s.transport.resetInFlight = false)
    (dir : s.transport.mode.direction = some (leaderStops l).1) : ∃ b v,
    exec (.leaderSeen l) s = .next (endDeckEvent b (protectionStop (leaderStops l).2 v)) ∧ b.transport.resetInFlight = false ∧
      KeepsBut [.pins, .transport, .sending] s v ∧ KeepsBut [.pins, .transport] s v ∧ Met s.now s v := by
  obtain ⟨b, v, acts, same, kv, m⟩ := leader_event hb dir
  exact ⟨b, v, acts, by rw [same]; exact hr, kv.mono (by simp), kv, m⟩

/-- What the stop of dew finds (R21). -/
theorem dew_met (hb : s.power.state ≠ .backup) (hr : s.transport.resetInFlight = false) (h : Threaded s) (dew : s.transport.dew = false) :
    ∃ b v, exec (.dewSensorChange true) s = .next (endDeckEvent b (protectionStop .dew v)) ∧ b.transport.resetInFlight = false ∧
      KeepsBut [.pins, .transport, .sending] s v ∧ Met s.now s v := by
  obtain ⟨b, rfl, acts⟩ := dew_event hb dew (.inl h.mode)
  obtain ⟨m, kv⟩ := met_damp { s.pins with dew := true } s
  exact ⟨_, _, acts, hr, kv, m⟩

/-- Settles O15: every protection stops a threaded mode in one way, and its claim ends what held the mechanism. -/
theorem protectionsStop : Obligations.ProtectionsStop := by
  intro s hb hr hn
  refine ⟨fun hd hp hv h => ?_, fun hd hp hv hm hc dew => ?_, fun h => ?_, fun hm due hu hc he rec ht hp hv => ?_⟩
  · obtain ⟨limits, dew, leaders⟩ := protections_direct hb hr hn hd hv h
    intro stopped
    refine ⟨fun m hc hle => limits _ _ _ (servoLimit_change hc) hle, fun since hc hl hle => limits _ _ _ (servoLimit_lost hc hl) hle, dew,
      leaders .endLeader, leaders .startLeader, fun hm hle => limits _ _ _ (if_pos hm) hle, fun hw hs hle => ?_,
      fun hm hle => limits _ _ _ (if_pos (by rcases hm with h | h <;> rw [h] <;> rfl)) hle⟩
    have running : (s.transport.mode.wind && !s.transport.leaderSeen) = true := by simp [hw, hs]
    obtain ⟨t, acts, stop⟩ := limits s.tightLimit _ .tightEnd (if_pos running) hle
    refine ⟨t, ?_, stop⟩
    rw [← acts]
    exact congrArg Host.Outcome.next (if_neg (by rw [h.not_leaderJustStopped]; decide))
  · obtain ⟨b, rfl, acts⟩ := dew_event hb dew (.inr hm)
    obtain ⟨mech, record, note, kept⟩ := threading_dew (b := s.withPins { s.pins with dew := true })
      (s := s.withPins { s.pins with dew := true }) hb hn.of hr hd hm hc
    exact ⟨_, acts, mech, kept.pins, record, note, ((withPins_keeps _ s).mono (by simp)).trans (kept.mono (by simp))⟩
  · intro stop atLeader atDew
    refine ⟨fun hm ha _ => ?_, fun hm ha _ => ?_, fun e he hm ht => ⟨fun dew => ?_, fun dir hw => ?_⟩, fun hm hw => ?_⟩
    · intro ended
      refine ⟨fun dir => ?_, fun dew => ?_⟩
      · obtain ⟨b, v, acts, hq, kv, -, m⟩ := leader_met hb hr (l := .endLeader) dir
        obtain ⟨stopped, closed⟩ := goto_ended m kv hm ha h hb hn hq .leaderEnd
        exact ⟨_, acts, stopped, closed.active, closed.outcome, closed.landed, closed.overshoot, closed.note, closed.keeps⟩
      · obtain ⟨b, v, acts, hq, kv, m⟩ := dew_met hb hr h dew
        obtain ⟨stopped, closed⟩ := goto_ended m kv hm ha h hb hn hq .dew
        exact ⟨_, acts, stopped, closed.active, closed.outcome, closed.landed, closed.overshoot, closed.note, closed.keeps⟩
    · intro ended
      refine ⟨fun dir => ?_, fun dew => ?_⟩
      · obtain ⟨b, v, acts, hq, kv, -, m⟩ := leader_met hb hr (l := .endLeader) dir
        obtain ⟨stopped, closed⟩ := run_ended m kv hm ha h hb hn hq .leaderEnd
        exact ⟨_, acts, stopped, closed.state, closed.result, closed.goto, closed.segments, closed.note, closed.keeps⟩
      · obtain ⟨b, v, acts, hq, kv, m⟩ := dew_met hb hr h dew
        obtain ⟨stopped, closed⟩ := run_ended m kv hm ha h hb hn hq .dew
        exact ⟨_, acts, stopped, closed.state, closed.result, closed.goto, closed.segments, closed.note, closed.keeps⟩
    · obtain ⟨b, v, acts, hq, kv, m⟩ := dew_met hb hr h dew
      exact ⟨_, acts, endAction_dropped (e := e) m kv hm ht h hb hn hq (by decide)⟩
    · obtain ⟨b, v, acts, hq, kv, -, m⟩ := leader_met hb hr (l := .startLeader) dir
      exact ⟨_, acts, endAction_completed m kv he hw hm h hb hn hq⟩
    · obtain ⟨b, v, acts, hq, -, kv, m⟩ := leader_met hb hr (l := .startLeader) (by rw [hw]; rfl)
      obtain ⟨stopped, -, kept⟩ := protection_stops_idle (c := .leaderStart) m h hb hn hq (takeProtect_protect (kv.mech.trans hm) _)
      exact ⟨_, acts, stopped, (kv.mono (by simp)).trans (kept.mono (by simp))⟩
  · obtain ⟨p, hp'⟩ : ∃ p : Pins, p = { s.pins with position := .loaded } := ⟨_, rfl⟩
    have acts : exec .unthreadingComplete s = .next (endDeckEvent (s.withPins p) (enterStop (s.withPins p))) := by
      have plain : enterUnthreaded (s.withPins p) = enterStop (s.withPins p) := by
        unfold enterUnthreaded
        rw [show (s.withPins p).transport.unthreadEnd = .plain from he]
      rw [← plain, ← stepReport_acts hb hc p enterUnthreaded, hp']
      rfl
    obtain ⟨cause, due', goes, ends, note, kept⟩ :=
      enterStop_rewind (b := s.withPins p) (s := s.withPins p) hb hn.of hr hm due rec ht hp.of hv.of
    exact ⟨_, acts, cause, due', goes, ends, note, ((withPins_keeps p s).mono (by simp)).trans (kept.mono (by simp))⟩

end Sys2Proof.Machine
end

section
/-! O17: DECK_RESET. The port is emptied before anything else, so that what stood in it has no part in what follows; then the claims, the
navigation and the target go, and the deck works toward STOP or recovers from FAULT (R13, R28, R87, R206). -/

namespace Sys2Proof.Machine

variable {b q s t u v : State}

/-! ### The port (R28, R206) -/

theorem exec_deckReset (h : PortReady s) : exec .deckReset s =
    .next (answered .deckReset { status := .accepted } (settleUnits s (deckResetRequest s).1)) :=
  congrArg Host.Outcome.next (requestFrame_ready h rfl)

/-- The port with nothing dispatched left in it. -/
theorem replyOutstanding_none {l : Link} (hr : ∀ f ∈ l.replies, f.origin ≠ .dispatched)
    (hl : l.line.any (fun f => f.origin == .dispatched) = false) : l.replyOutstanding = false := by
  simp only [Link.replyOutstanding, hl, Bool.or_false]
  simpa using hr

theorem PortReady.line_free (h : PortReady s) : s.link.line.any (fun f => f.origin == .dispatched) = false := by
  have free := h.free
  simp only [Link.replyOutstanding, Bool.or_eq_false_iff] at free
  exact free.2

/-- Dispatched at its arrival, DECK_RESET does not depend on what waits to be sent or on a frame half received (R28). -/
theorem deckReset_arrives (h : PortReady s) {replies : List Frame} (outbox : List Note) (assembly : Option Assembly)
    (hr : ∀ f ∈ replies, f.origin ≠ .dispatched) :
    exec .deckReset { s with link := { s.link with replies := replies, outbox := outbox, assembly := assembly } } =
      exec .deckReset { s with link := { s.link with replies := [], outbox := [], assembly := none } } := by
  have ready : ∀ (l : List Frame) (o : List Note) (a : Option Assembly), (∀ f ∈ l, f.origin ≠ .dispatched) →
      PortReady { s with link := { s.link with replies := l, outbox := o, assembly := a } } :=
    fun l o a hl => ⟨h.runs, h.input, replyOutstanding_none hl h.line_free⟩
  rw [exec_deckReset (ready replies outbox assembly hr), exec_deckReset (ready [] [] none (fun f hf => nomatch hf))]
  rfl

/-- The head of the queue is dispatched as soon as no dispatched reply is outstanding (R199). -/
theorem dispatch_head {e : Entry} {rest : List Entry} (free : u.link.replyOutstanding = false) (hi : u.link.input = e :: rest) :
    dispatch u = dispatchEntry e { u with link := { u.link with input := rest } } := by
  simp only [dispatch, free, Bool.false_eq_true, if_false, hi]

/-- Dispatched from the head of the queue, DECK_RESET does not depend on the entries behind it either (R28, R199). -/
theorem deckReset_queued {f : Frame} {rest : List Entry} (hb : s.power.state ≠ .backup) (hl : s.link.line = some f)
    (hf : f.origin = .dispatched) (hr : ∀ r ∈ s.link.replies, r.origin ≠ .dispatched)
    (hi : s.link.input = { body := [RequestKind.deckReset.code], good := true } :: rest) :
    exec .transmitEnd s = exec .deckReset
      { s with link := { s.link with line := none, input := [], replies := [], outbox := [], assembly := none } } := by
  have ready : PortReady { s with link := { s.link with line := none, input := [], replies := [], outbox := [], assembly := none } } :=
    ⟨hb, rfl, rfl⟩
  have free : ({ s.link with line := none } : Link).replyOutstanding = false := replyOutstanding_none hr rfl
  have ended : lineEnds s = dispatch { s with link := { s.link with line := none } } := by simp only [lineEnds, hl, hf, if_true]
  have head := dispatch_head (u := { s with link := { s.link with line := none } }) free hi
  have sent : exec .transmitEnd s = .next (endLinkEvent (lineEnds s)) := congrArg Host.Outcome.next (if_neg hb)
  rw [sent, ended, head, exec_deckReset ready]
  rfl

/-! ### The end of the event with nothing for the timer (R33, R38) -/

theorem releaseTimerTuner_keeps (s : State) : KeepsBut [.tuner, .tunerOf, .sending] s (releaseTimerTuner s) := by
  by_cases h : s.tunerOf.isTimer = true
  · exact (releaseTimerTuner_free h).2
  · rw [releaseTimerTuner, if_neg h]
    exact .refl _ _

theorem resumeAfterReset_keeps (h : NoPrograms s) : KeepsBut [.tuner, .tunerOf, .sending] s (resumeAfterReset s) := by
  have rules : rulesIfFree s = s := by simp [rulesIfFree, h.active, h.applyRules]
  simp only [resumeAfterReset, rules]
  split
  · exact releaseTimerTuner_keeps s
  · exact .refl _ _

/-- The end of an event with no programs, whether or not it ends a DECK_RESET sequence. -/
theorem settleUnits_keeps_idle (b : State) (hp : NoPrograms s) (hn : NotStopping s) :
    KeepsBut [.estimate, .tuner, .tunerOf, .sending] s (settleUnits b s) ∧ (settleUnits b s).tape.cls = s.tape.cls := by
  obtain ⟨r, hr⟩ : ∃ r, r = if b.transport.resetInFlight && !s.transport.resetInFlight then resumeAfterReset s else s := ⟨_, rfl⟩
  have resumed : KeepsBut [.tuner, .tunerOf, .sending] s r := by
    rw [hr]
    split
    · exact resumeAfterReset_keeps hp
    · exact .refl _ _
  have settled : settleUnits b s = settleUnits r r := by
    simp only [settleUnits, Bool.and_not_self, Bool.false_eq_true, if_false]
    rw [hr]
  rw [settled]
  have kept := settleUnits_keeps (b := r) (s := r) (by cases r.transport.resetInFlight <;> simp) (hn.of resumed.power)
  refine ⟨(resumed.mono (by simp)).trans (kept.mono (by simp)), ?_⟩
  have cls : (settleUnits r r).tape.cls = r.tape.cls := by
    rw [settleUnits_eq (by cases r.transport.resetInFlight <;> simp) (hn.of resumed.power), checkIdentifying_eq, checkHeld]
    split <;> split <;> simp [forgetCandidate, postTape]
  exact cls.trans (resumed.same .estimate (by decide)).1

/-! ### DECK_RESET ends its event (R28, R206) -/

/-- What the reset of the transport begins, before the stop cause is cleared (R13, R28). -/
def redirected (q : State) : State :=
  if q.transport.mode = .fault then recover false q
  else if q.transport.recovering then turnRecovery false q
  else setTarget .stop none q

/-- The stop cause is cleared (R28). -/
def clearCause (s : State) : State := { s with transport := { s.transport with stopCause := none } }

theorem resetTransport_eq (q : State) : resetTransport q = noteChange (redirected q).transport (clearCause (redirected q)) := rfl

theorem endResetAtRest_keeps (h : NoPrograms s) : KeepsBut [.transport, .tuner, .tunerOf, .sending] s (endResetAtRest s) ∧
    ∃ r, (endResetAtRest s).transport = { s.transport with resetInFlight := r } := by
  simp only [endResetAtRest]
  split
  · have kept := resumeAfterReset_keeps (s := { s with transport.resetInFlight := false }) h.of
    exact ⟨((withTransport_keeps _ s).mono (by simp)).trans (kept.mono (by simp)), false, kept.transport⟩
  · exact ⟨.refl _ _, s.transport.resetInFlight, rfl⟩

theorem kept_endResetAtRest (s : State) : Kept s (endResetAtRest s) := by
  simp only [endResetAtRest]
  split
  · exact Kept.after (kept_resumeAfterReset _) .same
  · exact .refl s

/-- With the line taken a reply waits behind those before it; with the line and the list free it goes out at once (R199, R202). -/
theorem answered_replies (k : RequestKind) (r : Reply) (hb : s.power.state ≠ .backup) :
    (∀ f, s.link.line = some f → (answered k r s).link.line = some f ∧
      (answered k r s).link.replies = s.link.replies ++ [replyFrame k r]) ∧
    (s.link.line = none → s.link.replies = [] → (answered k r s).link.replies = []) := by
  refine ⟨fun f hf => ?_, fun hl hr => ?_⟩ <;> simp [answered, chooseFrame, putReply, *]

/-- A DECK_RESET has ended its event, from where its path has begun. -/
structure ResetEnded (v t : State) : Prop where
  record  : ∃ r, t.transport = { v.transport with stopCause := none, resetInFlight := r }
  cls     : t.tape.cls = v.tape.cls
  behind  : ∀ f, v.link.line = some f → t.link.line = some f ∧
    t.link.replies = v.link.replies ++ [replyFrame .deckReset { status := .accepted }]
  atOnce  : v.link.line = none → v.link.replies = [] → t.link.replies = []
  replied : Replied .deckReset { status := .accepted } t
  keeps   : KeepsBut [.transport, .estimate, .tuner, .tunerOf, .sending] v t

theorem reset_ended (b q : State) (hp : NoPrograms (redirected q)) (hn : NotStopping (redirected q))
    (hb : (redirected q).power.state ≠ .backup) :
    ResetEnded (redirected q) (answered .deckReset { status := .accepted } (settleUnits b (endResetAtRest (resetTransport q)))) := by
  obtain ⟨v, hv⟩ : ∃ v, v = redirected q := ⟨_, rfl⟩
  obtain ⟨w, hw⟩ : ∃ w, w = noteChange v.transport (clearCause v) := ⟨_, rfl⟩
  rw [resetTransport_eq, ← hv, ← hw]
  rw [← hv] at hp hn hb
  have noted := noteChange_keeps v.transport (clearCause v)
  rw [← hw] at noted
  have cleared : KeepsBut [.transport, .sending] v w :=
    ((withTransport_keeps _ v).mono (by simp)).trans (noted.mono (by simp))
  obtain ⟨rested, r, hr⟩ := endResetAtRest_keeps (hp.of cleared.sched)
  have ended : KeepsBut [.transport, .tuner, .tunerOf, .sending] v (endResetAtRest w) := (cleared.mono (by simp)).trans rested
  obtain ⟨settled, cls⟩ := settleUnits_keeps_idle b (hp.of ended.sched) (hn.of ended.power)
  have all : KeepsBut [.transport, .estimate, .tuner, .tunerOf, .sending] v (settleUnits b (endResetAtRest w)) :=
    (ended.mono (by simp)).trans (settled.mono (by simp))
  have told : Kept v (settleUnits b (endResetAtRest w)) := by
    have note := kept_noteChange v.transport (clearCause v)
    rw [← hw] at note
    exact Kept.after (kept_settleUnits _ _) (Kept.after (kept_endResetAtRest w) (Kept.after note .same))
  obtain ⟨behind, atOnce⟩ := answered_replies .deckReset { status := .accepted } (s := settleUnits b (endResetAtRest w))
    (by rw [all.power]; exact hb)
  rw [told.line, told.replies] at behind atOnce
  exact
    { record := ⟨r, by rw [answered_transport, settled.transport, hr, noted.transport]; rfl⟩
      cls := by rw [answered_tape, cls, (ended.same .estimate (by decide)).1]
      behind := behind
      atOnce := atOnce
      replied := replied_answered ..
      keeps := all.trans ((answered_keeps ..).mono (by simp)) }

/-! ### What DECK_RESET empties and releases (R28, R87) -/

/-- The port is emptied and the reset sequence is in flight (R28). -/
def emptyPort (s : State) : State :=
  { s with
    link.input := [], link.replies := [], link.outbox := [], link.assembly := none, marks.passCount := 0
    transport.resetInFlight := true, transport.rewindDue := false }

/-- The port, the watch list, the tuner and the claim as the transport's reset finds them. -/
def quieted (s : State) : State :=
  let u := resetTuner (resetNavigation (abandonTimer .preempted (emptyPort s)))
  if u.mech = .protect .mech then u else setMech .free u

theorem deckResetRequest_eq (s : State) : (deckResetRequest s).1 = endResetAtRest (resetTransport (quieted s)) := by
  unfold deckResetRequest quieted emptyPort
  rfl

theorem resetNavigation_idle (h : NoNavigation s) : resetNavigation s = { s with nav.watches := List.replicate 8 none } := by
  simp [resetNavigation, h.goto, h.run]

theorem dropOperatorTuner_keeps (s : State) : KeepsBut [.tunerOf, .sending] s (dropOperatorTuner s) := by
  unfold dropOperatorTuner
  split
  · exact .refl _ _
  · exact setTunerClaim_keeps ..

theorem resetTuner_keeps (h : s.scan.state = .idle) : KeepsBut [.tuner, .tunerOf, .sending] s (resetTuner s) := by
  have cut : cutScan .stopped (some .deckReset) s = s := by simp [cutScan, Scan.inFlight, h]
  have dropped := (dropOperatorTuner_keeps s).mono (m := [.tuner, .tunerOf, .sending]) (by simp)
  simp only [resetTuner, cut]
  split
  · exact dropped.trans ((retune_keeps _).mono (by simp))
  · exact dropped

theorem kept_resetTuner (h : s.scan.state = .idle) : Kept s (resetTuner s) := by
  have cut : cutScan .stopped (some .deckReset) s = s := by simp [cutScan, Scan.inFlight, h]
  simp only [resetTuner, cut]
  split
  · exact (kept_dropOperatorTuner s).trans (kept_retune _)
  · exact kept_dropOperatorTuner s

/-- DECK_RESET with neither program, navigation nor scan has emptied the port and released the claims. -/
structure Quieted (s q : State) : Prop where
  record   : q.transport = { s.transport with resetInFlight := true, rewindDue := false }
  mech     : q.mech = if s.mech = .protect .mech then .protect .mech else .free
  watches  : q.nav.watches = List.replicate 8 none
  goto     : q.nav.goto = s.nav.goto
  run      : q.nav.run = s.nav.run
  input    : q.link.input = []
  assembly : q.link.assembly = none
  replies  : q.link.replies = []
  line     : q.link.line = s.link.line
  keeps    : KeepsBut [.transport, .nav, .tuner, .tunerOf, .mech, .reception, .sending] s q

theorem emptyPort_keeps (s : State) : KeepsBut [.transport, .reception, .sending] s (emptyPort s) := by
  refine ⟨fun p hp => ?_⟩
  cases p <;> simp_all [SamePart, emptyPort]

theorem watchesEmptied_keeps (s : State) : KeepsBut [.nav, .sending] s { s with nav.watches := List.replicate 8 none } := by
  refine ⟨fun p hp => ?_⟩
  cases p <;> simp_all [SamePart]

theorem quieted_of_idle (hp : NoPrograms s) (hn : NoNavigation s) (hi : s.scan.state = .idle) : Quieted s (quieted s) := by
  obtain ⟨p, hpt⟩ : ∃ p : State, p = { emptyPort s with nav.watches := List.replicate 8 none } := ⟨_, rfl⟩
  obtain ⟨u, hu⟩ : ∃ u, u = resetTuner p := ⟨_, rfl⟩
  have emptied : resetTuner (resetNavigation (abandonTimer .preempted (emptyPort s))) = u := by
    rw [abandonTimer_idle (hp.of (emptyPort_keeps s).sched), resetNavigation_idle (s := emptyPort s) hn.of, hu, hpt]
  have port : KeepsBut [.transport, .nav, .reception, .sending] s p := by
    rw [hpt]
    exact ((emptyPort_keeps s).mono (by simp)).trans ((watchesEmptied_keeps _).mono (by simp))
  have idle : p.scan.state = .idle := by rw [port.scan, hi]
  have tuned := resetTuner_keeps idle
  have told := kept_resetTuner idle
  rw [← hu] at tuned told
  have claims : quieted s = if u.mech = .protect .mech then u else setMech .free u := by
    simp only [quieted, emptied]
  have mech : u.mech = s.mech := by rw [tuned.mech, port.mech]
  have released : KeepsBut [.mech] u (quieted s) := by
    rw [claims]
    split
    · exact .refl _ _
    · exact setMech_keeps ..
  have sent : Kept u (quieted s) := by
    rw [claims]
    split
    · exact .refl _
    · exact kept_setMech ..
  have all : KeepsBut [.tuner, .tunerOf, .mech, .sending] p (quieted s) := (tuned.mono (by simp)).trans (released.mono (by simp))
  obtain ⟨-, -, input, -, -, assembly⟩ := all.same .reception (by decide)
  exact
    { record := by rw [all.transport, hpt]; rfl
      mech := by
        rw [claims, mech]
        split
        · next h => rw [mech, h]
        · rfl
      watches := all.watches_none (by rw [hpt])
      goto := by rw [all.goto, hpt]; rfl
      run := by rw [all.run, hpt]; rfl
      input := by rw [input, hpt]; rfl
      assembly := by rw [assembly, hpt]; rfl
      replies := by rw [(told.trans sent).replies, hpt]; rfl
      line := by rw [(told.trans sent).line, hpt]; rfl
      keeps := (port.mono (by simp)).trans (all.mono (by simp)) }

/-! ### Toward STOP (R28) -/

/-- In STOP, settled, the target STOP is reached as it is given (R4). -/
theorem setTarget_rests (hs : s.transport.mode = .stop) (hc : s.transport.change = none) (c : Option StopCause) :
    (setTarget .stop c s).transport = { s.transport with target := none, stopCause := c } ∧
      KeepsBut [.transport, .sending] s (setTarget .stop c s) := by
  obtain ⟨v, hv⟩ : ∃ v : State, v = { s with transport := { s.transport with target := none, stopCause := c } } := ⟨_, rfl⟩
  have path : choosePath (aimed .stop c s) = v := by rw [hv]; simp [choosePath, aimed, hs]
  have given : setTarget .stop c s = noteChange s.transport v := by
    rw [setTarget_path (by simp [hs]) (by simp [hs]) (by simp [hs]) (mechInFlight_of_none hc)
      (by simp [State.wouldDrop, State.recordForbidden]), path]
  have noted := noteChange_keeps s.transport v
  have turned : KeepsBut [.transport] s v := hv ▸ withTransport_keeps _ s
  rw [given]
  exact ⟨by rw [noted.transport, hv], (turned.mono (by simp)).trans (noted.mono (by simp))⟩

theorem redirected_of_rest (hf : q.transport.mode ≠ .fault) (hr : q.transport.recovering = false) :
    redirected q = setTarget .stop none q := by
  simp only [redirected, hf, hr, if_false, Bool.false_eq_true]

/-- The path to STOP has begun from a deck at rest or in a threaded mode. -/
structure Turned (q v : State) : Prop where
  rests     : q.transport.mode = .stop → v.transport.mode = .stop ∧ v.transport.change = none ∧ v.transport.target = none
  unthreads : q.transport.mode.threaded → v.transport.mode = .unthreading ∧ v.transport.change = some (.mech .unthreading) ∧
    v.transport.target = some .stop
  speeds    : v.transport.recordSpeed = q.transport.recordSpeed ∧ v.transport.playSpeed = q.transport.playSpeed
  tab       : v.transport.recordTab = q.transport.recordTab
  counter   : v.tape.counter = q.tape.counter ∧ v.tape.quality = q.tape.quality
  told      : Kept q v
  keeps     : KeepsBut stillParts q v

theorem turned_of_rest (hm : q.transport.mode = .stop ∨ q.transport.mode.threaded) (hc : q.transport.change = none)
    (hr : q.transport.recovering = false) : Turned q (redirected q) := by
  have told := kept_setTarget .stop none q
  have keeps := setTarget_still .stop none q
  rcases hm with hm | hm
  · obtain ⟨record, kept⟩ := setTarget_rests hm hc none
    obtain ⟨counter, quality, -⟩ := kept.same .counter (by decide)
    rw [redirected_of_rest (by simp [hm]) hr]
    refine ⟨fun _ => by simp [record, hm, hc], fun h => ?_, by simp [record], by simp [record], ⟨counter, quality⟩, told, keeps⟩
    rw [hm] at h
    cases h
  · have threaded : Threaded q := ⟨hm, mechInFlight_of_none hc⟩
    have path := setTarget_unthreads threaded (m := .stop) (.inl rfl) none
    have record := beginUnthreading_transport .plain (aimed .stop none q)
    have tape := beginUnthreading_tape .plain (aimed .stop none q)
    rw [← path] at record tape
    obtain ⟨-, -, fault, stop, -⟩ := threaded.rests
    rw [redirected_of_rest fault hr]
    exact ⟨fun h => absurd h stop, fun _ => by rw [record]; exact ⟨rfl, rfl, rfl⟩,
      by rw [record]; exact ⟨rfl, rfl⟩, by rw [record]; rfl, by rw [tape]; exact ⟨rfl, rfl⟩, told, keeps⟩

/-- The event of a DECK_RESET is the reset's path and its end. -/
theorem deckReset_ended {l : List Part} (hs : PortReady s) (hn : NotStopping s) (hp : NoPrograms s)
    (k : KeepsBut l s (redirected (quieted s))) (hl : .sched ∉ l ∧ .power ∉ l) :
    ∃ t, exec .deckReset s = .next t ∧ ResetEnded (redirected (quieted s)) t := by
  have power := k.power hl.2
  refine ⟨_, exec_deckReset hs, ?_⟩
  rw [deckResetRequest_eq]
  exact reset_ended s (quieted s) (hp.of (k.sched hl.1)) (hn.of power) (power ▸ hs.runs)

/-- What DECK_RESET may change of a deck that it works toward STOP. -/
def resetParts : List Part := [.transport, .counter, .estimate, .marks, .nav, .tuner, .tunerOf, .mech, .reception, .sending]

/-! ### Recovery (R13) -/

theorem recover_reset (s : State) :
    (s.pins.position = .threaded ∨ s.pins.position = .betweenLoadedAndThreaded →
      recover false s = beginMech .unthreading { recoveringTo .stop s with transport.unthreadEnd := .plain }) ∧
    (s.pins.position = .betweenOutAndLoaded ∨ (s.pins.position = .out ∧ s.pins.cassetteIn) →
      recover false s = beginMech .loading { recoveringTo .stop s with transport.cassettePresent := true }) ∧
    (s.pins.position = .loaded → recover false s = enterStop { s with transport.recovering := true }) ∧
    (s.pins.position = .out → s.pins.cassetteIn = false → recover false s = enterEmpty { s with transport.recovering := true }) := by
  refine ⟨fun h => ?_, fun h => ?_, fun h => ?_, fun h hc => ?_⟩
  · rcases h with h | h <;> simp only [recover, h] <;> rfl
  · rcases h with h | ⟨h, hc⟩
    · simp only [recover, h]
      rfl
    · simp only [recover, h, hc, Bool.not_false, Bool.and_self, if_true]
      rfl
  · simp [recover, h]
  · simp [recover, h, hc]

/-- A recovery is under way by a mechanical step, under the PROTECT claim (R13). -/
structure RecoveringBy (step : MechStep) (q v : State) : Prop where
  mode   : v.transport.mode = step.mode
  change : v.transport.change = some (.mech step)
  start  : v.transport.stepStart = q.now
  target : v.transport.target = some .stop
  on     : v.transport.recovering
  cause  : v.transport.faultCause = q.transport.faultCause
  mech   : v.mech = q.mech

/-- A recovery has succeeded in a mode (R13). -/
structure RecoveredIn (m : Mode) (v : State) : Prop where
  mode    : v.transport.mode = m
  change  : v.transport.change = none
  target  : v.transport.target = none
  resumed : v.transport.recovering = false
  cause   : v.transport.faultCause = none
  mech    : v.mech = .free

/-- The end of the event leaves a recovery under way. -/
theorem RecoveringBy.ended {step : MechStep} (h : RecoveringBy step q v) (e : ResetEnded v t) : RecoveringBy step q t := by
  obtain ⟨mode, change, start, target, on, cause, mech⟩ := h
  obtain ⟨r, deck⟩ := e.record
  refine ⟨?_, ?_, ?_, ?_, ?_, ?_, e.keeps.mech.trans mech⟩ <;> rw [deck] <;> assumption

/-- The end of the event leaves a recovery succeeded. -/
theorem RecoveredIn.ended {m : Mode} (h : RecoveredIn m v) (e : ResetEnded v t) : RecoveredIn m t := by
  obtain ⟨mode, change, target, resumed, cause, mech⟩ := h
  obtain ⟨r, deck⟩ := e.record
  refine ⟨?_, ?_, ?_, ?_, ?_, e.keeps.mech.trans mech⟩ <;> rw [deck] <;> assumption

theorem recovering_steps {step : MechStep} (h : step.mode ≠ .stop) (q u : State) (ht : u.transport.target = some .stop)
    (hr : u.transport.recovering = true) (hc : u.transport.faultCause = q.transport.faultCause) (k : KeepsBut [.transport] q u) :
    RecoveringBy step q (beginMech step u) ∧ KeepsBut stillParts q (beginMech step u) := by
  have record := beginMech_transport step u
  have still := beginMech_still step u
  refine ⟨⟨by rw [record]; rfl, by rw [record]; rfl, by rw [record]; exact (k.same .time (by decide)).1, ?_, by rw [record]; exact hr,
    by rw [record]; exact hc, by rw [still.mech, k.mech]⟩, (k.mono (by simp [stillParts])).trans still⟩
  rw [record, ← ht]
  exact if_neg fun e => h (Option.some.inj (e.symm.trans ht))

/-- The entry to STOP under the PROTECT claim, whatever the target asks for, with no rewind due. -/
theorem enterStop_keeps (hp : NoPrograms s) (hn : NoNavigation s) (hm : s.mech.isProtect = true) (hw : s.transport.rewindDue = false) :
    KeepsBut (.mech :: stillParts) s (enterStop s) := by
  by_cases ht : s.transport.target = none ∨ s.transport.target = some .stop
  · have ended : KeepsBut (.mech :: stillParts) s (endRecovery s) := (withTransport_keeps _ s).mono (by simp [stillParts])
    rw [enterStop_idle hp hn ht hw (.inr hm)]
    exact ended.trans (((atRest_keeps _).mono fun _ h => .tail _ h).trans ((setMech_keeps ..).mono (by simp)))
  · obtain ⟨m, hm⟩ := Option.ne_none_iff_exists'.mp fun e => ht (.inl e)
    rw [enterStop_of_target hm fun e => ht (.inr (hm.trans (congrArg some e)))]
    exact ((atRest_keeps s).trans (choosePath_still _)).mono fun _ h => .tail _ h

/-- The out position without a cassette ends a recovery in EMPTY. -/
theorem recovered_out (hp : NoPrograms q) (hn : NoNavigation q) (hm : q.mech.isProtect = true) :
    RecoveredIn .empty (enterEmpty { q with transport.recovering := true }) ∧
      (enterEmpty { q with transport.recovering := true }).transport.cassettePresent = false ∧
      (enterEmpty { q with transport.recovering := true }).tape.cls = none ∧
      (enterEmpty { q with transport.recovering := true }).tape.counter = 0 ∧
      (enterEmpty { q with transport.recovering := true }).nav.watches = List.replicate 8 none ∧
      KeepsBut emptyParts q (enterEmpty { q with transport.recovering := true }) := by
  obtain ⟨u, hu⟩ : ∃ u : State, u = { q with transport.recovering := true } := ⟨_, rfl⟩
  have start : KeepsBut emptyParts q u := hu ▸ (withTransport_keeps _ q).mono (by simp [emptyParts])
  have record := emptyDeck_transport u
  have tape := emptyDeck_tape u
  rw [← hu, enterEmpty_idle (hp.of start.sched) (hn.of (by rw [hu])) (.inr (by rw [hu]; exact hm))]
  exact ⟨by constructor <;> simp [record, Transport.reached, Transport.emptied], by rw [setMech_transport, record]; rfl,
    by rw [setMech_tape, tape], by rw [setMech_tape, tape], rfl,
    start.trans ((emptyDeck_keeps u).trans ((setMech_keeps ..).mono (by simp [emptyParts])))⟩

/-- The loaded position with no target left ends a recovery in STOP. -/
theorem recovered_loaded (hp : NoPrograms q) (hn : NoNavigation q) (hm : q.mech.isProtect = true) (hw : q.transport.rewindDue = false)
    (ht : q.transport.target = none) : RecoveredIn .stop (enterStop { q with transport.recovering := true }) := by
  obtain ⟨u, hu⟩ : ∃ u : State, u = endRecovery { q with transport.recovering := true } := ⟨_, rfl⟩
  have rest := enterStop_idle (s := { q with transport.recovering := true }) hp.of hn.of (.inl ht) hw (.inr hm)
  have record : u.transport = { q.transport with recovering := false, faultCause := none } := by rw [hu]; rfl
  have entered := enterMode_transport .stop none u
  rw [rest, ← hu]
  constructor <;> simp [forgetRewind, entered, record, Transport.reached, ht]

/-- A recovery that DECK_RESET asks for, by the mechanism's position (R13). -/
structure RecoveryRun (q v : State) : Prop where
  unthreads : q.pins.position = .threaded ∨ q.pins.position = .betweenLoadedAndThreaded → RecoveringBy .unthreading q v
  loads     : q.pins.position = .betweenOutAndLoaded ∨ (q.pins.position = .out ∧ q.pins.cassetteIn) → RecoveringBy .loading q v
  loaded    : q.pins.position = .loaded → q.transport.target = none → RecoveredIn .stop v
  out       : q.pins.position = .out → q.pins.cassetteIn = false →
    RecoveredIn .empty v ∧ v.transport.cassettePresent = false ∧ v.tape.cls = none ∧ v.tape.counter = 0
  watches   : q.nav.watches = List.replicate 8 none → v.nav.watches = List.replicate 8 none
  keeps     : KeepsBut emptyParts q v

theorem recovery_run (hp : NoPrograms q) (hn : NoNavigation q) (hm : q.mech.isProtect = true) (hw : q.transport.rewindDue = false) :
    RecoveryRun q (recover false q) := by
  obtain ⟨unthreads, loads, loaded, out⟩ := recover_reset q
  have turned : ∀ r, KeepsBut [.transport] q { q with transport := r } := fun r => withTransport_keeps r q
  have unthreading := recovering_steps (step := .unthreading) (by decide) q
    { recoveringTo .stop q with transport.unthreadEnd := .plain } rfl rfl rfl (turned _)
  have loading := recovering_steps (step := .loading) (by decide) q
    { recoveringTo .stop q with transport.cassettePresent := true } rfl rfl rfl (turned _)
  have kept : (q.nav.watches = List.replicate 8 none → (recover false q).nav.watches = List.replicate 8 none) ∧
      KeepsBut emptyParts q (recover false q) := by
    have still : ∀ {v}, KeepsBut (.mech :: stillParts) q v →
        (q.nav.watches = List.replicate 8 none → v.nav.watches = List.replicate 8 none) ∧ KeepsBut emptyParts q v :=
      fun k => ⟨fun h => k.watches_none h, k.mono (by simp [stillParts, emptyParts])⟩
    cases hpos : q.pins.position with
    | threaded => exact unthreads (.inl hpos) ▸ still (unthreading.2.mono fun _ h => .tail _ h)
    | betweenLoadedAndThreaded => exact unthreads (.inr hpos) ▸ still (unthreading.2.mono fun _ h => .tail _ h)
    | betweenOutAndLoaded => exact loads (.inl hpos) ▸ still (loading.2.mono fun _ h => .tail _ h)
    | loaded =>
      exact loaded hpos ▸ still (((turned _).mono (by simp [stillParts])).trans
        (enterStop_keeps (s := { q with transport.recovering := true }) hp.of hn.of hm hw))
    | out =>
      cases hin : q.pins.cassetteIn with
      | true => exact loads (.inr ⟨hpos, hin⟩) ▸ still (loading.2.mono fun _ h => .tail _ h)
      | false =>
        obtain ⟨-, -, -, -, watches, keeps⟩ := recovered_out hp hn hm
        exact out hpos hin ▸ ⟨fun _ => watches, keeps⟩
  refine ⟨fun h => unthreads h ▸ unthreading.1, fun h => loads h ▸ loading.1,
    fun h ht => loaded h ▸ recovered_loaded hp hn hm hw ht, fun h hc => ?_, kept.1, kept.2⟩
  obtain ⟨rested, cassette, cls, counter, -, -⟩ := recovered_out hp hn hm
  exact out h hc ▸ ⟨rested, cassette, cls, counter⟩

/-! ### The statement -/

/-- Settles O17: the request empties the port before it looks at anything; its path and the recovery begin from the emptied deck, and the
end of the event adds nothing to them. -/
theorem deckResetQuiets : Obligations.DeckResetQuiets := by
  intro s
  refine ⟨fun hs replies outbox assembly hr => deckReset_arrives hs outbox assembly hr,
    fun hb f hl hf hr rest hi => deckReset_queued hb hl hf hr hi, fun hs hn hp hv hi hc => ?_⟩
  have hq := quieted_of_idle hp hv hi
  have emptied := hq.keeps
  have record := hq.record
  have mech := hq.mech
  refine ⟨fun hd ht hr hm => ?_, fun hf hm => ?_⟩
  · have turned : Turned (quieted s) (redirected (quieted s)) := turned_of_rest (by rwa [record]) (by rwa [record]) (by rwa [record])
    obtain ⟨rests, unthreads, ⟨recordSpeed, playSpeed⟩, tab, ⟨counter, quality⟩, told, keeps⟩ := turned
    have begun : KeepsBut resetParts s (redirected (quieted s)) :=
      (emptied.mono (by simp [resetParts])).trans (keeps.mono (by simp [stillParts, resetParts]))
    obtain ⟨t, exec_t, ended⟩ := deckReset_ended hs hn hp begun (by decide)
    obtain ⟨r, deck⟩ := ended.record
    have behind := ended.behind
    have atOnce := ended.atOnce
    rw [told.line, told.replies, hq.line, hq.replies] at behind atOnce
    obtain ⟨-, -, input, -, -, assembly⟩ := keeps.same .reception (by decide)
    obtain ⟨-, -, input', -, -, assembly'⟩ := ended.keeps.same .reception (by decide)
    obtain ⟨counter', quality', -⟩ := ended.keeps.same .counter (by decide)
    obtain ⟨counter₀, quality₀, -⟩ := emptied.same .counter (by decide)
    have free : s.mech ≠ .protect .mech := by rcases hd with h | h <;> simp [h]
    rw [record] at rests unthreads recordSpeed playSpeed tab
    refine ⟨t, exec_t, ended.replied, ?_⟩
    rw [deck]
    exact ⟨by rw [ended.keeps.mech, keeps.mech, mech, if_neg free], (input'.trans input).trans hq.input,
      (assembly'.trans assembly).trans hq.assembly, rfl, ended.keeps.watches_none (keeps.watches_none hq.watches), behind,
      fun h => atOnce h rfl, rests, unthreads, recordSpeed, playSpeed, tab,
      by rw [counter', counter, counter₀], by rw [quality', quality, quality₀],
      begun.trans (ended.keeps.mono (by decide))⟩
  · have run : RecoveryRun (quieted s) (redirected (quieted s)) := by
      have path : redirected (quieted s) = recover false (quieted s) := if_pos (by rw [record]; exact hf)
      rw [path]
      exact recovery_run (hp.of emptied.sched) ⟨hq.goto ▸ hv.goto, hq.run ▸ hv.run⟩ (by rw [mech, if_pos hm]; rfl) (by rw [record])
    obtain ⟨unthreads, loads, loaded, out, watches, keeps⟩ := run
    have begun : KeepsBut (.reels :: resetParts) s (redirected (quieted s)) :=
      (emptied.mono (by decide)).trans (keeps.mono (by decide))
    obtain ⟨t, exec_t, ended⟩ := deckReset_ended hs hn hp begun (by decide)
    obtain ⟨r, deck⟩ := ended.record
    have under : ∀ {step}, RecoveringBy step (quieted s) (redirected (quieted s)) →
        t.transport.mode = step.mode ∧ t.transport.change = some (.mech step) ∧ t.transport.stepStart = s.now ∧
          t.transport.target = some .stop ∧ t.transport.recovering ∧ t.transport.faultCause = s.transport.faultCause ∧
          t.mech = .protect .mech := fun h => by
      have h := h.ended ended
      exact ⟨h.mode, h.change, h.start.trans (emptied.same .time (by decide)).1, h.target, h.on, h.cause.trans (by rw [record]),
        h.mech.trans (by rw [mech, if_pos hm])⟩
    have rested : ∀ {m}, RecoveredIn m (redirected (quieted s)) →
        t.transport.mode = m ∧ t.transport.change = none ∧ t.transport.target = none ∧ t.transport.recovering = false ∧
          t.transport.faultCause = none ∧ t.mech = .free := fun h => by
      have h := h.ended ended
      exact ⟨h.mode, h.change, h.target, h.resumed, h.cause, h.mech⟩
    rw [emptied.pins] at unthreads loads loaded out
    rw [record] at loaded
    refine ⟨t, exec_t, ended.replied, by rw [deck], ended.keeps.watches_none (watches hq.watches),
      ⟨fun h => under (unthreads h), fun h => under (loads h), fun h ht => rested (loaded h ht), fun h hin => ?_⟩,
      begun.trans (ended.keeps.mono (by decide)) |>.mono (by decide)⟩
    obtain ⟨empty, cassette, cls, counter⟩ := out h hin
    exact ⟨rested empty, by rw [deck]; exact cassette, ended.cls.trans cls, (ended.keeps.same .counter (by decide)).1.trans counter⟩

end Sys2Proof.Machine
end

section
/-! What the events of the deck keep (`Kept`): one lemma for each meaning that changes a unit, in the order of the model's files. -/

namespace Sys2Proof.Machine

set_option Elab.async false

/-! ### The clock (R124 to R131) -/

theorem kept_setTime {t : Nat} (h : t < Config.calendarSeconds) (s : State) : Kept s { s with clock.time := t } :=
  .ofUnits fun u => { u with time := h }

/-- A second counted in BACKUP changes the time alone; otherwise the scheduler acts on it (R124, R126, R135). -/
theorem kept_secondBoundary (s : State) : Kept s (secondBoundary s) := by
  by_cases backup : s.power.state = .backup
  · simp only [secondBoundary, backup, beq_self_eq_true, if_true]
    split
    · exact kept_setTime (by decide) s
    · next inside => exact (kept_setTime (Nat.lt_of_not_le inside) s).trans (by simpa using .refl _)
  · have running : (s.power.state == .backup) = false := by simpa using backup
    have counted := kept_countSecond s
    simp only [secondBoundary, running, Bool.false_eq_true, if_false]
    generalize countSecond s = u at counted ⊢
    split
    · exact counted.trans ((kept_setTime (by decide) u).trans ((kept_postClock _).trans (kept_clockJump ..)))
    · next inside =>
      have moved := counted.trans (kept_setTime (Nat.lt_of_not_le inside) u)
      split
      · exact moved.trans (kept_minuteEvent _)
      · exact moved

theorem kept_sinceBoundary (n : Nat) (s : State) : Kept s { s with clock.sinceBoundary := n } := .same

theorem kept_crystalBoundary (s : State) : Kept s (crystalBoundary s) := (kept_sinceBoundary _ s).trans (kept_secondBoundary _)

theorem kept_mainsBoundary (s : State) : Kept s (mainsBoundary s) := Kept.after (kept_secondBoundary _) .same

theorem kept_recomputeSource (s : State) : Kept s (recomputeSource s) := by
  simp only [recomputeSource]
  split
  · exact .refl s
  · split
    · split
      · exact Kept.after (kept_crystalBoundary _) .same
      · exact .same
    · exact .same

theorem kept_closeWindow (s : State) : Kept s (closeWindow s) := by
  have source : Kept s (recomputeSource { s with clock := { s.clock with
      reading := nextReading s.clock.reading (windowClass s.clock.windowCount) s.clock.previous
      previous := some (windowClass s.clock.windowCount), windowCount := 0, windowStart := some s.now } }) :=
    Kept.after (kept_recomputeSource _) .same
  simp only [closeWindow]
  split
  · exact source
  · exact source.trans (kept_postClock _)

theorem kept_cycleCounted (s : State) : Kept s (cycleCounted s) := by
  simp only [cycleCounted]
  split
  · exact .same
  · split
    · exact Kept.after (kept_mainsBoundary _) .same
    · exact .same

theorem kept_beginQualification (s : State) : Kept s (beginQualification s) := by
  unfold beginQualification
  split
  · exact .same
  · exact .refl s

theorem kept_cyclesPassed (last count : Nat) (s : State) :
    Kept s { s with power.lastCycle := last, clock.windowCount := count } := .same

theorem kept_secondCompleted (s : State) : Kept s (secondCompleted s) := by
  unfold secondCompleted
  split
  · exact (kept_elapse ..).trans (kept_crystalBoundary _)
  · exact (kept_elapse _ s).trans ((kept_cyclesPassed _ _ _).trans (kept_mainsBoundary _))

/-! ### The mechanism (R8 to R12, R26, R27) -/

theorem kept_enterLoaded (s : State) : Kept s (enterLoaded s) := by
  simp only [enterLoaded]
  refine Kept.after (kept_programAtLoad _) (Kept.after (kept_atStop _) (Kept.after (kept_cassetteLoad _)
    (Kept.after (kept_enterMode ..) ?_)))
  exact (kept_endRecoveryIf _ s).trans .same

theorem kept_threadBack (s : State) : Kept s (threadBack s) := Kept.after (kept_beginUnthreading ..) .same

theorem kept_enterThreaded (s : State) : Kept s (enterThreaded s) := by
  unfold enterThreaded
  split
  · exact kept_threadBack s
  · exact kept_threadBack s
  · exact kept_threadBack s
  · split
    · exact (kept_dropTarget s).trans (kept_threadBack _)
    · exact kept_beginServo ..

theorem kept_enterUnthreaded (s : State) : Kept s (enterUnthreaded s) := by
  unfold enterUnthreaded
  split
  · exact kept_enterStop s
  · exact Kept.after (kept_enterStop _) .same
  · exact Kept.after (kept_enterLoaded _) .same

theorem kept_beginRestoreUnthreading (e : UnthreadEnd) (s : State) : Kept s (beginRestoreUnthreading e s) :=
  Kept.after (kept_beginUnthreading ..) .same

theorem kept_coldMechanism (w : Switches) (s : State) : Kept s (coldMechanism w s) := by
  have loading := (kept_beginLoading s).trans (kept_startReels .collecting _)
  unfold coldMechanism
  split
  · exact (kept_beginRestoreUnthreading ..).trans (kept_startReels ..)
  · exact loading
  · exact loading
  · exact loading
  · split
    · exact loading
    · exact kept_startReels ..

theorem kept_restoreMechanism (threaded cassette : Bool) (w : Switches) (s : State) :
    Kept s (restoreMechanism threaded cassette w s) := by
  have present : ∀ tab, Kept s { withCassette s with transport.recordTab := tab } := fun _ => .same
  have outside : Kept s (if w.cassetteIn && !cassette then startReels .collecting (beginLoading s)
      else if cassette then enterEmpty (startReels .stalled s) else enterMode .empty none (startReels .stalled s)) := by
    split
    · exact (kept_beginLoading s).trans (kept_startReels ..)
    · split
      · exact (kept_startReels ..).trans (kept_enterEmpty _)
      · exact (kept_startReels ..).trans (kept_enterMode ..)
  unfold restoreMechanism
  split
  · exact (kept_beginRestoreUnthreading ..).trans (kept_startReels ..)
  · split
    · exact (present _).trans ((kept_enterMode ..).trans (kept_startReels ..))
    · exact Kept.after (kept_startReels ..) (Kept.after (kept_beginEjecting _) .same)
    all_goals exact outside

/-! ### The servo, dew, the leaders (R14 to R24) -/

theorem kept_leaderAtMode (w : Leaders) (s : State) : Kept s (leaderAtMode w s) := by
  unfold leaderAtMode
  repeat' split
  all_goals first
    | exact kept_protectionStop ..
    | exact .refl s

theorem kept_unitsAtMode (m : Mode) (s : State) : Kept s (unitsAtMode m s) := by
  simp only [unitsAtMode]
  split
  · exact (kept_gotoAtMode s).trans (kept_programAtRecPause _)
  · exact (kept_gotoAtMode s).trans (kept_programAtRecord _)
  · exact kept_gotoAtMode s

theorem kept_regainLock (s : State) : Kept s (regainLock s) := .same

theorem kept_loseLock (s : State) : Kept s (loseLock s) := by
  unfold loseLock
  split
  · exact .same
  · exact .refl s

theorem kept_changePlaySpeed (v : Speed) (s : State) : Kept s (changePlaySpeed v s) :=
  Kept.after (kept_postMode _) (Kept.after (kept_emptyLists ..) .same)

theorem kept_closeDetection (s : State) : Kept s (closeDetection s) := by
  unfold closeDetection
  split
  · exact .refl s
  · dsimp only
    split
    · split
      · exact .same
      · exact Kept.after (kept_changePlaySpeed ..) .same
    · exact .same

theorem kept_setDew (s : State) : Kept s (setDew s) := by
  have flagged : Kept s (postMode { s with transport.dew := true }) := Kept.after (kept_postMode _) .same
  simp only [setDew]
  split
  · exact flagged.trans (kept_protectionStop ..)
  · exact flagged.trans (kept_programAtDew _)

theorem kept_dewReported (dew : Bool) (s : State) : Kept s (dewReported dew s) := by
  simp only [dewReported]
  split
  · split
    · exact .same
    · exact Kept.after (kept_setDew _) .same
  · split
    · exact .same
    · exact .refl s

theorem kept_clearDew (s : State) : Kept s (clearDew s) :=
  Kept.after (kept_programAtDry _) (Kept.after (kept_postMode _) .same)

theorem kept_leaderActed (l : Leader) (s : State) : Kept s (leaderActed l s) := by
  simp only [leaderActed]
  split
  · split
    · exact Kept.after (kept_protectionStop ..) .same
    · exact .same
  · exact .refl s

/-! ### The tape (R18, R19, R30 to R43, R51 to R58, R83) -/

theorem kept_countDetection (s : State) : Kept s (countDetection s) := by
  unfold countDetection
  split
  · exact .same
  · exact .refl s

theorem kept_recordRead (r : Option MarkRecord) (s : State) : Kept s (recordRead r s) := by
  cases r with
  | none => exact .refl s
  | some r => exact kept_recordPass r s

theorem kept_noteRead (r : Option MarkRecord) (s : State) : Kept s (noteRead r s) := by
  cases r with
  | none => exact .refl s
  | some r => exact kept_postMark r s

theorem kept_pulseRead (shape : Shape) (d : Direction) (s : State) : Kept s (pulseRead shape d s) :=
  ((kept_countDetection s).trans (kept_countPulse d _)).trans
    (Kept.after (kept_noteRead ..) (Kept.after (kept_navigate ..) (Kept.after (kept_recordRead ..) .same)))

theorem kept_advanceWriter (s : State) : Kept s (advanceWriter s) := by
  unfold advanceWriter
  split
  · exact .refl s
  · dsimp only
    split
    · exact .same
    · exact Kept.after (kept_postMark ..) (Kept.after (kept_recordPass ..) .same)

theorem kept_refreshed (s : State) : Kept s (refreshed s) := by
  simp only [refreshed]
  split
  · exact (kept_refreshIdentification s).trans ((kept_estimateComputation _).trans ((kept_evaluateRemain _).trans (kept_evaluateFit _)))
  · exact kept_refreshIdentification s

theorem kept_acceptPulse (r : Reel) (i : Nat) (s : State) : Kept s (acceptPulse r i s) := by
  have pulse : Kept s (driftByReel (pulseSeen r (s.withReel r ((s.reel r).accept i s.now)))) :=
    (kept_withReel ..).trans (Kept.after (kept_driftByReel _) .same)
  simp only [acceptPulse]
  split
  · exact pulse.trans (kept_refreshed _)
  · exact pulse

theorem kept_reelPulsed (r : Reel) (i : Nat) (s : State) : Kept s (reelPulsed r i s) := by
  simp only [reelPulsed]
  split
  · exact kept_leapTo ..
  · exact (kept_leapTo ..).trans (kept_acceptPulse ..)

theorem kept_stallReel (r : Reel) (s : State) : Kept s (stallReel r s) := kept_withReel ..

theorem kept_gapExpired (s : State) : Kept s (gapExpired s) :=
  Kept.after (kept_noteRead ..) (Kept.after (kept_navigate ..) (Kept.after (kept_recordRead ..) .same))

theorem kept_runLostTrack (s : State) : Kept s (runLostTrack s) :=
  (kept_closeRun ..).trans ((kept_giveRest _).trans (kept_passToDirect _))

/-! ### The tuner (R95, R100) -/

theorem kept_endSettling (s : State) : Kept s (endSettling s) := Kept.after (kept_lockTest _) .same

theorem kept_recheck (s : State) : Kept s (recheck s) := by
  simp only [recheck]
  split
  · exact Kept.after (kept_enterLocked _) .same
  · exact .same

end Sys2Proof.Machine
end

section
/-! What the owners' answers to the requests keep (`Kept`), but for SYSTEM_SET and DECK_RESET, and what these two may change besides: the
settings, and the port that DECK_RESET empties (`Served`). -/

namespace Sys2Proof.Machine

set_option Elab.async false

/-! ### The calendar (R124) -/

theorem monthDays_sum_le (year : Nat) (k : Nat) : ((monthDays year).take k).sum + (monthDays year).getD k 0 ≤ if leapYear year then 366 else 365 := by
  have short : ∀ b : Bool, ∀ k < 12,
      (([31, if b then 29 else 28, 31, 30, 31, 30, 31, 31, 30, 31, 30, 31] : List Nat).take k).sum +
        ([31, if b then 29 else 28, 31, 30, 31, 30, 31, 31, 30, 31, 30, 31] : List Nat).getD k 0 ≤ if b then 366 else 365 := by decide
  rcases Nat.lt_or_ge k 12 with h | h
  · exact short (leapYear year) k h
  · have length : (monthDays year).length = 12 := rfl
    rw [List.take_of_length_le (by omega), List.getD_eq_default _ _ (by omega)]
    cases hy : leapYear year <;> simp [monthDays, hy]

/-- A valid date lies in the calendar's 36,525 days. -/
theorem dayOfDate_lt {d : Date} (h : d.valid = true) : dayOfDate d < 36525 := by
  simp only [Date.valid, Bool.and_eq_true, decide_eq_true_eq] at h
  obtain ⟨⟨⟨⟨year, -⟩, -⟩, first⟩, last⟩ := h
  have days := monthDays_sum_le d.year (d.month - 1)
  simp only [leapYear, beq_iff_eq] at days
  simp only [dayOfDate]
  split at days <;> omega

/-- A time that CLOCK_SET takes lies in the calendar (R124, R133). -/
theorem secondsOf_lt {t : StampBytes} {n : Nat} (h : secondsOf t = some n) : n < Config.calendarSeconds := by
  simp only [secondsOf] at h
  split at h
  · next valid =>
    cases h
    simp only [Bool.and_eq_true, decide_eq_true_eq] at valid
    obtain ⟨⟨⟨date, hour⟩, minute⟩, second⟩ := valid
    have := dayOfDate_lt date
    simp only [Config.calendarSeconds]
    omega
  · cases h

/-! ### Power, clock and transport -/

theorem kept_powerRequest (target : Byte) (s : State) : Kept s (powerRequest target s).1 := by
  simp only [powerRequest, answer]
  split
  · exact kept_requestStandby ..
  · split
    · exact kept_requestOperate s
    · exact .refl s

theorem kept_setClock {c : Clock} (h : c.time < Config.calendarSeconds) (s : State) : Kept s { s with clock := c } :=
  .ofUnits fun u => { u with time := h }

theorem kept_clockSetRequest (t : StampBytes) (s : State) : Kept s (clockSetRequest t s).1 := by
  simp only [clockSetRequest, answer]
  split
  · exact .refl s
  · next time ht =>
    split
    · exact .refl s
    · dsimp only
      exact Kept.after (kept_clockJump ..) (Kept.after (kept_postClock _) (kept_setClock (secondsOf_lt ht) s))

theorem kept_clockSourceRequest (setting : Byte) (s : State) : Kept s (clockSourceRequest setting s).1 := by
  simp only [clockSourceRequest, answer]
  split
  · exact .refl s
  · split
    · exact .refl s
    · exact Kept.after (kept_postClock _) (Kept.after (kept_recomputeSource _) .same)

theorem kept_motionRequest (target : Byte) (s : State) : Kept s (motionRequest target s).1 := by
  have granted := kept_grantOperator .direct s
  have recording := granted.trans (kept_giveRecord .operator _)
  have moving := fun m => granted.trans (kept_giveTarget m _)
  simp only [motionRequest, answer]
  repeat' split
  all_goals first
    | exact .refl s
    | exact granted.trans (kept_releaseIfStill _)
    | exact recording
    | exact moving _

theorem kept_recSpeedRequest (speed : Byte) (s : State) : Kept s (recSpeedRequest speed s).1 := by
  simp only [recSpeedRequest, answer]
  split
  · exact .refl s
  · next v _ =>
    have chosen : Kept s (postMode { s with transport.recordSpeed := v }) := Kept.after (kept_postMode _) .same
    split
    · exact chosen.trans ((kept_postTape _).trans (kept_evaluateRemain _))
    · exact chosen

theorem kept_ejectRequest (s : State) : Kept s (ejectRequest s).1 := by
  unfold ejectRequest answer
  split
  · exact .refl s
  · exact .refl s
  · exact kept_recover true s
  · split
    · exact kept_turnRecovery true s
    · split
      · exact .refl s
      · exact (kept_grantOperator ..).trans (kept_giveTarget ..)

/-! ### Position and cue marks -/

theorem kept_counterZeroRequest (s : State) : Kept s (counterZeroRequest s).1 := by
  have zeroed : Kept s { s with tape.counter := 0, tape.quality := .exact } :=
    .ofUnits (fun u => { u with counter := Nat.zero_le _ }) (range := fun _ => Nat.zero_le _)
  unfold counterZeroRequest answer
  split
  · exact .refl s
  · split
    · exact .refl s
    · exact zeroed.trans (kept_postTape _)

theorem kept_declareClass (c : Option CassetteClass) (s : State) : Kept s (declareClass c s) :=
  Kept.after (kept_forgetSides _) .same

theorem kept_classSetRequest (cls : Byte) (s : State) : Kept s (classSetRequest cls s).1 := by
  simp only [classSetRequest, answer]
  split
  · exact .refl s
  · split
    · exact .refl s
    · split
      · exact Kept.after (kept_postTape _) .same
      · exact Kept.after (kept_postTape _) (Kept.after (kept_declareClass ..) .same)

theorem kept_markNowRequest (code : Byte) (s : State) : Kept s (markNowRequest code s).1 := by
  unfold markNowRequest answer
  repeat' split
  · exact .refl s
  · exact .refl s
  · exact kept_startMark ..

theorem kept_markListRequest (first : Byte) (s : State) : Kept s (markListRequest first s).1 := by
  unfold markListRequest
  split <;> exact .refl s

/-! ### Navigation -/

theorem kept_gotoRequest (form final : Byte) (target : Word24) (count direction present code mask : Byte) (s : State) :
    Kept s (gotoRequest form final target count direction present code mask s).1 := by
  unfold gotoRequest answer
  split
  · split
    · exact .refl s
    · exact (kept_grantOperator ..).trans (kept_startGoto ..)
  · exact .refl s

theorem kept_gotoCancelRequest (s : State) : Kept s (gotoCancelRequest s).1 := by
  unfold gotoCancelRequest answer
  split
  · exact kept_failGoto ..
  · exact .refl s

theorem kept_watchSetRequest (place kind : Byte) (value : Word24) (choice code mask action again setCount : Byte) (s : State) :
    Kept s (watchSetRequest place kind value choice code mask action again setCount s).1 := by
  simp only [watchSetRequest, answer]
  split
  · split
    · exact .refl s
    · split
      · exact .refl s
      · exact kept_withWatch ..
  · exact .refl s

theorem kept_watchClearRequest (place : Byte) (s : State) : Kept s (watchClearRequest place s).1 := by
  unfold watchClearRequest answer
  repeat' split
  · exact .refl s
  · exact kept_withWatch ..
  · exact .refl s

theorem kept_watchReadRequest (place : Byte) (s : State) : Kept s (watchReadRequest place s).1 := by
  unfold watchReadRequest
  split <;> exact .refl s

/-- The assembly buffer is the port's, but none of its lists (R207). -/
theorem kept_assembly (a : Option Assembly) (s : State) : Kept s { s with link.assembly := a } where
  input := rfl
  replies := rfl
  line := rfl
  outbox := id
  pins := rfl
  settings := rfl
  pending := rfl
  units u := { u with }
  range := id

theorem kept_loadRun (a : Byte) (l : List SegmentWord) (s : State) : Kept s (loadRun a l s).1 := by
  simp only [loadRun, answer]
  repeat' split
  · exact .refl s
  · exact .refl s
  · exact .refl s
  · exact .same
  · exact Kept.after (kept_postRun _) .same

theorem kept_runLoadRequest (a total first : Byte) (l : List SegmentWord) (s : State) :
    Kept s (runLoadRequest a total first l s).1 := by
  have cleared : Kept s (clearAssembly s) := kept_assembly ..
  simp only [runLoadRequest, answer]
  repeat' split
  all_goals first
    | exact cleared
    | exact cleared.trans (kept_loadRun ..)
    | exact kept_assembly ..

theorem kept_runStartRequest (s : State) : Kept s (runStartRequest s).1 := by
  simp only [runStartRequest, answer]
  repeat' split
  · exact .refl s
  · exact .refl s
  · exact .refl s
  · exact (kept_grantOperator ..).trans (Kept.after (kept_seekSegments ..) .same)

theorem kept_runStopRequest (s : State) : Kept s (runStopRequest s).1 := by
  simp only [runStopRequest, answer]
  split
  · exact (kept_closeGotoIf ..).trans ((kept_closeRun ..).trans ((kept_giveRest _).trans (kept_passToDirect _)))
  · exact .refl s

theorem kept_runReadRequest (first : Byte) (s : State) : Kept s (runReadRequest first s).1 := by
  simp only [runReadRequest]
  split <;> exact .refl s

/-! ### Tuner and scan -/

theorem kept_tuneRequest (form preset : Byte) (f : Word16) (s : State) : Kept s (tuneRequest form preset f s).1 := by
  unfold tuneRequest answer
  repeat' split
  all_goals first
    | exact .refl s
    | exact kept_setTunerClaim ..
    | exact (kept_cutScan ..).trans ((kept_setTunerClaim ..).trans (kept_beginTuning ..))

theorem kept_tunerReadRequest (s : State) : Kept s (tunerReadRequest s).1 := .same

theorem kept_presetWriteRequest (preset : Byte) (f : Word16) (fineTune flags labelLength : Byte) (chars : List Byte) (s : State) :
    Kept s (presetWriteRequest preset f fineTune flags labelLength chars s).1 := by
  simp only [presetWriteRequest, answer]
  split
  · exact .refl s
  · split
    · exact .refl s
    · exact kept_writePreset ..

theorem kept_presetReadRequest (preset : Byte) (s : State) : Kept s (presetReadRequest preset s).1 := by
  simp only [presetReadRequest]
  split <;> exact .refl s

theorem kept_presetClearRequest (preset : Byte) (s : State) : Kept s (presetClearRequest preset s).1 := by
  simp only [presetClearRequest, answer]
  repeat' split
  all_goals first
    | exact .refl s
    | exact kept_withPreset ..
    | exact (kept_withPreset ..).trans (Kept.after (kept_postTune _) .same)

theorem kept_scanStartRequest (form : Byte) (s : State) : Kept s (scanStartRequest form s).1 := by
  have begun : ∀ f l, l = [] ∨ l = s.scan.found → Kept s (setTunerClaim .scan (startScan f l s)) := fun f l h =>
    (kept_startScan f l s h).trans (kept_setTunerClaim ..)
  unfold scanStartRequest answer
  repeat' split
  all_goals first
    | exact .refl s
    | exact begun _ [] (.inl rfl)
    | exact begun _ _ (.inr rfl)

theorem kept_scanStopRequest (s : State) : Kept s (scanStopRequest s).1 := by
  unfold scanStopRequest answer
  split
  · exact kept_endScanToDirect ..
  · exact .refl s

theorem kept_scanReadRequest (first : Byte) (s : State) : Kept s (scanReadRequest first s).1 := by
  unfold scanReadRequest
  split <;> exact .refl s

theorem kept_scanAdoptRequest (first mode : Byte) (s : State) : Kept s (scanAdoptRequest first mode s).1 := by
  simp only [scanAdoptRequest, answer]
  repeat' split
  all_goals first
    | exact .refl s
    | exact kept_adopt ..

theorem kept_outputSelectRequest (setting : Byte) (s : State) : Kept s (outputSelectRequest setting s).1 := by
  unfold outputSelectRequest answer
  split
  · exact .refl s
  · exact Kept.after (kept_postTune _) .same

/-! ### Programs -/

theorem kept_placeProgram (n : Nat) (p : Program) (s : State) : Kept s (placeProgram n p s) := by
  unfold placeProgram
  repeat' split
  · exact (kept_withSlot ..).trans ((kept_postProg ..).trans (kept_cueUp _))
  · exact (kept_withSlot ..).trans ((kept_lateStart ..).trans (kept_rulesIfFree _))
  · exact (kept_withSlot ..).trans (kept_postProg ..)

theorem kept_progWriteRequest (slot : Byte) (f : ProgramFields) (s : State) : Kept s (progWriteRequest slot f s).1 := by
  simp only [progWriteRequest, answer]
  repeat' split
  all_goals first
    | exact .refl s
    | exact kept_placeProgram ..

theorem kept_progReadRequest (slot : Byte) (s : State) : Kept s (progReadRequest slot s).1 := by
  unfold progReadRequest
  split <;> exact .refl s

theorem kept_progClearRequest (slot : Byte) (s : State) : Kept s (progClearRequest slot s).1 := by
  unfold progClearRequest answer
  repeat' split
  · exact .refl s
  · exact .refl s
  · exact .refl s
  · exact (kept_withSlot ..).trans (kept_postProg ..)

theorem kept_abortActive (n : Nat) (s : State) : Kept s (abortActive n s) := by
  simp only [abortActive]
  split
  · exact (kept_finishActive ..).trans (kept_releaseTimer _)
  · exact (kept_finishActive ..).trans (Kept.after (kept_giveTarget ..) .same)

theorem kept_progAbortRequest (slot : Byte) (s : State) : Kept s (progAbortRequest slot s).1 := by
  unfold progAbortRequest answer
  repeat' split
  all_goals first
    | exact .refl s
    | exact (kept_abortActive ..).trans (kept_rulesIfFree _)
    | exact (kept_finishShort ..).trans (kept_rulesIfFree _)
    | exact (kept_finishSlot ..).trans (kept_rulesIfFree _)

theorem kept_progOrderRequest (part first : Byte) (s : State) : Kept s (progOrderRequest part first s).1 := by
  simp only [progOrderRequest]
  split <;> exact .refl s

/-! ### The two that change more -/

/-- From one state to another nothing has been added to the port's queue, replies and line, and the bounds are kept: the counter's range
as long as the frame system stands. -/
structure Served (s t : State) : Prop where
  input   : t.link.input.length ≤ s.link.input.length
  replies : t.link.replies.Sublist s.link.replies
  line    : t.link.line = s.link.line
  outbox  : OneNoteEach s.link → OneNoteEach t.link
  units   : UnitsSound s → UnitsSound t
  range   : t.settings.frameRate = s.settings.frameRate → CounterInRange s → CounterInRange t

variable {s t u : State}

theorem Kept.served (h : Kept s t) : Served s t :=
  ⟨h.input ▸ Nat.le_refl _, h.replies ▸ .refl _, h.line, h.outbox, h.units, fun _ => h.range⟩

theorem Served.trans_kept (h : Served s t) (k : Kept t u) : Served s u where
  input := k.input ▸ h.input
  replies := k.replies ▸ h.replies
  line := k.line.trans h.line
  outbox := k.outbox ∘ h.outbox
  units := k.units ∘ h.units
  range rate := k.range ∘ h.range (k.settings ▸ rate)

theorem served_systemSetRequest (fs a p c : Byte) (s : State) : Served s (systemSetRequest fs a p c s).1 := by
  unfold systemSetRequest answer
  split
  · dsimp only
    split
    · exact (Kept.refl s).served
    · next known =>
      split
      · exact (Kept.refl s).served
      · exact ⟨Nat.le_refl _, .refl _, rfl, id, fun h => { h with frameRate := by simp only; omega },
          fun rate h => by simp only [CounterInRange] at rate h ⊢; rw [rate]; exact h⟩
  · exact (Kept.refl s).served

theorem kept_resetNavigation (s : State) : Kept s (resetNavigation s) := by
  refine ((kept_closeGotoIf .cancelled s).trans (kept_closeRunIf .stopped _)).trans ?_
  exact .ofUnits fun h => { h with watches := List.length_replicate }

theorem kept_tunerReset (s : State) : Kept s (resetTuner s) := by
  have cut := (kept_cutScan .stopped (some .deckReset) s).trans (kept_dropOperatorTuner _)
  simp only [resetTuner]
  split
  · exact cut.trans (kept_retune _)
  · exact cut

theorem kept_resetTransport (s : State) : Kept s (resetTransport s) := by
  have path : Kept s (if s.transport.mode = .fault then recover false s
      else if s.transport.recovering then turnRecovery false s else setTarget .stop none s) := by
    split
    · exact kept_recover ..
    · split
      · exact kept_turnRecovery ..
      · exact kept_setTarget ..
  exact path.trans (Kept.after (kept_noteChange ..) .same)

/-- DECK_RESET empties the port; what follows is the units' work (R206). -/
theorem served_deckResetRequest (s : State) : Served s (deckResetRequest s).1 := by
  have emptied : Served s (emptyPort s) :=
    ⟨Nat.zero_le _, List.nil_sublist _, rfl, fun _ => .nil, fun h => { h with passCount := Nat.zero_le _ }, fun _ => id⟩
  have released : Kept (emptyPort s) (quieted s) := by
    have units := (kept_abandonTimer .preempted (emptyPort s)).trans ((kept_resetNavigation _).trans (kept_tunerReset _))
    simp only [quieted]
    split
    · exact units
    · exact units.trans (kept_setMech ..)
  rw [deckResetRequest_eq]
  exact emptied.trans_kept (released.trans ((kept_resetTransport _).trans (kept_endResetAtRest _)))

/-- Whatever a request asks for, its owner adds nothing to the port's lists and keeps the bounds. -/
theorem served_serve (k : RequestKind) (p : List Byte) (s : State) : Served s (serve k p s).1 := by
  cases k with
  | systemSet => exact served_systemSetRequest ..
  | deckReset => exact served_deckResetRequest s
  | ident | clockRead | tapeRead => exact (Kept.refl s).served
  | noteFlow =>
    show Served s (noteFlowRequest _ _ s).1
    unfold noteFlowRequest answer
    split
    · exact (Kept.refl s).served
    · exact ⟨Nat.le_refl _, .refl _, rfl, id, fun h => { h with }, fun _ => id⟩
  | power => exact (kept_powerRequest ..).served
  | clockSet => exact (kept_clockSetRequest ..).served
  | clockSource => exact (kept_clockSourceRequest ..).served
  | motion => exact (kept_motionRequest ..).served
  | recSpeed => exact (kept_recSpeedRequest ..).served
  | eject => exact (kept_ejectRequest s).served
  | counterZero => exact (kept_counterZeroRequest s).served
  | classSet => exact (kept_classSetRequest ..).served
  | markNow => exact (kept_markNowRequest ..).served
  | goto => exact (kept_gotoRequest ..).served
  | gotoCancel => exact (kept_gotoCancelRequest s).served
  | watchSet => exact (kept_watchSetRequest ..).served
  | watchClear => exact (kept_watchClearRequest ..).served
  | watchRead => exact (kept_watchReadRequest ..).served
  | runLoad => exact (kept_runLoadRequest ..).served
  | runStart => exact (kept_runStartRequest s).served
  | runStop => exact (kept_runStopRequest s).served
  | runRead => exact (kept_runReadRequest ..).served
  | markList => exact (kept_markListRequest ..).served
  | tune => exact (kept_tuneRequest ..).served
  | tunerRead => exact (kept_tunerReadRequest s).served
  | presetWrite => exact (kept_presetWriteRequest ..).served
  | presetRead => exact (kept_presetReadRequest ..).served
  | presetClear => exact (kept_presetClearRequest ..).served
  | scanStart => exact (kept_scanStartRequest ..).served
  | scanStop => exact (kept_scanStopRequest s).served
  | scanRead => exact (kept_scanReadRequest ..).served
  | scanAdopt => exact (kept_scanAdoptRequest ..).served
  | outputSelect => exact (kept_outputSelectRequest ..).served
  | progWrite => exact (kept_progWriteRequest ..).served
  | progRead => exact (kept_progReadRequest ..).served
  | progClear => exact (kept_progClearRequest ..).served
  | progAbort => exact (kept_progAbortRequest ..).served
  | progOrder => exact (kept_progOrderRequest ..).served

end Sys2Proof.Machine
end

section
/-! O59: what every step keeps. The port moves one entry, one reply and one frame at a time, and the units keep their bounds (`Kept`,
`Served`), so that a sound machine steps to a sound one. -/

namespace Sys2Proof.Machine

set_option Elab.async false

variable {s t u : State}

/-! ### Soundness from one state to another -/

/-- From one state to another soundness is kept, and the counter's range where the frame system stands. -/
structure KeepsSound (s t : State) : Prop where
  link  : LinkSound s.link → LinkSound t.link
  units : UnitsSound s → UnitsSound t
  range : t.settings.frameRate = s.settings.frameRate → CounterInRange s → CounterInRange t

theorem KeepsSound.refl (s : State) : KeepsSound s s := ⟨id, id, fun _ => id⟩

/-- One of two passages leaves the frame system as it is. -/
theorem KeepsSound.trans (h : KeepsSound s t) (k : KeepsSound t u)
    (rate : t.settings.frameRate = s.settings.frameRate ∨ u.settings.frameRate = t.settings.frameRate) : KeepsSound s u where
  link := k.link ∘ h.link
  units := k.units ∘ h.units
  range same := by
    have first : t.settings.frameRate = s.settings.frameRate := rate.elim id fun e => e ▸ same
    exact k.range (same.trans first.symm) ∘ h.range first

/-- An update of the port alone. -/
theorem KeepsSound.ofLink {l : Link} (h : LinkSound s.link → LinkSound l) : KeepsSound s { s with link := l } :=
  ⟨h, fun u => { u with }, fun _ => id⟩

theorem LinkSound.of_served (h : LinkSound s.link) (k : Served s t) : LinkSound t.link where
  input := k.input.trans h.input
  dispatched := by
    have fewer := k.replies.countP_le (p := fun f => f.origin == .dispatched)
    have before := h.dispatched
    rw [k.line]
    omega
  overruns := (k.replies.countP_le (p := fun f => f.origin == .overrun)).trans h.overruns
  outbox := k.outbox h.outbox

theorem Served.keepsSound (h : Served s t) : KeepsSound s t := ⟨fun l => l.of_served h, h.units, h.range⟩

theorem Kept.keepsSound (h : Kept s t) : KeepsSound s t := h.served.keepsSound

/-- After a passage that keeps soundness the units' work keeps it. -/
theorem KeepsSound.trans_kept (h : KeepsSound s t) (k : Kept t u) : KeepsSound s u :=
  h.trans k.keepsSound (.inr (by rw [k.settings]))

/-! ### Transmission (R202, R203) -/

theorem length_clearFires (n : Nat) (l : List (Option Watch)) : (clearFires n l).length = l.length := by
  unfold clearFires
  split
  · rfl
  · exact List.length_modify ..

theorem noteSent_keepsSound (k : NoteKey) (s : State) : KeepsSound s (noteSent k s) := by
  cases k with
  | mark => exact ⟨fun l => l, fun u => { u with passCount := Nat.zero_le _ }, fun _ => id⟩
  | watch n => exact ⟨fun l => l, fun u => { u with watches := (length_clearFires ..).trans u.watches }, fun _ => id⟩
  | mode | tape | goto | run | tune | scan | prog | clock | power => exact .refl s

theorem lineIdle_of_not {p : Prop} (h : ¬ (p ∨ s.link.line.isSome)) : s.link.line = none := by
  simpa using fun e => h (.inr e)

/-- A frame goes on an idle line from the head of its list, and no list grows (R202). -/
theorem chooseFrame_keepsSound (s : State) : KeepsSound s (chooseFrame s) := by
  unfold chooseFrame
  split
  · exact .refl s
  · next idle =>
    have line := lineIdle_of_not idle
    split
    · next f rest replies =>
      refine .ofLink fun l => ⟨l.input, ?_, ?_, l.outbox⟩
      · have before := l.dispatched
        simp only [replies, line, List.countP_cons] at before
        simpa using before
      · have before := l.overruns
        simp only [Link.overruns, replies, List.countP_cons] at before ⊢
        omega
    · split
      · split
        · exact .refl s
        · next n rest outbox =>
          have sent : KeepsSound s { s with link.line := some (noteFrame n s), link.outbox := rest } := by
            refine .ofLink fun l => ⟨l.input, ?_, l.overruns, ?_⟩
            · have before := l.dispatched
              simp only [line] at before
              simpa [noteFrame] using before
            · have before := l.outbox
              rw [outbox, List.map_cons] at before
              exact before.tail
          exact sent.trans (noteSent_keepsSound ..) (.inl rfl)
      · exact .refl s

theorem endLinkEvent_keepsSound (h : KeepsSound s t) : KeepsSound s (endLinkEvent t) :=
  h.trans (chooseFrame_keepsSound t) (.inr (by rw [endLinkEvent, chooseFrame_settings]))

theorem endDeckEvent_keepsSound (b : State) (h : KeepsSound s t) : KeepsSound s (endDeckEvent b t) :=
  endLinkEvent_keepsSound (h.trans_kept (kept_settleUnits b t))

/-! ### Dispatch (R199) -/

theorem replyOutstanding_false_iff (l : Link) : l.replyOutstanding = false ↔
    l.replies.countP (fun f => f.origin == .dispatched) = 0 ∧ l.line.any (fun f => f.origin == .dispatched) = false := by
  simp only [Link.replyOutstanding, Bool.or_eq_false_iff, List.countP_eq_zero, List.any_eq_false]

/-- With no dispatched reply outstanding, one may join the list (R199, R201). -/
theorem putReply_keepsSound {f : Frame} (h : s.link.replyOutstanding = false) (hf : f.origin = .dispatched) :
    KeepsSound s (putReply f s) := by
  obtain ⟨replies, line⟩ := (replyOutstanding_false_iff _).mp h
  refine .ofLink fun l => ⟨l.input, ?_, ?_, l.outbox⟩
  · simp only [List.countP_append, replies, line]
    simp [hf]
  · have before := l.overruns
    simp only [Link.overruns, List.countP_append] at before ⊢
    simpa [hf] using before

theorem Served.replyOutstanding (h : Served s t) (hs : s.link.replyOutstanding = false) : t.link.replyOutstanding = false := by
  obtain ⟨replies, line⟩ := (replyOutstanding_false_iff _).mp hs
  refine (replyOutstanding_false_iff _).mpr ⟨?_, h.line ▸ line⟩
  have := h.replies.countP_le (p := fun f => f.origin == .dispatched)
  omega

theorem dispatchEntry_keepsSound (e : Entry) (h : s.link.replyOutstanding = false) : KeepsSound s (dispatchEntry e s) := by
  simp only [dispatchEntry]
  split
  · exact putReply_keepsSound h rfl
  · split
    · exact putReply_keepsSound h rfl
    · next k _ =>
      split
      · have work : Served s (if k.settles then settleUnits s (serve k e.body.tail s).1 else (serve k e.body.tail s).1) := by
          split
          · exact (served_serve ..).trans_kept (kept_settleUnits ..)
          · exact served_serve ..
        exact work.keepsSound.trans (putReply_keepsSound (work.replyOutstanding h) rfl) (.inr rfl)
      · exact putReply_keepsSound h rfl

theorem dispatch_keepsSound (s : State) : KeepsSound s (dispatch s) := by
  simp only [dispatch]
  split
  · exact .refl s
  · next free =>
    split
    · exact .refl s
    · next e rest queue =>
      have taken : KeepsSound s { s with link.input := rest } := .ofLink fun l =>
        ⟨Nat.le_of_succ_le (by simpa [queue] using l.input), l.dispatched, l.overruns, l.outbox⟩
      exact taken.trans (dispatchEntry_keepsSound (s := { s with link.input := rest }) e ((Bool.not_eq_true _).mp free)) (.inl rfl)

/-! ### Reception (R197, R198) -/

theorem frameArrives_keepsSound (e : Entry) (s : State) : KeepsSound s (frameArrives e s) := by
  simp only [frameArrives]
  split
  · next room =>
    have queued : KeepsSound s { s with link.input := s.link.input ++ [e] } := .ofLink fun l =>
      ⟨by simpa using room, l.dispatched, l.overruns, l.outbox⟩
    split
    · exact queued.trans (dispatch_keepsSound _) (.inl rfl)
    · exact queued
  · split
    · next few =>
      refine .ofLink fun l => ⟨l.input, ?_, ?_, l.outbox⟩
      · simpa [List.countP_append, errorFrame] using l.dispatched
      · simpa [Link.overruns, List.countP_append, errorFrame] using few
    · exact .refl s

theorem requestFrame_keepsSound (k : RequestKind) (p : List Byte) (s : State) : KeepsSound s (requestFrame k p s) := by
  unfold requestFrame
  split
  · exact .refl s
  · exact endLinkEvent_keepsSound (frameArrives_keepsSound ..)

/-- The receiver and the time of the last byte are none of the port's lists. -/
theorem setReceiver_keepsSound (r : Receiver) (n : Nat) (s : State) :
    KeepsSound s { s with link.receiver := r, link.lastByte := n } :=
  .ofLink fun l => ⟨l.input, l.dispatched, l.overruns, l.outbox⟩

theorem receiveByte_keepsSound (b : Byte) (s : State) : KeepsSound s (receiveByte b s) := by
  have moved := fun r => setReceiver_keepsSound r s.now s
  simp only [receiveByte]
  split
  · split
    · exact moved _
    · exact moved _
  · repeat' split
    all_goals exact moved _
  · exact moved _
  · exact (moved .hunt).trans (frameArrives_keepsSound ..) (.inl rfl)

theorem receive_keepsSound (b : Byte) (stopBit : Bool) (s : State) : KeepsSound s (receive b stopBit s) := by
  have abandoned : KeepsSound s (if gapPassed s then { s with link.receiver := .hunt } else s) := by
    split
    · exact setReceiver_keepsSound ..
    · exact .refl s
  have rate : (if gapPassed s then { s with link.receiver := .hunt } else s).settings.frameRate = s.settings.frameRate := by
    split <;> rfl
  simp only [receive]
  split
  · exact abandoned.trans (receiveByte_keepsSound ..) (.inl rate)
  · exact abandoned.trans (setReceiver_keepsSound ..) (.inl rate)

theorem lineEnds_keepsSound (s : State) : KeepsSound s (lineEnds s) := by
  have cleared : KeepsSound s { s with link.line := none } := .ofLink fun l =>
    ⟨l.input, (Nat.le_add_right ..).trans l.dispatched, l.overruns, l.outbox⟩
  simp only [lineEnds]
  split
  · exact .refl s
  · split
    · exact cleared.trans (dispatch_keepsSound _) (.inl rfl)
    · exact cleared

/-! ### The events of the deck -/

theorem deckEvent_keepsSound {act : State → State} (h : Kept s (act s)) : KeepsSound s (deckEvent act s) := by
  unfold deckEvent
  split
  · exact .refl s
  · exact endDeckEvent_keepsSound s h.keepsSound

theorem timerEvent_keepsSound (limit : Option Nat) {act : State → State} (h : ∀ s, Kept s (act s)) (s : State) :
    KeepsSound s (timerEvent limit act s) := by
  unfold timerEvent
  split
  · exact .refl s
  · exact deckEvent_keepsSound ((kept_leapTo ..).trans (h _))

/-- What the connections report is no one's bound. -/
theorem setPins_keepsSound (p : Pins) (s : State) : KeepsSound s { s with pins := p } := ⟨id, fun u => { u with }, fun _ => id⟩

/-- A report of the connections, and the event that it may be. -/
theorem reported_keepsSound (p : Pins) (acts : Bool) {act : State → State} (h : ∀ s, Kept s (act s)) (s : State) :
    KeepsSound s (if acts then deckEvent act { s with pins := p } else { s with pins := p }) := by
  have report := setPins_keepsSound p s
  split
  · exact report.trans (deckEvent_keepsSound (h _)) (.inl rfl)
  · exact report

theorem stepExpired_keepsSound (p : Position) (s : State) : KeepsSound s (stepExpired p s) := by
  unfold stepExpired
  split
  · exact (setPins_keepsSound _ s).trans (timerEvent_keepsSound _ (kept_enterFault _) _) (.inl rfl)
  · exact .refl s
  · exact .refl s

theorem servoLocked_keepsSound (w : Leaders) (s : State) : KeepsSound s (servoLocked w s) := by
  unfold servoLocked
  split
  · next m _ =>
    unfold deckEvent
    split
    · exact .refl s
    · have reached : Kept { s with pins.startLeader := w.atStart, pins.endLeader := w.atEnd } (enterThreadedMode m w s) :=
        (kept_enterMode ..).trans ((kept_checkHeld _).trans ((kept_unitsAtMode ..).trans (kept_leaderAtMode ..)))
      exact endDeckEvent_keepsSound s ((setPins_keepsSound _ s).trans_kept reached)
  · exact .refl s
  · split
    · exact deckEvent_keepsSound (kept_regainLock s)
    · exact .refl s

theorem syncChanged_keepsSound (present : Bool) (s : State) : KeepsSound s (syncChanged present s) := by
  simp only [syncChanged]
  split
  · exact .refl s
  · exact (setPins_keepsSound _ s).trans (deckEvent_keepsSound ((kept_loseLock _).trans (kept_lockTest _))) (.inl rfl)

theorem readActed_keepsSound (shape : Shape) (s : State) : KeepsSound s (readActed shape s) := by
  unfold readActed
  split
  · split
    · exact deckEvent_keepsSound (kept_pulseRead ..)
    · exact .refl s
  · exact .refl s

/-- The shape of the pulse written is a report of the connections; the pulse is counted as any other (R19). -/
theorem pulseWritten_keepsSound (s : State) : KeepsSound s (deckEvent pulseWritten s) := by
  unfold deckEvent
  split
  · exact .refl s
  · exact endDeckEvent_keepsSound s ((setPins_keepsSound _ s).trans_kept
      ((kept_countPulse ..).trans ((kept_advanceWriter _).trans (kept_navigate ..))))

/-! ### The mains (R27, R194 to R196) -/

theorem linkSound_cold : LinkSound Link.cold :=
  ⟨Nat.zero_le _, Nat.zero_le _, Nat.zero_le _, List.nodup_nil⟩

/-- The loss keeps the backup domain, and empties the port (R194, R208). -/
theorem loseMains_keepsSound (s : State) : KeepsSound s (loseMains s) := by
  have judged := (kept_abandonTimer .power s)
  refine (judged.keepsSound.trans ?_ (.inl (by rw [judged.settings]))).trans_kept (kept_recomputeSource _)
  exact ⟨fun _ => linkSound_cold, fun u => ⟨u.counter, Nat.zero_le _, Nat.zero_le _, rfl, u.presets, Nat.zero_le _, Nat.zero_le _, .nil,
    u.time, u.slots, u.frameRate⟩, fun _ => id⟩

theorem restoreMains_keepsSound (w : Switches) (s : State) : KeepsSound s (restoreMains w s) := by
  have told : ∀ t, KeepsSound s t → KeepsSound s (postPower (clockJump .power (postClock (postTape
      (restoreMechanism s.transport.keptThreaded s.transport.keptCassette w t))))) := fun t h =>
    h.trans_kept ((kept_restoreMechanism ..).trans ((kept_postTape _).trans ((kept_postClock _).trans ((kept_clockJump ..).trans
      (kept_postPower _)))))
  exact told _ ⟨fun _ => linkSound_cold, fun u => { u with }, fun _ => id⟩

theorem supplyReported_keepsSound (level : Supply) (s : State) : KeepsSound s (supplyReported level s) := by
  have report := setPins_keepsSound { s.pins with supply := level } s
  simp only [supplyReported]
  split
  · refine report.trans_kept ?_
    unfold supplyQualified
    split
    · exact .same
    · split
      · exact kept_beginQualification _
      · exact .refl _
  · split
    · exact report.trans (loseMains_keepsSound _) (.inl rfl)
    · split
      · exact endLinkEvent_keepsSound (report.trans_kept (kept_postPower _))
      · exact report

/-- At its cold start values the machine is sound, whatever it was (R196). -/
theorem keepsSound_of_cold (link : t.link = Link.cold) (tape : t.tape = .cold) (marks : t.marks = .cold) (nav : t.nav = .cold)
    (tuner : t.tuner = .cold) (scan : t.scan = .cold) (time : t.clock.time = 0) (sched : t.sched = .cold)
    (settings : t.settings = .cold) : KeepsSound s t where
  link _ := link ▸ linkSound_cold
  units _ := by
    refine ⟨?_, ?_, ?_, ?_, ?_, ?_, ?_, ?_, ?_, ?_, .inl ?_⟩ <;>
      simp [tape, marks, nav, tuner, scan, time, sched, settings, TapePosition.cold, CueMarks.cold, Navigation.cold, Tuner.cold,
        Scan.cold, Scheduler.cold, Settings.cold, Config.calendarSeconds]
  range _ _ := by simp [CounterInRange, tape, TapePosition.cold]

theorem startCold_keepsSound (level : Supply) (w : Switches) (dew : Bool) (s : State) : KeepsSound s (startCold level w dew s) := by
  cases level with
  | normal =>
    refine KeepsSound.trans_kept ?_ ((kept_coldMechanism w _).trans (kept_postPower _))
    exact keepsSound_of_cold rfl rfl rfl rfl rfl rfl rfl rfl rfl
  | low => exact keepsSound_of_cold rfl rfl rfl rfl rfl rfl rfl rfl rfl

theorem qualified_keepsSound (w : Switches) (s : State) : KeepsSound s (qualified w s) := by
  unfold qualified
  split
  · exact .refl s
  · exact endDeckEvent_keepsSound s ((kept_leapTo _ s).keepsSound.trans (restoreMains_keepsSound ..) (.inl rfl))

/-! ### Every command -/

theorem frameAbandoned_keepsSound (n : Nat) (s : State) : KeepsSound s { leapTo n s with link.receiver := .hunt } :=
  (kept_leapTo n s).keepsSound.trans (setReceiver_keepsSound .hunt (leapTo n s).link.lastByte _) (.inl rfl)

theorem gapLost_keepsSound (s : State) : KeepsSound s (gapLost s) := by
  unfold gapLost
  exact (kept_leapTo _ s).keepsSound.trans (loseMains_keepsSound _) (.inl (by rw [leapTo_settings]))

theorem kept_qualificationEnded (n : Nat) (s : State) : Kept s { leapTo n s with power.qualSince := none } := .same

theorem completedInBackup_keepsSound (s : State) : KeepsSound s (if s.power.domainKept then secondCompleted s else s) := by
  split
  · exact (kept_secondCompleted s).keepsSound
  · exact .refl s

theorem leaderSeen_keepsSound (l : Leader) (s : State) :
    KeepsSound s (deckEvent (leaderActed l) (leaderReported l s)) := by
  cases l <;> exact (setPins_keepsSound _ s).trans (deckEvent_keepsSound (kept_leaderActed ..)) (.inl rfl)

/-- Where a command gives a next state, soundness is kept. -/
structure SoundOutcome (s : State) (o : Host.Outcome State Fault Refusal) : Prop where
  next : ∀ t, o = .next t → KeepsSound s t

theorem soundOutcome_next (h : KeepsSound s t) : SoundOutcome s (.next t) := ⟨fun _ e => Host.Outcome.next.inj e ▸ h⟩

theorem soundOutcome_refused (s : State) (r : Refusal) : SoundOutcome s (.refused r) := ⟨fun _ e => by simp at e⟩

theorem soundOutcome_frame (body : List Byte) (good : Bool) (s : State) :
    SoundOutcome s (if !carried body then .refused .notAFrame
      else .next (if s.power.state = .backup then s else endLinkEvent (frameArrives { body := body, good := good } s))) := by
  split
  · exact soundOutcome_refused ..
  · refine soundOutcome_next ?_
    split
    · exact .refl s
    · exact endLinkEvent_keepsSound (frameArrives_keepsSound ..)

theorem soundOutcome_request (k : RequestKind) (p : List Byte) (s : State) : SoundOutcome s (.next (requestFrame k p s)) :=
  soundOutcome_next (requestFrame_keepsSound ..)

theorem soundOutcome_timer (limit : Option Nat) {act : State → State} (h : ∀ s, Kept s (act s)) (s : State) :
    SoundOutcome s (.next (timerEvent limit act s)) :=
  soundOutcome_next (timerEvent_keepsSound limit h s)

/-- A passage that is taken in one condition. -/
theorem soundOutcome_if {p : Prop} [Decidable p] {v : State} (h : KeepsSound s t) (k : KeepsSound s v) :
    SoundOutcome s (.next (if p then t else v)) := by
  split
  · exact soundOutcome_next h
  · exact soundOutcome_next k

/-- Every command keeps soundness: the requests and the bytes by the port, the events by the work of the units. -/
theorem exec_sound (c : Instr) (s : State) : SoundOutcome s (exec c s) := by
  cases c with
  | runLoad a n first l =>
    show SoundOutcome s (if 9 < l.length then .refused .notAFrame else .next (requestFrame .runLoad _ s))
    split
    · exact soundOutcome_refused ..
    · exact soundOutcome_request ..
  | ident | noteFlow | deckReset | powerStandby | powerOperate | systemSet | clockSet | clockRead | clockSource | motion | recSpeed
  | eject | counterZero | tapeRead | classSet | markNow | gotoCounter | gotoMarkForward | gotoMarkBackward | gotoCancel | watchSet
  | watchClear | watchRead | runStart | runStop | runRead | markList | tunePreset | tuneStepUp | tuneStepDown | tuneDirect
  | tunerRead | presetWrite | presetRead | presetClear | scanStartFresh | scanStartResume | scanStop | scanRead | scanAdoptReplace
  | scanAdoptAppend | outputSelect | progWrite | progRead | progClear | progAbort | progOrder => exact soundOutcome_request ..
  | badCheck body => exact soundOutcome_frame body false s
  | badKind kind payload => exact soundOutcome_frame (kind :: payload) true s
  | badLength kind payload => exact soundOutcome_frame (kind :: payload) true s
  | byteReceived b stop => exact soundOutcome_if (.refl s) (endLinkEvent_keepsSound (receive_keepsSound b stop s))
  | receiveGapTimeout => exact soundOutcome_if (.refl s) (frameAbandoned_keepsSound _ s)
  | transmitEnd => exact soundOutcome_if (.refl s) (endLinkEvent_keepsSound (lineEnds_keepsSound s))
  | cassetteInsert => 
    exact soundOutcome_if (t := deckEvent beginLoading { s with pins.cassetteIn := true }) ((setPins_keepsSound _ s).trans (deckEvent_keepsSound (kept_beginLoading _)) (.inl rfl)) (setPins_keepsSound _ s)
  | loadingComplete tab => exact soundOutcome_next (reported_keepsSound _ _ kept_enterLoaded s)
  | threadingComplete => exact soundOutcome_next (reported_keepsSound _ _ kept_enterThreaded s)
  | unthreadingComplete => exact soundOutcome_next (reported_keepsSound _ _ kept_enterUnthreaded s)
  | ejectComplete c => exact soundOutcome_next (reported_keepsSound _ _ kept_enterEmpty s)
  | mechTimeout p => exact soundOutcome_next (stepExpired_keepsSound p s)
  | servoLock w => exact soundOutcome_next (servoLocked_keepsSound w s)
  | servoTimeout => exact soundOutcome_timer _ (kept_protectionStop _) s
  | servoLockLost => exact soundOutcome_next (deckEvent_keepsSound (kept_loseLock s))
  | syncDetectorChange p => exact soundOutcome_next (syncChanged_keepsSound p s)
  | speedDetectWindowEnd => exact soundOutcome_timer _ kept_closeDetection s
  | controlPulseWrite => exact soundOutcome_if (pulseWritten_keepsSound s) (.refl s)
  | controlPulseRead shape => exact soundOutcome_next (readActed_keepsSound shape s)
  | dewSensorChange d =>
    exact soundOutcome_next ((setPins_keepsSound _ s).trans (deckEvent_keepsSound (kept_dewReported d _)) (.inl rfl))
  | dewDryTimeout => exact soundOutcome_timer _ kept_clearDew s
  | leaderSeen l => exact soundOutcome_next (leaderSeen_keepsSound l s)
  | reelStall => exact soundOutcome_timer _ (kept_protectionStop _) s
  | tightEnd => exact soundOutcome_if (deckEvent_keepsSound (kept_replaceCause _ s)) (timerEvent_keepsSound _ (kept_protectionStop _) s)
  | pauseLimit => exact soundOutcome_timer _ (kept_protectionStop _) s
  | reelPulse r i => exact soundOutcome_if (deckEvent_keepsSound (kept_reelPulsed r i s)) (.refl s)
  | reelPeriodStall r => exact soundOutcome_timer _ (kept_stallReel r) s
  | tapeReportTimer => exact soundOutcome_timer _ kept_postTape s
  | decoderGap => exact soundOutcome_timer _ kept_gapExpired s
  | gotoNoTrack => exact soundOutcome_timer _ (kept_failGoto _ _) s
  | runNoTrack => exact soundOutcome_timer _ kept_runLostTrack s
  | signalStrengthChange n =>
    exact soundOutcome_next ((setPins_keepsSound _ s).trans (deckEvent_keepsSound (kept_lockTest _)) (.inl rfl))
  | tunerSettleEnd => exact soundOutcome_timer _ kept_endSettling s
  | tuningTimeout => exact soundOutcome_timer _ kept_enterNoSignal s
  | aftReading d =>
    exact soundOutcome_next ((setPins_keepsSound _ s).trans (timerEvent_keepsSound _ (kept_aftRead d) _) (.inl rfl))
  | signalLossTimeout => exact soundOutcome_timer _ kept_enterNoSignal s
  | noSignalRecheck => exact soundOutcome_timer _ kept_recheck s
  | scanDwellEnd => exact soundOutcome_timer _ kept_stepRead s
  | peakDwellEnd => exact soundOutcome_timer _ kept_peakRead s
  | mainsCycle =>
    exact soundOutcome_if (Kept.after (kept_beginQualification _) .same).keepsSound (deckEvent_keepsSound (kept_cycleCounted s))
  | secondBoundary => exact soundOutcome_if (completedInBackup_keepsSound s) (deckEvent_keepsSound (kept_secondCompleted s))
  | detectionWindowClose => exact soundOutcome_timer _ kept_closeWindow s
  | wakeComplete =>
    refine soundOutcome_next ?_
    split
    · exact timerEvent_keepsSound _ (fun s => (kept_arriveOperating _ s).trans (kept_programAtArrival _)) s
    · exact .refl s
    · exact .refl s
  | supplyMonitorChange l => exact soundOutcome_next (supplyReported_keepsSound l s)
  | mainsLoss => exact soundOutcome_if (.refl s) (gapLost_keepsSound s)
  | mainsRestore w => exact soundOutcome_next (qualified_keepsSound w s)
  | coldStart l w d => exact soundOutcome_next (endLinkEvent_keepsSound (startCold_keepsSound l w d s))
  | backupSupplyFail => exact soundOutcome_if (keepsSound_of_cold rfl rfl rfl rfl rfl rfl rfl rfl rfl) (.refl s)
  | qualificationGap => exact soundOutcome_if (kept_qualificationEnded _ s).keepsSound (.refl s)

/-- A step leaves the queue's rest, or lets one crystal tick pass, and soundness is kept either way. -/
theorem step_sound (s : State) : SoundOutcome s (step s) := by
  cases h : s.pending with
  | nil => exact step_of_pending_nil h ▸ soundOutcome_next (kept_elapse ..).keepsSound
  | cons c rest =>
    have taken : KeepsSound s { s with pending := rest } := ⟨id, fun u => { u with }, fun _ => id⟩
    exact ⟨fun t e => taken.trans ((exec_sound c _).next t (step_of_pending_cons h ▸ e)) (.inl rfl)⟩

/-- Settles O59: every step keeps soundness, and the counter's range where the frame system stands. -/
theorem soundKept : Obligations.SoundKept := by
  intro s t sound stepped
  obtain ⟨link, units, range⟩ := (step_sound s).next t stepped
  exact ⟨⟨link sound.link, units sound.units⟩, range⟩

end Sys2Proof.Machine
end

section
/-! O57, O19 and O18: the read requests (R40, R60, R92, R101, R119, R134, R147, R149, R205, R207), COUNTER_ZERO (R44) and CLASS_SET (R35). -/

namespace Sys2Proof.Machine

set_option Elab.async false

variable {s t u : State}

/-! ### Requests that settle nothing (R199) -/

/-- A request whose work nothing waits for is answered from what its owner leaves. -/
theorem requestFrame_served {k : RequestKind} {p : List Byte} (h : PortReady s) (hk : k.settles = false)
    (hp : k.admitsLength p.length = true) : requestFrame k p s = answered k (serve k p s).2 (serve k p s).1 := by
  rw [requestFrame_ready h hp, hk, if_neg Bool.false_ne_true]

/-- A read of a table is refused RANGE by its check, or reports its fields, and changes nothing (R201). -/
theorem answered_checked (k : RequestKind) (p : Prop) [Decidable p] (fields : List Byte) (s : State) :
    (let r := if p then answer .range s else report fields s
    answered k r.2 r.1) = if p then answered k { status := .range } s else answered k { status := .ok, fields := fields } s := by
  by_cases h : p <;> simp only [h, if_true, if_false, answer, report]

/-! ### The fields of the reads -/

theorem bytesOf_two (n : Nat) : bytesOf 2 n = [byteOf (n / 256), byteOf n] := by simp [bytesOf]

/-- An entry of the found list as SCAN_READ carries it (R119). -/
theorem foundBytes_eq (l : List (Nat × Nat)) : (l.flatMap fun e => bytesOf 2 e.1 ++ [byteOf e.2]) =
    l.flatMap fun e => [byteOf (e.1 / 256), byteOf e.1, byteOf e.2] := by
  simp only [bytesOf_two, List.cons_append, List.nil_append]

/-- The window left of a program, by the window itself (R140, R210). -/
theorem Program.leftBytes_eq (p : Program) (t : Nat) : p.leftBytes t =
    wideBytes (if p.carried = false ∧ p.next * 60 ≤ t ∧ t < (p.next + p.duration) * 60 then some ((p.next + p.duration) * 60 - t)
      else none) := by
  have window : p.running t = true ↔ p.carried = false ∧ p.next * 60 ≤ t ∧ t < (p.next + p.duration) * 60 := by
    simp only [Program.running, Program.begun, Bool.and_eq_true, Bool.not_eq_true', decide_eq_true_eq, and_assoc]
    rfl
  simp only [Program.leftBytes, window, Program.windowEnd]

/-- PROG_READ refuses a number that is no slot's (R147). -/
theorem progReadRequest_eq (b : Byte) (s : State) : progReadRequest b s =
    if b.toNat < 1 ∨ 16 < b.toNat then answer .range s
    else report (programBytes b.toNat (s.program b.toNat) ++ match s.program b.toNat with
      | some p => minuteBytes (p.next + p.duration) ++ wideBytes (if p.carried = false ∧ p.next * 60 ≤ s.clock.time ∧
          s.clock.time < (p.next + p.duration) * 60 then some ((p.next + p.duration) * 60 - s.clock.time) else none)
      | none => [0, 0, 0, 0, 0, 0xFF, 0xFF]) s := by
  unfold progReadRequest slotOf
  by_cases slot : 1 ≤ b.toNat ∧ b.toNat ≤ 16
  · rw [if_pos slot, if_neg (by omega)]
    dsimp only
    generalize s.program b.toNat = entry
    cases entry with
    | none => rfl
    | some p => simp only [Program.leftBytes_eq]
  · rw [if_neg slot, if_pos (by omega)]

/-- Settles O57: none of the reads waits for anything, and each owner reports its record or refuses the number it is given. -/
theorem readsServed : Obligations.ReadsServed := by
  intro s ready ok
  have served : ∀ {k : RequestKind} {p : List Byte}, k.settles = false → k.admitsLength p.length = true →
      Host.Outcome.next (ρ := Refusal) (φ := Fault) (requestFrame k p s) = .next (answered k (serve k p s).2 (serve k p s).1) :=
    fun hk hp => congrArg Host.Outcome.next (requestFrame_served ready hk hp)
  have checked : ∀ {k : RequestKind} {l : List Byte} (p : Prop) [Decidable p] (fields : List Byte), k.settles = false →
      k.admitsLength l.length = true → serve k l s = (if p then answer .range s else report fields s) →
      Host.Outcome.next (ρ := Refusal) (φ := Fault) (requestFrame k l s) =
        .next (if p then answered k { status := .range } s else ok k fields) := fun p _ fields hk hp e => by
    rw [served hk hp, e, ← answered_checked]
  refine ⟨served rfl rfl, served rfl rfl, served rfl rfl, served rfl rfl, fun b => ⟨checked _ _ rfl rfl rfl, checked _ _ rfl rfl rfl,
    checked _ _ rfl rfl ?_, checked _ _ rfl rfl rfl, checked _ _ rfl rfl (progReadRequest_eq b s), fun part => checked _ _ rfl rfl rfl⟩⟩
  rw [← foundBytes_eq]
  rfl

/-! ### COUNTER_ZERO (R44) -/

theorem noCassetteYet_iff (s : State) : s.noCassetteYet = true ↔
    s.transport.mode = .empty ∨ s.transport.mode = .loading ∨ s.transport.mode = .ejecting := by
  simp [State.noCassetteYet, or_assoc]

/-- The counter at 0 EXACT, with its TAPE note (R44). -/
def zeroCounter (s : State) : State := postTape { s with tape.counter := 0, tape.quality := .exact }

theorem zeroCounter_keeps (s : State) : KeepsBut [.counter, .estimate, .sending] s (zeroCounter s) := by
  refine KeepsBut.after ((postTape_keeps _).mono (by simp)) ⟨fun q hq => ?_⟩
  cases q <;> simp_all [SamePart]

theorem zeroCounter_tape (s : State) : (zeroCounter s).tape =
    { s.tape with counter := 0, quality := .exact, lastReport := s.now, reportPeriod := s.link.period } := post_tape ..

theorem zeroCounter_noted (h : s.power.state ≠ .backup) : TapeNoted (zeroCounter s) :=
  postTape_noted (s := { s with tape.counter := 0, tape.quality := .exact }) h

theorem counterZeroRequest_zeroes (hc : ¬ s.noCassetteYet = true) (hn : NoNavigation s) :
    counterZeroRequest s = answer .ok (zeroCounter s) := by
  simp only [counterZeroRequest, hc, hn.goto, hn.run, Bool.or_self, Bool.false_eq_true, if_false, zeroCounter]

/-- A TAPE note that waits is told after the reply (R40, R202). -/
theorem TapeNoted.answered (h : TapeNoted u) (k : RequestKind) (r : Reply) : TapeAnnounced (answered k r u) :=
  TapeNoted.announced (s := putReply (replyFrame k r) u) h.of

/-- Settles O19: the two refusals leave the machine as it is, and the zeroing is one update of the record and one note. -/
theorem counterZeroed : Obligations.CounterZeroed := by
  intro s ready
  have served : exec .counterZero s = .next (answered .counterZero (counterZeroRequest s).2 (counterZeroRequest s).1) :=
    congrArg Host.Outcome.next (requestFrame_served ready rfl rfl)
  refine ⟨fun none => ?_, fun he hl hj => ?_⟩
  · rw [served, counterZeroRequest, if_pos ((noCassetteYet_iff s).mpr none)]
    rfl
  · have cassette : ¬ s.noCassetteYet = true := by simp [noCassetteYet_iff, he, hl, hj]
    refine ⟨fun busy => ?_, fun idle => ?_⟩
    · rw [served, counterZeroRequest, if_neg cassette, if_pos (by simpa using busy)]
      rfl
    · rw [counterZeroRequest_zeroes cassette idle] at served
      refine ⟨_, served, replied_answered .counterZero { status := .ok } (zeroCounter s), ?_⟩
      have tape := (answered_tape .counterZero { status := .ok } (zeroCounter s)).trans (zeroCounter_tape s)
      have announced := (zeroCounter_noted ready.runs).answered .counterZero { status := .ok }
      have keeps := (zeroCounter_keeps s).trans ((answered_keeps .counterZero { status := .ok } _).mono (by simp))
      simp only [answer, tape]
      exact ⟨trivial, trivial, trivial, trivial, trivial, trivial, announced, keeps⟩

/-! ### CLASS_SET (R35) -/

/-- The classes by their place in the manual's list: their minutes divided by 30 (R209). -/
theorem valueAt_cassetteClass {b : Byte} {c : CassetteClass} (h : valueAt CassetteClass.all b = some c) : c.minutes = 30 * b.toNat := by
  unfold valueAt at h
  split at h
  · cases h
  · next hb =>
    have first : b.toNat ≠ 0 := fun e => hb (BitVec.eq_of_toNat_eq e)
    obtain ⟨last, at_⟩ := List.getElem?_eq_some_iff.mp h
    have six : b.toNat - 1 < 6 := last
    have minutes : ∀ k (hk : k < 6), (CassetteClass.all[k]'hk).minutes = 30 * (k + 1) := by decide
    rw [← at_]
    exact (minutes _ six).trans (by omega)

theorem valueAt_cassetteClass_none (b : Byte) : valueAt CassetteClass.all b = none ↔ b = 0 ∨ 6 < b.toNat := by
  unfold valueAt
  split
  · next hb => simp [hb]
  · next hb =>
    rw [List.getElem?_eq_none_iff]
    show 6 ≤ b.toNat - 1 ↔ _
    simp only [hb, false_or]
    omega

theorem valueAt_cassetteClass_none_of_le {b : Byte} (h : b.toNat ≤ 6) : valueAt CassetteClass.all b = none ↔ b = 0 :=
  (valueAt_cassetteClass_none b).trans (or_iff_left (by omega))

/-- The record as CLASS_SET leaves it, before its note: the class now known declared with the estimate standing, or another class, or
none, with the estimate discarded (R35, R78). -/
def setClass (named : Option CassetteClass) (s : State) : State :=
  let s := { s with tape.idCount := 0, tape.candidate := none }
  if named.isSome ∧ named = s.tape.cls then { s with tape.origin := .declared } else declareClass named s

/-- The sides of the REMAIN entries are all that an estimate that goes takes with it (R78). -/
theorem forgetSides_keeps (s : State) : KeepsBut [.nav] s (forgetSides s) := by
  refine ⟨fun q hq => ?_⟩
  cases q
  case nav => simp at hq
  case sending =>
    simp only [SamePart, forgetSides, List.map_map, true_and]
    refine List.map_congr_left fun w _ => ?_
    cases w with
    | none => rfl
    | some w => cases w with | mk kind => cases kind <;> rfl
  all_goals simp [SamePart, forgetSides]

theorem setClass_keeps (named : Option CassetteClass) (s : State) : KeepsBut [.estimate, .nav] s (setClass named s) := by
  have update : ∀ p : TapePosition, p.counter = s.tape.counter → p.quality = s.tape.quality → p.spanStart = s.tape.spanStart →
      p.supply = s.tape.supply → p.takeUp = s.tape.takeUp → KeepsBut [.estimate, .nav] s { s with tape := p } := by
    intro p hc hq hs hr ht
    refine ⟨fun q hq => ?_⟩
    cases q <;> simp_all [SamePart]
  simp only [setClass]
  split
  · exact update _ rfl rfl rfl rfl rfl
  · exact KeepsBut.after ((forgetSides_keeps _).mono (by simp)) (update _ rfl rfl rfl rfl rfl)

/-- What CLASS_SET makes of the class, its origin, the estimate and the identification (R35). -/
structure ClassTaken (named : Option CassetteClass) (s t : State) : Prop where
  cls       : t.tape.cls = named
  origin    : t.tape.origin = if named.isSome then .declared else .none
  stands    : named.isSome → named = s.tape.cls → t.tape.fraction = s.tape.fraction ∧ t.tape.held = s.tape.held
  discarded : ¬ (named.isSome ∧ named = s.tape.cls) → t.tape.fraction = none ∧ t.tape.held = false
  idCount   : t.tape.idCount = 0
  candidate : t.tape.candidate = none

theorem setClass_taken (named : Option CassetteClass) (s : State) : ClassTaken named s (setClass named s) := by
  by_cases known : named.isSome ∧ named = s.tape.cls
  · have same : setClass named s = { s with tape.idCount := 0, tape.candidate := none, tape.origin := .declared } := if_pos known
    rw [same]
    exact ⟨known.2.symm, by rw [if_pos known.1], fun _ _ => ⟨rfl, rfl⟩, fun h => absurd known h, rfl, rfl⟩
  · have other : setClass named s = declareClass named { s with tape.idCount := 0, tape.candidate := none } := if_neg known
    rw [other]
    exact ⟨rfl, rfl, fun h e => absurd ⟨h, e⟩ known, fun _ => ⟨rfl, rfl⟩, rfl, rfl⟩

theorem ClassTaken.of {named : Option CassetteClass} (h : ClassTaken named s t) (cls : u.tape.cls = t.tape.cls)
    (origin : u.tape.origin = t.tape.origin) (fraction : u.tape.fraction = t.tape.fraction) (held : u.tape.held = t.tape.held)
    (idCount : u.tape.idCount = t.tape.idCount) (candidate : u.tape.candidate = t.tape.candidate) : ClassTaken named s u :=
  ⟨cls ▸ h.cls, origin ▸ h.origin, by rw [fraction, held]; exact h.stands, by rw [fraction, held]; exact h.discarded,
    idCount ▸ h.idCount, candidate ▸ h.candidate⟩

/-- The TAPE note of the new record (R35, R40). -/
def noteClass (named : Option CassetteClass) (s : State) : State := postTape (setClass named s)

theorem noteClass_taken (named : Option CassetteClass) (s : State) : ClassTaken named s (noteClass named s) := by
  apply (setClass_taken named s).of <;> simp [noteClass, postTape]

theorem noteClass_keeps (named : Option CassetteClass) (s : State) : KeepsBut [.estimate, .nav, .sending] s (noteClass named s) :=
  ((setClass_keeps named s).mono (by simp)).trans ((postTape_keeps _).mono (by simp))

theorem classSetRequest_takes {b : Byte} (hb : b.toNat ≤ 6) (hc : ¬ s.noCassetteYet = true) :
    classSetRequest b s = answer .ok (noteClass (valueAt CassetteClass.all b) s) := by
  have named : ¬ (b ≠ 0 ∧ valueAt CassetteClass.all b = none) := fun h => h.1 ((valueAt_cassetteClass_none_of_le hb).mp h.2)
  simp only [classSetRequest, named, hc, if_false]
  rfl

/-- No estimate waits to be held after CLASS_SET: it stands as it did, or is discarded. -/
theorem noteClass_heldDue (named : Option CassetteClass) (h : s.heldDue = false) : (noteClass named s).heldDue = false := by
  have taken := noteClass_taken named s
  have keeps := noteClass_keeps named s
  obtain ⟨supply, takeUp⟩ := keeps.same .reels (by decide)
  by_cases known : named.isSome ∧ named = s.tape.cls
  · obtain ⟨fraction, held⟩ := taken.stands known.1 known.2
    rw [← h]
    simp only [State.heldDue, State.bothValid, keeps.transport, fraction, held, supply, takeUp]
  · simp [State.heldDue, (taken.discarded known).1]

/-! ### The end of an event that touches the position record alone -/

/-- What the entry to STANDBY reads stands: the end of the event tests the identification, and holds no estimate (R33, R38). -/
theorem settleUnits_identifying (h : Undue s) (hd : u.heldDue = false) (transport : u.transport = s.transport)
    (mech : u.mech = s.mech) (power : u.power = s.power) : settleUnits s u = checkIdentifying u := by
  have hb : (s.transport.resetInFlight && !u.transport.resetInFlight) = false := by rw [transport]; simp
  have keeps := checkIdentifying_keeps u
  simp only [settleUnits, hb, Bool.false_eq_true, if_false, checkHeld_of_not hd]
  refine checkStandby_of_not fun r ho ht => ?_
  simp only [keeps.power, power] at ho ht
  have quiet := h.standby r ho ht
  simpa only [State.quietForStandby, State.mechReleased, keeps.transport, keeps.mech, transport, mech] using quiet

/-- With no identification in hand its end changes at most the time of the last computation (R33; log 39). -/
theorem checkIdentifying_tape (hi : u.tape.idCount = 0) (hc : u.tape.candidate = none) :
    ∃ last, (checkIdentifying u).tape = { u.tape with lastIdent := last } := by
  rw [checkIdentifying_eq]
  split
  · exact ⟨u.tape.lastIdent, rfl⟩
  · exact ⟨none, by simp [forgetCandidate, hi, hc]⟩

theorem TapeNoted.checkIdentifying (h : TapeNoted u) : TapeNoted (checkIdentifying u) := h.of (checkIdentifying_outbox u)

/-- Settles O18: the refusals change nothing, and the class named is taken with what R35 says of the estimate. -/
theorem classSetDeclares : Obligations.ClassSetDeclares := by
  intro s ready due b
  have refused : ∀ st, classSetRequest b s = answer st s → exec (.classSet b) s = .next (answered .classSet { status := st } s) :=
    fun _ e => congrArg Host.Outcome.next (requestFrame_refused ready due rfl e)
  refine ⟨fun hb => refused _ ?_, fun hb none => refused _ ?_, fun hb he hl hj => ?_⟩
  · have unknown : b ≠ 0 ∧ valueAt CassetteClass.all b = none :=
      ⟨fun e => by rw [e] at hb; exact absurd hb (by decide), (valueAt_cassetteClass_none b).mpr (.inr hb)⟩
    simp only [classSetRequest, unknown, ne_eq, not_false_eq_true, and_self, if_true]
  · have named : ¬ (b ≠ 0 ∧ valueAt CassetteClass.all b = Option.none) := fun h =>
      h.1 ((valueAt_cassetteClass_none_of_le hb).mp h.2)
    simp only [classSetRequest, named, (noCassetteYet_iff s).mpr none, if_true, if_false]
  · have cassette : ¬ s.noCassetteYet = true := by simp [noCassetteYet_iff, he, hl, hj]
    obtain ⟨named, hn⟩ : ∃ named, named = valueAt CassetteClass.all b := ⟨_, rfl⟩
    have keeps := noteClass_keeps named s
    have settled : settleUnits s (noteClass named s) = checkIdentifying (noteClass named s) :=
      settleUnits_identifying due.undue (noteClass_heldDue named due.undue.held) keeps.transport keeps.mech keeps.power
    have served : exec (.classSet b) s = .next (answered .classSet { status := .ok } (checkIdentifying (noteClass named s))) := by
      have work : serve .classSet [b] s = answer .ok (noteClass named s) := hn ▸ classSetRequest_takes hb cassette
      rw [← settled]
      exact congrArg Host.Outcome.next ((requestFrame_ready ready rfl).trans (by rw [work]; rfl))
    have taken := noteClass_taken named s
    obtain ⟨last, tape⟩ := checkIdentifying_tape taken.idCount taken.candidate
    have noted : TapeNoted (noteClass named s) := postTape_noted (by rw [(setClass_keeps named s).power]; exact ready.runs)
    have record : ClassTaken named s (answered .classSet { status := .ok } (checkIdentifying (noteClass named s))) := by
      apply taken.of <;> rw [answered_tape, tape]
    have none_iff : named = none ↔ b = 0 := hn ▸ valueAt_cassetteClass_none_of_le hb
    have some_iff : named.isSome ↔ b ≠ 0 := by rw [Option.isSome_iff_ne_none, ne_eq, none_iff]
    refine ⟨_, served, replied_answered .., fun h0 => ?_, fun c hc => ?_, fun h0 => ?_, fun h0 same => ?_, fun other => ?_,
      record.idCount, record.candidate, noted.checkIdentifying.answered .., ?_⟩
    · exact ⟨record.cls.trans (none_iff.mpr h0), by rw [record.origin, none_iff.mpr h0]; rfl⟩
    · rw [record.cls] at hc
      exact ⟨valueAt_cassetteClass (hn ▸ hc), by rw [record.origin, hc]; rfl⟩
    · rw [record.cls]
      exact fun e => h0 (none_iff.mp e)
    · exact record.stands (some_iff.mpr h0) (record.cls.symm.trans same)
    · exact record.discarded fun ⟨present, same⟩ => other.elim (some_iff.mp present) fun h => h (record.cls.trans same)
    · exact keeps.trans (((checkIdentifying_keeps _).mono (by simp)).trans ((answered_keeps ..).mono (by simp)))

end Sys2Proof.Machine
end

section
/-! O21: the supply fraction in exact arithmetic (R37). -/

namespace Sys2Proof.Machine

set_option Elab.async false

theorem hubShare_le (c : CassetteClass) : c.hubShare ≤ 2398 := by cases c <;> decide

/-- A quotient rounded, as a natural number, is the floor of the quotient and a half (R1). -/
theorem rounded_cast_eq_floor (n d : Nat) (hd : 0 < d) : (rounded n d : Int) = ⌊(n : ℚ) / d + 1 / 2⌋ := by
  rw [rounded_eq_floor n d hd]
  exact Int.toNat_of_nonneg (Int.floor_nonneg.mpr (by positivity))

/-- Settles O21: a negative numerator gives 0, and any other is rounded once and bounded above. -/
theorem supplyFractionExact : Obligations.SupplyFractionExact := by
  intro c ps pt supply u w n d f
  have hub := hubShare_le c
  have square : 0 < ps * ps := Nat.mul_pos supply supply
  have denominator : d = ((10000 - 2 * c.hubShare) * (ps * ps + pt * pt) : Nat) := by
    push_cast [show 2 * c.hubShare ≤ 10000 by omega]
    rfl
  have positive : 0 < (10000 - 2 * c.hubShare) * (ps * ps + pt * pt) := Nat.mul_pos (by omega) (by omega)
  have numerator : n = (10000 * (ps * ps) : Nat) - (c.hubShare * (ps * ps + pt * pt) : Nat) := by
    push_cast
    rfl
  have bounded : f ≤ 10000 := by
    simp only [f, supplyFraction]
    split
    · decide
    · exact_mod_cast Nat.min_le_left ..
  refine ⟨by omega, fun low => ?_, fun high => ?_, Int.natCast_nonneg _, bounded⟩
  · have below : 10000 * (ps * ps) < c.hubShare * (ps * ps + pt * pt) := by omega
    simp only [f, supplyFraction, below, if_true, Nat.cast_zero]
  · have enough : c.hubShare * (ps * ps + pt * pt) ≤ 10000 * (ps * ps) := by omega
    have whole : n = (10000 * (ps * ps) - c.hubShare * (ps * ps + pt * pt) : Nat) := by omega
    have quotient := rounded_cast_eq_floor (10000 * (10000 * (ps * ps) - c.hubShare * (ps * ps + pt * pt))) _ positive
    simp only [f, supplyFraction, Nat.not_lt.mpr enough, if_false]
    rw [whole, denominator]
    push_cast at quotient ⊢
    rw [← quotient]

end Sys2Proof.Machine
end

section
/-! O20: a reel pulse (R30, R31). The reel's measurement takes the pulse, and nothing that follows on it, neither the computations with the
watches and the scheduler behind them nor the end of the event, touches the reels again (`ReelsStand`). -/

namespace Sys2Proof.Machine

set_option Elab.async false

variable {b s t u : State} {m : ReelMeter} {r : Reel} {i : Nat}

/-! ### The interval list (R30) -/

/-- The list holds the last three intervals with the new one. -/
theorem ReelMeter.append_eq (m : ReelMeter) (i : Nat) : m.append i = m.intervals.drop (m.intervals.length - 3) ++ [i] := by
  have drop : (m.intervals ++ [i]).length - 4 = m.intervals.length - 3 := by simp
  rw [ReelMeter.append, drop, List.drop_append_of_le_length (by omega)]

theorem ReelMeter.append_short (h : m.intervals.length < 4) : m.append i = m.intervals ++ [i] := by
  have all : m.intervals.length - 3 = 0 := by omega
  rw [ReelMeter.append_eq, all, List.drop_zero]

theorem ReelMeter.append_full (h : m.intervals.length = 4) : m.append i = m.intervals.tail ++ [i] := by
  rw [ReelMeter.append_eq, h, List.drop_one]

theorem ReelMeter.periodOf_four (h : m.intervals.length = 3 ∨ m.intervals.length = 4) :
    periodOf (m.append i) = some (m.append i).sum := by
  have four : (m.append i).length = 4 := by rw [ReelMeter.append_eq]; simp; omega
  rw [periodOf, if_pos four]

theorem ReelMeter.periodOf_short (h : m.intervals.length < 3) : periodOf (m.append i) = none := by
  have few : (m.append i).length ≠ 4 := by rw [ReelMeter.append_short (by omega)]; simp; omega
  rw [periodOf, if_neg few]

/-- The measurement after a pulse that comes at a time: noise leaves it as it was (R30, log 21). -/
def ReelMeter.after (m : ReelMeter) (interval now : Nat) : ReelMeter := if m.noise interval then m else m.accept interval now

theorem ReelMeter.after_closed (h : m.opened = false) (now : Nat) :
    m.after i now = { m with opened := true, state := .collecting, lastAccepted := now } := by
  simp [ReelMeter.after, ReelMeter.noise, ReelMeter.accept, h]

theorem ReelMeter.after_short (h : m.opened = true) (hl : m.intervals.length < 3) (now : Nat) :
    m.after i now = { m with intervals := m.intervals ++ [i], lastAccepted := now } := by
  simp only [ReelMeter.after, ReelMeter.noise, ReelMeter.accept, h, ReelMeter.periodOf_short hl, Option.any_none, Bool.and_false,
    Bool.false_eq_true, if_false, if_true]
  rw [ReelMeter.append_short (by omega)]

theorem ReelMeter.noise_iff (h : m.opened = true) (hl : m.intervals.length = 3 ∨ m.intervals.length = 4) :
    m.noise i = true ↔ (m.append i).sum < 40 := by
  simp [ReelMeter.noise, h, ReelMeter.periodOf_four hl]

theorem ReelMeter.after_noise (h : m.opened = true) (hl : m.intervals.length = 3 ∨ m.intervals.length = 4)
    (hp : (m.append i).sum < 40) (now : Nat) : m.after i now = m := if_pos ((ReelMeter.noise_iff h hl).mpr hp)

theorem ReelMeter.after_four (h : m.opened = true) (hl : m.intervals.length = 3 ∨ m.intervals.length = 4)
    (hp : 40 ≤ (m.append i).sum) (now : Nat) : m.after i now =
      if (m.append i).sum ≤ 60000 then
        { m with intervals := m.append i, period := (m.append i).sum, state := .valid, lastAccepted := now }
      else { m with intervals := m.append i, period := 60000, state := .slow, lastAccepted := now } := by
  have heard : ¬ m.noise i = true := fun e => absurd ((ReelMeter.noise_iff h hl).mp e) (by omega)
  rw [ReelMeter.after, if_neg heard]
  simp only [ReelMeter.accept, h, if_true, ReelMeter.periodOf_four hl]

/-! ### What leaves the reels alone -/

/-- From one state to another the time stands, the reels are as they were, and no DECK_RESET sequence has ended. -/
structure ReelsStand (s t : State) : Prop where
  now      : t.now = s.now
  supply   : t.tape.supply = s.tape.supply
  takeUp   : t.tape.takeUp = s.tape.takeUp
  sequence : t.transport.resetInFlight = s.transport.resetInFlight

namespace ReelsStand

theorem refl (s : State) : ReelsStand s s := ⟨rfl, rfl, rfl, rfl⟩

theorem trans (h : ReelsStand s t) (k : ReelsStand t u) : ReelsStand s u :=
  ⟨k.now.trans h.now, k.supply.trans h.supply, k.takeUp.trans h.takeUp, k.sequence.trans h.sequence⟩

theorem of {l : List Part} (h : KeepsBut l s t) (sequence : t.transport.resetInFlight = s.transport.resetInFlight)
    (ht : Part.time ∉ l := by decide) (hr : Part.reels ∉ l := by decide) : ReelsStand s t :=
  ⟨(h.same .time ht).1, (h.same .reels hr).1, (h.same .reels hr).2, sequence⟩

/-- A change outside the time, the reels and the transport. -/
theorem keeps {l : List Part} (h : KeepsBut l s t) (ht : Part.time ∉ l := by decide) (hr : Part.reels ∉ l := by decide)
    (hp : Part.transport ∉ l := by decide) : ReelsStand s t := of h (by rw [h.transport hp]) ht hr

theorem reel (h : ReelsStand s t) : ∀ r : Reel, t.reel r = s.reel r
  | .supply => h.supply
  | .takeUp => h.takeUp

end ReelsStand

/-! ### Targets (R4, R6) -/

theorem beginMech_resetInFlight (k : MechStep) (s : State) :
    (beginMech k s).transport.resetInFlight = s.transport.resetInFlight := by
  have goes : k.mode ≠ .stop ∧ k.mode ≠ .empty ∧ k.mode ≠ .fault := by cases k <;> decide
  simp [beginMech, enterMode_transport, Transport.reached, bne, beq_eq_false_iff_ne.mpr, goes]

theorem choosePath_resetInFlight (s : State) : (choosePath s).transport.resetInFlight = s.transport.resetInFlight := by
  have dropped : (dropTarget s).transport.resetInFlight = s.transport.resetInFlight := by simp [dropTarget]
  unfold choosePath
  repeat' split
  all_goals first
    | rfl
    | exact beginMech_resetInFlight ..
    | exact dropped

theorem noteChange_transport (old : Transport) (s : State) : (noteChange old s).transport = s.transport :=
  (noteChange_keeps old s).transport

theorem setTarget_resetInFlight (m : Mode) (c : Option StopCause) (s : State) :
    (setTarget m c s).transport.resetInFlight = s.transport.resetInFlight := by
  simp only [setTarget]
  repeat' split
  · rfl
  · rw [noteChange_transport]
  · rw [choosePath_resetInFlight]
  · rw [noteChange_transport, choosePath_resetInFlight]

theorem setTarget_reels (m : Mode) (c : Option StopCause) (s : State) : ReelsStand s (setTarget m c s) :=
  .of (setTarget_still m c s) (setTarget_resetInFlight m c s)

/-! ### Watches and programs (R78, R168) -/

theorem withWatch_keeps (n : Nat) (w : Option Watch) (s : State) : KeepsBut [.nav, .sending] s (s.withWatch n w) := by
  refine ⟨fun q hq => ?_⟩
  cases q <;> simp_all [SamePart, State.withWatch]

theorem matchWatch_keeps (n : Nat) (w : Watch) (f : Firing) (a : Fired) :
    KeepsBut [.nav, .sending] a.state (matchWatch n w f a).state := by
  unfold matchWatch
  split
  · exact KeepsBut.after ((post_keeps ..).mono (by simp)) (withWatch_keeps ..)
  · exact withWatch_keeps ..

theorem remainPlace_keeps (left : Nat) (a : Fired) (n : Nat) : KeepsBut [.nav, .sending] a.state (remainPlace left a n).state := by
  simp only [remainPlace]
  repeat' split
  all_goals first
    | exact .refl _ _
    | exact matchWatch_keeps ..
    | exact withWatch_keeps ..

theorem remainPlaces_keeps (left : Nat) (l : List Nat) (a : Fired) :
    KeepsBut [.nav, .sending] a.state (l.foldl (remainPlace left) a).state := by
  induction l generalizing a with
  | nil => exact .refl _ _
  | cons n l ih => exact (remainPlace_keeps left a n).trans (ih _)

theorem giveAction_reels (a : Fired) : ReelsStand a.state (giveAction a) := by
  unfold giveAction
  split
  · exact .refl _
  · exact (setTarget_reels ..).trans (.keeps (releaseIfStill_keeps _))
  · exact setTarget_reels ..
  · exact setTarget_reels ..

theorem evaluateRemain_reels (s : State) : ReelsStand s (evaluateRemain s) := by
  unfold evaluateRemain
  split
  · exact (ReelsStand.keeps (remainPlaces_keeps _ watchPlaces { state := s, action := .note })).trans (giveAction_reels _)
  · exact .refl s

theorem putProgram_keeps (n : Nat) (p : Program) (s : State) : KeepsBut [.sched, .sending] s (putProgram n p s) := by
  have slot : KeepsBut [.sched] s (s.withSlot n (some p)) := by
    refine ⟨fun q hq => ?_⟩
    cases q <;> simp_all [SamePart, State.withSlot]
  simp only [putProgram]
  split
  · exact (slot.mono (by simp)).trans ((postProg_keeps ..).mono (by simp))
  · exact slot.mono (by simp)

theorem setShortTape_reels (n : Nat) (s : State) : ReelsStand s (setShortTape n s) := by
  unfold setShortTape
  split
  · exact .keeps (putProgram_keeps ..)
  · exact .refl s

theorem withActive_reels (a : Option Active) (s : State) : ReelsStand s { s with sched.active := a } := ⟨rfl, rfl, rfl, rfl⟩

theorem changeSpeed_reels (v : Speed) (s : State) : ReelsStand s (changeSpeed v s) :=
  (withActive_reels _ s).trans (setTarget_reels ..)

theorem evaluateFit_reels (s : State) : ReelsStand s (evaluateFit s) := by
  unfold evaluateFit
  split
  · next a p v _ _ =>
    have chosen : ∀ c : Bool, ReelsStand s (if c then setShortTape a.slot { s with sched.active := some { a with choicePending := false } }
        else { s with sched.active := some { a with choicePending := false } }) := fun c => by
      split
      · exact (withActive_reels _ s).trans (setShortTape_reels ..)
      · exact withActive_reels _ s
    dsimp only
    split
    · split
      · split
        · exact chosen _
        · exact (chosen _).trans (changeSpeed_reels ..)
      · repeat' split
        all_goals first
          | exact .refl s
          | exact setShortTape_reels ..
          | exact changeSpeed_reels ..
    · exact .refl s
  · exact .refl s

/-! ### The computations of a refresh (R33, R36) -/

theorem withEstimate_keeps {p : TapePosition} (supply : p.supply = s.tape.supply) (takeUp : p.takeUp = s.tape.takeUp)
    (counter : p.counter = s.tape.counter) (quality : p.quality = s.tape.quality) (span : p.spanStart = s.tape.spanStart) :
    KeepsBut [.estimate, .sending] s { s with tape := p } := by
  refine ⟨fun q hq => ?_⟩
  cases q <;> simp_all [SamePart]

theorem identify_keeps (c : CassetteClass) (s : State) : KeepsBut [.estimate, .sending] s (identify c s) := by
  refine KeepsBut.after (postTape_keeps _) ?_
  exact withEstimate_keeps rfl rfl rfl rfl rfl

/-- The band of the identification sum of the two periods as they stand (R33, R34). -/
def State.sumBand (s : State) : Option CassetteClass :=
  classBand (identificationSum s.tape.supply.period s.tape.takeUp.period (s.capstanClass.getD .standard).sigma)

/-- The computations in a row that have given a band, with one more that gives it. -/
def State.bandCount (s : State) (c : CassetteClass) : Nat := if s.tape.candidate = some c then s.tape.idCount + 1 else 1

theorem identificationComputation_none (h : s.sumBand = none) : identificationComputation s =
    { s with tape.lastIdent := some s.now, tape.candidate := none, tape.idCount := 0 } := by
  simp only [State.sumBand] at h
  simp only [identificationComputation, h]

theorem identificationComputation_some {c : CassetteClass} (h : s.sumBand = some c) : identificationComputation s =
    if s.bandCount c = 5 then identify c { s with tape.lastIdent := some s.now }
    else { s with tape.lastIdent := some s.now, tape.candidate := some c, tape.idCount := s.bandCount c } := by
  simp only [State.sumBand] at h
  simp only [identificationComputation, h]
  rfl

theorem identificationComputation_keeps (s : State) : KeepsBut [.estimate, .sending] s (identificationComputation s) := by
  cases band : s.sumBand with
  | none => rw [identificationComputation_none band]; exact withEstimate_keeps rfl rfl rfl rfl rfl
  | some c =>
    rw [identificationComputation_some band]
    split
    · exact KeepsBut.after (identify_keeps ..) (withEstimate_keeps rfl rfl rfl rfl rfl)
    · exact withEstimate_keeps rfl rfl rfl rfl rfl

theorem refreshIdentification_keeps (s : State) : KeepsBut [.estimate, .sending] s (refreshIdentification s) := by
  unfold refreshIdentification
  split
  · exact identificationComputation_keeps s
  · exact .refl _ _

theorem estimateComputation_keeps (s : State) : KeepsBut [.estimate, .sending] s (estimateComputation s) := by
  have record : ∀ f, KeepsBut [.estimate, .sending] s
      { s with tape := { s.tape with fraction := f, held := false, lastEstimate := some s.now } } := fun _ =>
    withEstimate_keeps rfl rfl rfl rfl rfl
  simp only [estimateComputation]
  split
  · exact .refl _ _
  · split
    · exact (record _).trans (postTape_keeps _)
    · exact record _

theorem refreshed_reels (s : State) : ReelsStand s (refreshed s) := by
  simp only [refreshed]
  split
  · exact (ReelsStand.keeps (refreshIdentification_keeps s)).trans ((ReelsStand.keeps (estimateComputation_keeps _)).trans
      ((evaluateRemain_reels _).trans (evaluateFit_reels _)))
  · exact .keeps (refreshIdentification_keeps s)

theorem drift_keeps (s : State) : KeepsBut [.counter, .estimate, .nav, .sending] s (drift s) := by
  have record : KeepsBut [.counter, .nav] s
      { s with tape.quality := .drifted, nav.goto.drifted := s.nav.goto.drifted || s.nav.goto.active } := by
    refine ⟨fun q hq => ?_⟩
    cases q <;> simp_all [SamePart]
  simp only [drift]
  split
  · exact .refl _ _
  · exact (record.mono (by simp)).trans ((postTape_keeps _).mono (by simp))

theorem driftByReel_keeps (s : State) : KeepsBut [.counter, .estimate, .nav, .sending] s (driftByReel s) := by
  unfold driftByReel
  split
  · exact .refl _ _
  · split
    · exact drift_keeps s
    · exact .refl _ _

/-! ### The end of the event (R33, R38, R192) -/

theorem enterStandby_keeps (c : PowerCause) (s : State) :
    KeepsBut [.tuner, .scan, .tunerOf, .power, .sending] s (enterStandby c s) := by
  have cut : KeepsBut [.scan, .sending] s (cutScan .stopped (some .standby) s) := by
    unfold cutScan
    split
    · refine KeepsBut.after ((postScan_keeps _).mono (by simp)) ⟨fun q hq => ?_⟩
      cases q <;> simp_all [SamePart]
    · exact .refl _ _
  have off : ∀ v, KeepsBut [.tuner, .sending] v (tunerOff v) := fun v =>
    ((withTuner_keeps _ v).mono (by simp)).trans ((postTune_keeps _).mono (by simp))
  exact (cut.mono (by simp)).trans (((off _).mono (by simp)).trans (((dropOperatorTuner_keeps _).mono (by simp)).trans
    (((withPower_keeps _ _).mono (by simp)).trans ((postPower_keeps _).mono (by simp)))))

theorem checkStandby_reels (s : State) : ReelsStand s (checkStandby s) := by
  unfold checkStandby
  split
  · split
    · exact .keeps (enterStandby_keeps ..)
    · exact .refl s
  · exact .refl s

/-- An event that ends no DECK_RESET sequence leaves the reels to its end as it has made them. -/
theorem endDeckEvent_reels (h : u.transport.resetInFlight = b.transport.resetInFlight) : ReelsStand u (endDeckEvent b u) := by
  have ended : (b.transport.resetInFlight && !u.transport.resetInFlight) = false := by rw [h]; simp
  have settled : ReelsStand u (settleUnits b u) := by
    simp only [settleUnits, ended, Bool.false_eq_true, if_false]
    exact (ReelsStand.keeps (checkHeld_keeps u)).trans ((ReelsStand.keeps (checkIdentifying_keeps _)).trans (checkStandby_reels _))
  exact settled.trans (.keeps (chooseFrame_keeps _))

/-! ### The pulse (R30) -/

theorem reel_withReel_other {o : Reel} (h : o ≠ r) (m : ReelMeter) (s : State) : (s.withReel r m).reel o = s.reel o := by
  cases o <;> cases r <;> first | rfl | exact absurd rfl h

theorem pulseSeen_reels (r : Reel) (s : State) : ReelsStand s (pulseSeen r s) := ⟨rfl, rfl, rfl, rfl⟩

theorem pulseDrifted_reels (r : Reel) (s : State) : ReelsStand s (driftByReel (pulseSeen r s)) :=
  (pulseSeen_reels r s).trans (.keeps (driftByReel_keeps _))

theorem acceptPulse_reels (r : Reel) (i : Nat) (s : State) :
    ReelsStand (s.withReel r ((s.reel r).accept i s.now)) (acceptPulse r i s) := by
  have pulse := pulseDrifted_reels r (s.withReel r ((s.reel r).accept i s.now))
  simp only [acceptPulse]
  split
  · exact pulse.trans (refreshed_reels _)
  · exact pulse

/-- What a reel pulse makes of the time and the reels. -/
structure ReelPulsed (r : Reel) (i : Nat) (s t : State) : Prop where
  now   : t.now = max s.now (s.pulseTime r i)
  reel  : t.reel r = (s.reel r).after i (max s.now (s.pulseTime r i))
  other : ∀ o, o ≠ r → t.reel o = s.reel o

theorem reelPulsed_pulsed (r : Reel) (i : Nat) (s : State) : ReelPulsed r i s (reelPulsed r i s) ∧
    (reelPulsed r i s).transport.resetInFlight = s.transport.resetInFlight := by
  obtain ⟨v, hv⟩ : ∃ v, v = leapTo (s.pulseTime r i) s := ⟨_, rfl⟩
  have now : v.now = max s.now (s.pulseTime r i) := hv ▸ leapTo_now ..
  have reels : ∀ o, v.reel o = s.reel o := fun o => by rw [hv]; cases o <;> rfl
  have sequence : v.transport.resetInFlight = s.transport.resetInFlight := by rw [hv, leapTo_transport]
  have pulse : reelPulsed r i s = if (v.reel r).noise i then v else acceptPulse r i v := by rw [hv]; rfl
  rw [pulse]
  split
  · next noise => exact ⟨⟨now, by rw [reels, ReelMeter.after, if_pos (reels r ▸ noise)], fun o _ => reels o⟩, sequence⟩
  · next heard =>
    have accepted := acceptPulse_reels r i v
    refine ⟨⟨accepted.now.trans (by rw [withReel_now, now]), ?_, fun o ho => ?_⟩, accepted.sequence.trans (by rw [withReel_transport, sequence])⟩
    · rw [accepted.reel, reel_withReel, ReelMeter.after, if_neg (reels r ▸ heard), reels, now]
    · rw [accepted.reel, reel_withReel_other ho, reels]

theorem exec_reelPulse (hb : s.power.state ≠ .backup) (hc : s.transport.cassettePresent = true) (r : Reel) (i : Nat) :
    exec (.reelPulse r i) s = .next (endDeckEvent s (reelPulsed r i s)) := by
  show Host.Outcome.next (if s.transport.cassettePresent then deckEvent (reelPulsed r i) s else s) = _
  rw [if_pos hc, deckEvent_running hb]

theorem exec_reelPulse_pulsed (hb : s.power.state ≠ .backup) (hc : s.transport.cassettePresent = true) (r : Reel) (i : Nat) :
    ∃ t, exec (.reelPulse r i) s = .next t ∧ ReelPulsed r i s t := by
  obtain ⟨⟨now, reel, other⟩, sequence⟩ := reelPulsed_pulsed r i s
  have ended := endDeckEvent_reels sequence
  exact ⟨_, exec_reelPulse hb hc r i, ended.now.trans now, (ended.reel r).trans reel, fun o ho => (ended.reel o).trans (other o ho)⟩

theorem pulseTime_closed (h : (s.reel r).opened = false) (i : Nat) : s.pulseTime r i = s.now := by simp [State.pulseTime, h]

theorem pulseTime_opened (h : (s.reel r).opened = true) (i : Nat) : s.pulseTime r i = (s.reel r).lastAccepted + i * 6144 := by
  simp [State.pulseTime, h, Config.reelTick]

/-- Settles O20: the pulse comes at its interval's end, and the measurement takes it by the length of its list. -/
theorem reelPulseCounted : Obligations.ReelPulseCounted := by
  intro s hb hc r m other
  have apart : other ≠ r := by cases r <;> simp [other]
  refine ⟨fun closed i => ?_, fun opened i ahead => ?_⟩
  · obtain ⟨t, exec_t, pulse⟩ := exec_reelPulse_pulsed hb hc r i
    have time : max s.now (s.pulseTime r i) = s.now := by rw [pulseTime_closed closed, max_self]
    exact ⟨t, exec_t, pulse.now.trans time, by rw [pulse.reel, time]; exact ReelMeter.after_closed closed _, pulse.other _ apart⟩
  · intro four at_
    obtain ⟨t, exec_t, pulse⟩ := exec_reelPulse_pulsed hb hc r i
    have time : max s.now (s.pulseTime r i) = at_ := by rw [pulseTime_opened opened, max_eq_right ahead]
    have list : m.intervals.length = 3 ∨ m.intervals.length = 4 → m.append i = four := by
      rintro (three | full)
      · simp only [four, three, if_neg (show ¬ (3 = 4) by decide)]
        exact ReelMeter.append_short (by omega)
      · simp only [four, full, if_true]
        exact ReelMeter.append_full full
    have reel : t.reel r = m.after i at_ := time ▸ pulse.reel
    refine ⟨t, exec_t, pulse.now.trans time, pulse.other _ apart, fun short => reel.trans (ReelMeter.after_short opened short _),
      fun full => ⟨fun noise => ?_, fun low high => ?_, fun slow => ?_⟩⟩ <;> rw [reel]
    · exact ReelMeter.after_noise opened full (list full ▸ noise) _
    · rw [ReelMeter.after_four opened full (list full ▸ low), list full, if_pos high]
    · rw [ReelMeter.after_four opened full (by rw [list full]; omega), list full, if_neg (by omega)]

end Sys2Proof.Machine
end

section
/-! O22, O23: a reel pulse that refreshes a period to VALID beside a VALID one (R33, R34, R36, R37). The pulse is taken first
(`State.pulseTaken`); the identification computation and the estimate computation work on what it leaves, and while no watch waits and no
program is active nothing else follows. -/

namespace Sys2Proof.Machine

set_option Elab.async false

variable {b s t u w : State} {r : Reel} {i : Nat} {c : CassetteClass} {v : Speed}

/-! ### The pulse taken -/

/-- The period that a pulse after three or four intervals makes (R30). -/
def ReelMeter.freshPeriod (m : ReelMeter) (i : Nat) : Nat := (m.intervals.drop (m.intervals.length - 3)).sum + i

theorem ReelMeter.sum_append (m : ReelMeter) (i : Nat) : (m.append i).sum = m.freshPeriod i := by
  rw [ReelMeter.append_eq, List.sum_append, List.sum_singleton, ReelMeter.freshPeriod]

/-- The measurement as a pulse makes its period VALID. -/
def ReelMeter.refreshedBy (m : ReelMeter) (i now : Nat) : ReelMeter :=
  { m with intervals := m.append i, period := m.freshPeriod i, state := .valid, lastAccepted := now }

/-- A pulse that refreshes a reel's period to a valid one beside a valid one, in a machine where nothing waits for the estimate. -/
structure RefreshingPulse (s : State) (r : Reel) (i : Nat) : Prop where
  running  : s.power.state ≠ .backup
  cassette : s.transport.cassettePresent = true
  programs : NoPrograms s
  watches  : NoWatches s
  sequence : s.transport.resetInFlight = false
  stays    : NotStopping s
  opened   : (s.reel r).opened = true
  four     : (s.reel r).intervals.length = 3 ∨ (s.reel r).intervals.length = 4
  low      : 40 ≤ (s.reel r).freshPeriod i
  high     : (s.reel r).freshPeriod i ≤ 60000
  ahead    : s.now ≤ (s.reel r).lastAccepted + i * 6144
  other    : ∀ o, o ≠ r → (s.reel o).state = .valid

/-- The time at the end of the interval. -/
def State.intervalEnd (s : State) (r : Reel) (i : Nat) : Nat := (s.reel r).lastAccepted + i * 6144

/-- The state in which the computations of a refresh begin. -/
def State.pulseTaken (s : State) (r : Reel) (i : Nat) : State :=
  driftByReel (pulseSeen r ((leapTo (s.intervalEnd r i) s).withReel r ((s.reel r).refreshedBy i (s.intervalEnd r i))))

theorem leapTo_reel (n : Nat) (s : State) : ∀ r : Reel, (leapTo n s).reel r = s.reel r
  | .supply => rfl
  | .takeUp => rfl

theorem RefreshingPulse.refreshed (h : RefreshingPulse s r i) : reelPulsed r i s = Machine.refreshed (s.pulseTaken r i) := by
  have time : s.pulseTime r i = s.intervalEnd r i := pulseTime_opened h.opened i
  have now : (leapTo (s.intervalEnd r i) s).now = s.intervalEnd r i := leapTo_now_of_le h.ahead
  have sum := ReelMeter.sum_append (s.reel r) i
  have heard : ¬ (s.reel r).noise i = true := fun e => absurd ((ReelMeter.noise_iff h.opened h.four).mp e) (sum ▸ Nat.not_lt.mpr h.low)
  have taken : (s.reel r).accept i (s.intervalEnd r i) = (s.reel r).refreshedBy i (s.intervalEnd r i) := by
    have accepted := ReelMeter.after_four h.opened h.four (sum ▸ h.low) (s.intervalEnd r i)
    rwa [ReelMeter.after, if_neg heard, if_pos (sum ▸ h.high), sum] at accepted
  have refreshes : (s.reel r).refreshes i = true := by simp [ReelMeter.refreshes, h.opened, ReelMeter.periodOf_four h.four]
  simp only [reelPulsed, time, leapTo_reel, acceptPulse, now, taken, refreshes, heard, if_true, Bool.false_eq_true, if_false]
  rfl

/-! ### What the pulse leaves as it was -/

theorem drift_tape (s : State) : ∃ q n p, (drift s).tape = { s.tape with quality := q, lastReport := n, reportPeriod := p } := by
  simp only [drift]
  split
  · exact ⟨s.tape.quality, s.tape.lastReport, s.tape.reportPeriod, rfl⟩
  · exact ⟨.drifted, s.now, s.link.period, by simp⟩

theorem drift_watches (s : State) : (drift s).nav.watches = s.nav.watches := by
  simp only [drift]
  split
  · rfl
  · simp

theorem driftByReel_tape (s : State) :
    ∃ q n p, (driftByReel s).tape = { s.tape with quality := q, lastReport := n, reportPeriod := p } := by
  have stays : ∃ q n p, s.tape = { s.tape with quality := q, lastReport := n, reportPeriod := p } :=
    ⟨s.tape.quality, s.tape.lastReport, s.tape.reportPeriod, rfl⟩
  unfold driftByReel
  split
  · exact stays
  · split
    · exact drift_tape s
    · exact stays

theorem driftByReel_watches (s : State) : (driftByReel s).nav.watches = s.nav.watches := by
  unfold driftByReel
  split
  · rfl
  · split
    · exact drift_watches s
    · rfl

theorem withReel_keeps (r : Reel) (m : ReelMeter) (s : State) : KeepsBut [.reels] s (s.withReel r m) := by
  refine ⟨fun q hq => ?_⟩
  cases r <;> cases q <;> simp_all [SamePart, State.withReel]

theorem pulseSeen_keeps (r : Reel) (s : State) : KeepsBut [.transport] s (pulseSeen r s) := withTransport_keeps _ s

theorem pulseTaken_keeps (s : State) (r : Reel) (i : Nat) :
    KeepsBut [.time, .transport, .counter, .reels, .estimate, .nav, .sending] s (s.pulseTaken r i) := by
  refine KeepsBut.after ((driftByReel_keeps _).mono (by simp)) ?_
  refine KeepsBut.after ((pulseSeen_keeps r _).mono (by simp)) ?_
  exact KeepsBut.after ((withReel_keeps r ..).mono (by simp)) ((leapTo_keeps _ s).mono (by simp))

theorem pulseTaken_transport (s : State) (r : Reel) (i : Nat) :
    ∃ a b, (s.pulseTaken r i).transport = { s.transport with lastReelPulse := a, lastTakeUpPulse := b } := by
  rw [State.pulseTaken, (driftByReel_keeps _).transport]
  cases r <;> exact ⟨_, _, rfl⟩

/-- What is known of the cassette and the estimate is the same. -/
structure EstimateStands (s t : State) : Prop where
  cls          : t.tape.cls = s.tape.cls
  origin       : t.tape.origin = s.tape.origin
  candidate    : t.tape.candidate = s.tape.candidate
  idCount      : t.tape.idCount = s.tape.idCount
  lastIdent    : t.tape.lastIdent = s.tape.lastIdent
  fraction     : t.tape.fraction = s.tape.fraction
  held         : t.tape.held = s.tape.held
  lastEstimate : t.tape.lastEstimate = s.tape.lastEstimate

theorem pulseTaken_estimate (s : State) (r : Reel) (i : Nat) : EstimateStands s (s.pulseTaken r i) := by
  obtain ⟨q, n, p, tape⟩ := driftByReel_tape
    (pulseSeen r ((leapTo (s.intervalEnd r i) s).withReel r ((s.reel r).refreshedBy i (s.intervalEnd r i))))
  rw [← State.pulseTaken] at tape
  constructor <;> rw [tape] <;> cases r <;> rfl

theorem pulseTaken_reels (s : State) (r : Reel) (i : Nat) :
    (s.pulseTaken r i).now = max s.now (s.intervalEnd r i) ∧
      (s.pulseTaken r i).reel r = (s.reel r).refreshedBy i (s.intervalEnd r i) ∧ ∀ o, o ≠ r → (s.pulseTaken r i).reel o = s.reel o := by
  have stand := pulseDrifted_reels r ((leapTo (s.intervalEnd r i) s).withReel r ((s.reel r).refreshedBy i (s.intervalEnd r i)))
  rw [← State.pulseTaken] at stand
  refine ⟨by rw [stand.now, withReel_now, leapTo_now], by rw [stand.reel, reel_withReel], fun o apart => ?_⟩
  rw [stand.reel, reel_withReel_other apart, leapTo_reel]

theorem bothValid_of (h : (s.reel r).state = .valid) (ho : ∀ o, o ≠ r → (s.reel o).state = .valid) : s.bothValid = true := by
  have all : ∀ o, (s.reel o).state = .valid := fun o => by
    by_cases same : o = r
    · rwa [same]
    · exact ho o same
  have supply : s.tape.supply.state = .valid := all .supply
  have takeUp : s.tape.takeUp.state = .valid := all .takeUp
  simp [State.bothValid, supply, takeUp]

/-- The pulse leaves both periods VALID and the rest of the computations' conditions as they were. -/
structure PulseTaken (s : State) (r : Reel) (i : Nat) (w : State) : Prop where
  keeps     : KeepsBut [.time, .transport, .counter, .reels, .estimate, .nav, .sending] s w
  estimate  : EstimateStands s w
  now       : w.now = s.intervalEnd r i
  reel      : w.reel r = (s.reel r).refreshedBy i (s.intervalEnd r i)
  other     : ∀ o, o ≠ r → w.reel o = s.reel o
  valid     : w.bothValid = true
  transport : ∃ a b, w.transport = { s.transport with lastReelPulse := a, lastTakeUpPulse := b }
  watches   : NoWatches w
  programs  : NoPrograms w
  stays     : NotStopping w
  running   : w.power.state ≠ .backup

theorem RefreshingPulse.taken (h : RefreshingPulse s r i) : PulseTaken s r i (s.pulseTaken r i) := by
  have keeps := pulseTaken_keeps s r i
  obtain ⟨now, reel, other⟩ := pulseTaken_reels s r i
  exact {
    keeps, reel, other
    now := now.trans (max_eq_right h.ahead)
    estimate := pulseTaken_estimate s r i
    valid := bothValid_of (r := r) (by rw [reel]; rfl) fun o apart => by rw [other o apart]; exact h.other o apart
    transport := pulseTaken_transport s r i
    watches := by
      have same : (s.pulseTaken r i).nav.watches = s.nav.watches := by
        rw [State.pulseTaken, driftByReel_watches]
        cases r <;> rfl
      exact fun x hx => h.watches x (same ▸ hx)
    programs := h.programs.of keeps.sched
    stays := NotStopping.of h.stays keeps.power
    running := by rw [keeps.power]; exact h.running }

theorem PulseTaken.supply_periods (h : PulseTaken s .supply i w) :
    w.tape.supply.period = (s.reel .supply).freshPeriod i ∧ w.tape.takeUp.period = s.tape.takeUp.period :=
  ⟨congrArg ReelMeter.period h.reel, congrArg ReelMeter.period (h.other .takeUp (by decide))⟩

theorem PulseTaken.takeUp_periods (h : PulseTaken s .takeUp i w) :
    w.tape.supply.period = s.tape.supply.period ∧ w.tape.takeUp.period = (s.reel .takeUp).freshPeriod i :=
  ⟨congrArg ReelMeter.period (h.other .supply (by decide)), congrArg ReelMeter.period h.reel⟩

theorem PulseTaken.capstanClass (h : PulseTaken s r i w) : w.capstanClass = s.capstanClass := by
  obtain ⟨a, b, transport⟩ := h.transport
  simp only [State.capstanClass, transport]

theorem PulseTaken.motion (h : PulseTaken s r i w) : w.transport.mode.motion = s.transport.mode.motion := by
  obtain ⟨a, b, transport⟩ := h.transport
  rw [transport]

/-! ### The estimate (R36, R37) -/

theorem estimateComputation_tape (h : s.tape.cls = some c) : ∃ n p, (estimateComputation s).tape = { s.tape with
    fraction := some (supplyFraction s.tape.supply.period s.tape.takeUp.period c.hubShare), held := false, lastEstimate := some s.now,
    lastReport := n, reportPeriod := p } := by
  simp only [estimateComputation, h]
  split
  · exact ⟨s.now, s.link.period, by simp⟩
  · exact ⟨s.tape.lastReport, s.tape.reportPeriod, rfl⟩

theorem estimateComputation_noted (hb : s.power.state ≠ .backup) (h : s.tape.cls = some c)
    (noted : s.tape.fraction = none ∨ s.tape.held = true ∨ TapeNoted s) : TapeNoted (estimateComputation s) := by
  simp only [estimateComputation, h]
  split
  · exact postTape_noted hb
  · next silent =>
    rcases noted with absent | held | waits
    · simp [absent] at silent
    · simp [held] at silent
    · exact waits.of

theorem estimateComputation_watches (s : State) : (estimateComputation s).nav.watches = s.nav.watches := by
  simp only [estimateComputation]
  repeat' split
  all_goals simp

theorem identify_watches (c : CassetteClass) (s : State) : (identify c s).nav.watches = s.nav.watches := by simp [identify]

theorem refreshIdentification_watches (s : State) : (refreshIdentification s).nav.watches = s.nav.watches := by
  have computation : (identificationComputation s).nav.watches = s.nav.watches := by
    cases band : s.sumBand with
    | none => rw [identificationComputation_none band]
    | some c =>
      rw [identificationComputation_some band]
      split
      · exact identify_watches ..
      · rfl
  unfold refreshIdentification
  split
  · exact computation
  · rfl

theorem evaluateFit_idle (h : NoPrograms s) : evaluateFit s = s := by
  unfold evaluateFit
  split
  · next active _ => rw [h.activeProgram] at active; cases active
  · rfl

/-- An estimate that nothing waits for. -/
theorem evaluated_idle (hw : NoWatches s) (hp : NoPrograms s) :
    evaluateFit (evaluateRemain (estimateComputation s)) = estimateComputation s := by
  have none : NoWatches (estimateComputation s) := fun x hx => hw x (estimateComputation_watches s ▸ hx)
  rw [evaluateRemain_idle none, evaluateFit_idle (hp.of (estimateComputation_keeps s).sched)]

/-! ### The end of the event -/

/-- With both periods VALID an event's end holds no estimate; it can but give up an identification. -/
theorem endDeckEvent_bothValid (hr : b.transport.resetInFlight = false ∨ u.transport.resetInFlight = true) (hn : NotStopping u)
    (hv : u.bothValid = true) : endDeckEvent b u = chooseFrame (checkIdentifying u) := by
  have held : u.heldDue = false := by simp [State.heldDue, hv]
  rw [endDeckEvent, settleUnits_eq hr hn, checkHeld_of_not held]

theorem RefreshingPulse.exec (h : RefreshingPulse s r i) :
    Machine.exec (.reelPulse r i) s = .next (endDeckEvent s (Machine.refreshed (s.pulseTaken r i))) := by
  rw [exec_reelPulse h.running h.cassette, h.refreshed]

theorem refreshed_idle (hw : NoWatches s) (hp : NoPrograms s) : refreshed s =
    if (refreshIdentification s).estimateDue then estimateComputation (refreshIdentification s) else refreshIdentification s := by
  have watches : NoWatches (refreshIdentification s) := fun x hx => hw x (refreshIdentification_watches s ▸ hx)
  have programs := hp.of (refreshIdentification_keeps s).sched
  simp only [refreshed, evaluated_idle watches programs]

theorem refreshed_keeps (hw : NoWatches s) (hp : NoPrograms s) : KeepsBut [.estimate, .sending] s (refreshed s) := by
  rw [refreshed_idle hw hp]
  split
  · exact (refreshIdentification_keeps s).trans (estimateComputation_keeps _)
  · exact refreshIdentification_keeps s

/-- The state of a refresh at its event's end. -/
structure RefreshEnded (s w t : State) : Prop where
  ends    : t = chooseFrame (checkIdentifying (refreshed w))
  reels   : ReelsStand w t
  keeps   : KeepsBut [.time, .transport, .counter, .reels, .estimate, .nav, .sending] s t

theorem RefreshingPulse.ended (h : RefreshingPulse s r i) : ∃ w t, PulseTaken s r i w ∧ Machine.exec (.reelPulse r i) s = .next t ∧
    RefreshEnded s w t := by
  have taken := h.taken
  have keeps := refreshed_keeps taken.watches taken.programs
  have sequence : s.transport.resetInFlight = false ∨ (Machine.refreshed (s.pulseTaken r i)).transport.resetInFlight = true := .inl h.sequence
  have stays := taken.stays.of keeps.power
  have valid : (Machine.refreshed (s.pulseTaken r i)).bothValid = true := by
    rw [← taken.valid]
    simp only [State.bothValid, (keeps.same .reels (by decide)).1, (keeps.same .reels (by decide)).2]
  refine ⟨s.pulseTaken r i, _, taken, h.exec, endDeckEvent_bothValid sequence stays valid, ?_, ?_⟩
  · exact (ReelsStand.keeps keeps).trans (.keeps (endDeckEvent_keeps sequence stays))
  · exact taken.keeps.trans ((keeps.trans (endDeckEvent_keeps sequence stays)).mono (by simp))

theorem other_valid (hs : r = .supply → s.tape.takeUp.state = .valid) (ht : r = .takeUp → s.tape.supply.state = .valid) :
    ∀ o, o ≠ r → (s.reel o).state = .valid := by
  intro o apart
  cases r with
  | supply =>
    cases o with
    | supply => exact absurd rfl apart
    | takeUp => exact hs rfl
  | takeUp =>
    cases o with
    | supply => exact ht rfl
    | takeUp => exact absurd rfl apart

/-! ### O22 -/

theorem refreshIdentification_of_not (h : s.identifying = false) : refreshIdentification s = s := by simp [refreshIdentification, h]

theorem not_identifying_of_known (h : s.tape.cls = some c) : s.identifying = false := by simp [State.identifying, h]

/-- Settles O22: with the class known the refresh makes no identification, and the estimate is computed from the periods as they are. -/
theorem estimateComputed : Obligations.EstimateComputed := by
  intro s hb hc hm hp hw hr hn c known r i m at_ p opened four low high ahead second supply takeUp
  have pulse : RefreshingPulse s r i :=
    { running := hb, cassette := hc, programs := hp, watches := hw, sequence := hr, stays := hn, opened, four, low, high, ahead
      other := other_valid supply takeUp }
  obtain ⟨w, t, taken, exec_t, ended⟩ := pulse.ended
  obtain ⟨a, b, transport⟩ := taken.transport
  have cls : w.tape.cls = some c := taken.estimate.cls.trans known
  have due : w.estimateDue = true := by
    have passed : secondPassed w.tape.lastEstimate w.now = true := by rw [taken.estimate.lastEstimate, taken.now]; exact second
    simp [State.estimateDue, State.estimating, cls, taken.valid, passed, transport, hm]
  have computed : refreshed w = estimateComputation w := by
    rw [refreshed_idle taken.watches taken.programs, refreshIdentification_of_not (not_identifying_of_known cls), if_pos due]
  obtain ⟨n, q, tape⟩ := estimateComputation_tape cls
  have class_computed : (estimateComputation w).tape.cls = some c := by rw [tape]; exact cls
  have ends : t = chooseFrame (forgetCandidate (estimateComputation w)) := by
    rw [ended.ends, computed, checkIdentifying_of_not (not_identifying_of_known class_computed)]
  refine ⟨t, exec_t, ?_, ?_, ?_, ?_, fun noted => ?_, ended.keeps⟩
  · rw [ends, chooseFrame_tape, forgetCandidate, tape]
    cases r with
    | supply => rw [taken.supply_periods.1, taken.supply_periods.2]; rfl
    | takeUp => rw [taken.takeUp_periods.1, taken.takeUp_periods.2]; rfl
  · rw [ends, chooseFrame_tape, forgetCandidate, tape]
  · rw [ends, chooseFrame_tape, forgetCandidate, tape, taken.now]
    rfl
  · rw [ends, chooseFrame_tape]
    exact class_computed
  · rw [ends]
    refine TapeNoted.announced (TapeNoted.of (estimateComputation_noted taken.running cls ?_))
    rw [taken.estimate.fraction, taken.estimate.held]
    exact noted.imp_right .inl

/-! ### O23 -/

theorem Speed.sigma_pos : ∀ v : Speed, 0 < v.sigma
  | .standard => by decide
  | .long => by decide
  | .extended => by decide

/-- The identification sum as the rules write it (R33). -/
theorem identificationSum_eq_floor (ps pt : Nat) (v : Speed) :
    let q := fun p : Nat => ⌊(p : ℚ) / v.sigma + 1 / 2⌋.toNat
    identificationSum ps pt v.sigma = ⌊((q ps * q ps + q pt * q pt : Nat) : ℚ) / 1000 + 1 / 2⌋.toNat := by
  intro q
  have share : ∀ p, rounded p v.sigma = q p := fun p => rounded_eq_floor p _ v.sigma_pos
  rw [identificationSum, rounded_eq_floor _ _ (by decide), share, share, Nat.cast_ofNat]

theorem refreshIdentification_of_soon (h : secondPassed s.tape.lastIdent s.now = false) : refreshIdentification s = s := by
  simp [refreshIdentification, h]

theorem refreshIdentification_of_due (hi : s.identifying = true) (h : secondPassed s.tape.lastIdent s.now = true) :
    refreshIdentification s = identificationComputation s := by simp [refreshIdentification, hi, h]

/-- While the identification goes on no estimate is computed, and the event leaves what the identification has made. -/
theorem RefreshEnded.unknown (h : RefreshEnded s w t) (taken : PulseTaken s r i w) (hi : (refreshIdentification w).identifying = true) :
    t.tape = (refreshIdentification w).tape := by
  have cls : (refreshIdentification w).tape.cls = none := by
    by_contra known
    obtain ⟨c, known⟩ := Option.ne_none_iff_exists'.mp known
    rw [not_identifying_of_known known] at hi
    cases hi
  have soon : (refreshIdentification w).estimateDue = false := by simp [State.estimateDue, State.estimating, cls]
  rw [h.ends, chooseFrame_tape, refreshed_idle taken.watches taken.programs, soon]
  simp [checkIdentifying_eq, hi]

theorem RefreshEnded.soon (h : RefreshEnded s w t) (taken : PulseTaken s r i w) (hi : w.identifying = true)
    (soon : secondPassed w.tape.lastIdent w.now = false) : t.tape = w.tape := by
  have stays := refreshIdentification_of_soon soon
  rw [h.unknown taken (by rw [stays]; exact hi), stays]

theorem RefreshEnded.unbanded (h : RefreshEnded s w t) (taken : PulseTaken s r i w) (hi : w.identifying = true)
    (due : secondPassed w.tape.lastIdent w.now = true) (band : w.sumBand = none) :
    t.tape = { w.tape with lastIdent := some w.now, candidate := none, idCount := 0 } := by
  have computed := (refreshIdentification_of_due hi due).trans (identificationComputation_none band)
  rw [h.unknown taken (by rw [computed]; exact hi), computed]

theorem RefreshEnded.counted (h : RefreshEnded s w t) (taken : PulseTaken s r i w) (hi : w.identifying = true)
    (due : secondPassed w.tape.lastIdent w.now = true) (band : w.sumBand = some c) (few : w.bandCount c ≠ 5) :
    t.tape = { w.tape with lastIdent := some w.now, candidate := some c, idCount := w.bandCount c } := by
  have computed := (refreshIdentification_of_due hi due).trans ((identificationComputation_some band).trans (if_neg few))
  rw [h.unknown taken (by rw [computed]; exact hi), computed]

/-- A class made known by an identification. -/
structure Identified (c : CassetteClass) (s : State) : Prop where
  cls    : s.tape.cls = some c
  origin : s.tape.origin = .identified
  noted  : TapeNoted s

theorem identify_identified (h : s.power.state ≠ .backup) (c : CassetteClass) : Identified c (identify c s) :=
  ⟨by simp [identify], by simp [identify], postTape_noted h⟩

theorem Identified.estimated (h : Identified c s) (hb : s.power.state ≠ .backup) : Identified c (estimateComputation s) := by
  obtain ⟨n, p, tape⟩ := estimateComputation_tape h.cls
  exact ⟨by rw [tape]; exact h.cls, by rw [tape]; exact h.origin, estimateComputation_noted hb h.cls (.inr (.inr h.noted))⟩

theorem Identified.forgotten (h : Identified c s) : Identified c (forgetCandidate s) := ⟨h.cls, h.origin, h.noted.of⟩

/-- The fifth computation in one band. -/
theorem RefreshEnded.identified (h : RefreshEnded s w t) (taken : PulseTaken s r i w) (hi : w.identifying = true)
    (due : secondPassed w.tape.lastIdent w.now = true) (band : w.sumBand = some c) (five : w.bandCount c = 5) :
    t.tape.cls = some c ∧ t.tape.origin = .identified ∧ t.tape.candidate = none ∧ t.tape.idCount = 0 ∧ TapeAnnounced t ∧
      (secondPassed w.tape.lastEstimate w.now = true →
        t.tape.fraction = some (supplyFraction w.tape.supply.period w.tape.takeUp.period c.hubShare) ∧ t.tape.held = false ∧
          t.tape.lastEstimate = some w.now) := by
  obtain ⟨y, hy⟩ : ∃ y, y = identify c { w with tape.lastIdent := some w.now } := ⟨_, rfl⟩
  have computed : refreshIdentification w = y :=
    (refreshIdentification_of_due hi due).trans ((identificationComputation_some band).trans ((if_pos five).trans hy.symm))
  have known : Identified c y := hy ▸ identify_identified taken.running c
  have running : y.power.state ≠ .backup := by rw [hy, (identify_keeps ..).power]; exact taken.running
  obtain ⟨z, hz⟩ : ∃ z, z = if y.estimateDue then estimateComputation y else y := ⟨_, rfl⟩
  have known_z : Identified c z := by
    rw [hz]
    split
    · exact known.estimated running
    · exact known
  have ends : t = chooseFrame (forgetCandidate z) := by
    rw [h.ends, refreshed_idle taken.watches taken.programs, computed, ← hz,
      checkIdentifying_of_not (not_identifying_of_known known_z.cls)]
  have tape : t.tape = (forgetCandidate z).tape := by rw [ends, chooseFrame_tape]
  refine ⟨tape ▸ known_z.cls, tape ▸ known_z.origin, by rw [tape]; rfl, by rw [tape]; rfl, ends ▸ known_z.forgotten.noted.announced,
    fun passed => ?_⟩
  have estimate : y.estimateDue = true := by
    have moving : w.transport.mode.motion = true := by
      by_contra still
      rw [identifying_of_not_motion (Bool.eq_false_iff.mpr still)] at hi
      cases hi
    have record : y.transport = w.transport ∧ y.bothValid = w.bothValid ∧ y.tape.lastEstimate = w.tape.lastEstimate ∧ y.now = w.now := by
      rw [hy]
      simp [identify, State.bothValid]
    obtain ⟨mode, valid, last, now⟩ := record
    simp [State.estimateDue, State.estimating, known.cls, mode, moving, valid, taken.valid, last, now, passed]
  obtain ⟨n, p, tape_z⟩ := estimateComputation_tape known.cls
  rw [hz, if_pos estimate] at tape
  rw [tape, forgetCandidate, tape_z, hy]
  simp [identify]

theorem PulseTaken.identifying (h : PulseTaken s r i w) (hc : s.tape.cls = none) (hm : s.transport.mode = .play ∨ s.transport.mode = .record)
    (settled : s.transport.change = none) (locked : s.transport.relockPending = false) : w.identifying = true := by
  obtain ⟨a, b, transport⟩ := h.transport
  have mode : (s.transport.mode == .play || s.transport.mode == .record) = true := by rcases hm with e | e <;> simp [e]
  simp [State.identifying, h.estimate.cls, hc, transport, mode, settled, locked, h.valid]

/-- A tape record in which the identification goes on: the class unknown, its provenance and the fraction as before. -/
theorem EstimateStands.goesOn (h : EstimateStands s w) (hc : s.tape.cls = none) {o : Option CassetteClass} {n : Nat} {l : Option Nat}
    (tape : t.tape = { w.tape with lastIdent := l, candidate := o, idCount := n }) :
    (t.tape.cls = none ∧ t.tape.origin = s.tape.origin ∧ t.tape.fraction = s.tape.fraction) ∧
      t.tape.candidate = o ∧ t.tape.idCount = n ∧ t.tape.lastIdent = l := by
  rw [tape]
  exact ⟨⟨h.cls.trans hc, h.origin, h.fraction⟩, rfl, rfl, rfl⟩

theorem PulseTaken.bandCount_first (h : PulseTaken s r i w) (new : s.tape.candidate ≠ some c) : w.bandCount c = 1 := by
  rw [State.bandCount, h.estimate.candidate, if_neg new]

theorem PulseTaken.bandCount_again (h : PulseTaken s r i w) (again : s.tape.candidate = some c) :
    w.bandCount c = s.tape.idCount + 1 := by
  rw [State.bandCount, h.estimate.candidate, if_pos again, h.estimate.idCount]

/-- Settles O23: the identification works on the pulse taken; its outcome is the band's and the count's, and only a class that becomes
known is followed by an estimate. -/
theorem classIdentified : Obligations.ClassIdentified := by
  intro s hb hc hp hw hr hn unknown hm settled locked v capstan r i m at_ p opened four low high ahead supply takeUp ps pt q sum due
  have pulse : RefreshingPulse s r i :=
    { running := hb, cassette := hc, programs := hp, watches := hw, sequence := hr, stays := hn, opened, four, low, high, ahead
      other := other_valid supply takeUp }
  obtain ⟨w, t, taken, exec_t, ended⟩ := pulse.ended
  obtain ⟨ws, wt⟩ : w.tape.supply.period = ps ∧ w.tape.takeUp.period = pt := by
    cases r with
    | supply => exact taken.supply_periods
    | takeUp => exact taken.takeUp_periods
  have sumBand : w.sumBand = classBand sum := by
    rw [State.sumBand, taken.capstanClass, capstan, Option.getD_some, ws, wt, identificationSum_eq_floor]
  have identifying := taken.identifying unknown hm settled locked
  have passed : secondPassed w.tape.lastIdent w.now = due := by rw [taken.estimate.lastIdent, taken.now]; rfl
  have at_now : w.now = at_ := taken.now
  refine ⟨t, exec_t, ended.reels.now.trans at_now, (congrArg ReelMeter.period ended.reels.supply).trans ws,
    (congrArg ReelMeter.period ended.reels.takeUp).trans wt, fun soon => ?_, fun now none => ?_, fun now c band => ⟨?_, ?_, ?_⟩,
    ended.keeps⟩
  · have tape := ended.soon taken identifying (passed.trans soon)
    obtain ⟨goes, candidate, count, last⟩ := taken.estimate.goesOn unknown (t := t) tape
    exact ⟨goes, candidate.trans taken.estimate.candidate, count.trans taken.estimate.idCount, last.trans taken.estimate.lastIdent⟩
  · exact taken.estimate.goesOn unknown (at_now ▸ ended.unbanded taken identifying (passed.trans now) (sumBand.trans none))
  · intro new
    have first := taken.bandCount_first new
    have tape := ended.counted taken identifying (passed.trans now) (sumBand.trans band) (by rw [first]; decide)
    exact taken.estimate.goesOn unknown (first ▸ at_now ▸ tape)
  · intro again few
    have count := taken.bandCount_again again
    have tape := ended.counted taken identifying (passed.trans now) (sumBand.trans band) (by omega)
    exact taken.estimate.goesOn unknown (count ▸ at_now ▸ tape)
  · intro again fourth
    have five : w.bandCount c = 5 := by rw [taken.bandCount_again again, fourth]
    obtain ⟨cls, origin, candidate, count, noted, estimate⟩ :=
      ended.identified taken identifying (passed.trans now) (sumBand.trans band) five
    refine ⟨cls, origin, candidate, count, noted, fun second => ?_⟩
    have estimated := estimate (by rw [taken.estimate.lastEstimate, at_now]; exact second)
    rwa [ws, wt, at_now] at estimated

end Sys2Proof.Machine
end

section
/-! O24: the timers of the position unit (R32, R41), each taken at its limit. -/

namespace Sys2Proof.Machine

set_option Elab.async false

variable {s : State} {r : Reel}

theorem stallReel_keeps (r : Reel) (s : State) : KeepsBut [.reels] s (stallReel r s) := withReel_keeps ..

theorem exec_reelPeriodStall (hb : s.power.state ≠ .backup) (hs : (s.reel r).state ≠ .stalled) :
    exec (.reelPeriodStall r) s = .next (endDeckEvent s (stallReel r (leapTo ((s.reel r).lastAccepted + seconds 30) s))) := by
  have limit : s.reelLimit r = some ((s.reel r).lastAccepted + seconds 30) := by simp [State.reelLimit, limitWhile, hs]
  show Host.Outcome.next (timerEvent (s.reelLimit r) (stallReel r) s) = _
  rw [limit, timerEvent_running hb]

theorem exec_tapeReportTimer (hb : s.power.state ≠ .backup) (hm : s.transport.mode.motion = true) (hp : 0 < s.tape.reportPeriod) :
    exec .tapeReportTimer s = .next (endDeckEvent s
      (postTape (leapTo (Nat.max s.transport.modeReachedAt s.tape.lastReport + seconds s.tape.reportPeriod) s))) := by
  have limit : s.reportLimit = some (Nat.max s.transport.modeReachedAt s.tape.lastReport + seconds s.tape.reportPeriod) := by
    simp [State.reportLimit, limitWhile, hm, hp]
  show Host.Outcome.next (timerEvent s.reportLimit postTape s) = _
  rw [limit, timerEvent_running hb]

/-- The 30 s end: the reel is STALLED, the other is as it was, and the event's end may hold the estimate. -/
theorem reelPeriodStalled (hb : s.power.state ≠ .backup) (hr : s.transport.resetInFlight = false) (hn : NotStopping s)
    (hs : (s.reel r).state ≠ .stalled) (ahead : s.now ≤ (s.reel r).lastAccepted + seconds 30) :
    ∃ t, exec (.reelPeriodStall r) s = .next t ∧ t.now = (s.reel r).lastAccepted + seconds 30 ∧
      t.reel r = .emptied .stalled (s.reel r).lastAccepted ∧ (∀ o, o ≠ r → t.reel o = s.reel o) ∧
      KeepsBut [.time, .reels, .estimate, .nav, .sending] s t := by
  obtain ⟨v, hv⟩ : ∃ v, v = leapTo ((s.reel r).lastAccepted + seconds 30) s := ⟨_, rfl⟩
  have now : v.now = (s.reel r).lastAccepted + seconds 30 := hv ▸ leapTo_now_of_le ahead
  have leap : KeepsBut [.time, .nav] s v := hv ▸ leapTo_keeps ..
  have reels : ∀ o, v.reel o = s.reel o := hv ▸ leapTo_reel _ s
  have stalls := stallReel_keeps r v
  have sequence : (stallReel r v).transport.resetInFlight = s.transport.resetInFlight := by rw [stalls.transport, leap.transport]
  have stays : NotStopping (stallReel r v) := hn.of (stalls.power.trans leap.power)
  have ended := endDeckEvent_reels sequence
  refine ⟨_, exec_reelPeriodStall hb hs, ?_⟩
  rw [← hv]
  refine ⟨ended.now.trans ((stalls.same .time (by decide)).1.trans now), ?_, fun o apart => ?_, ?_⟩
  · rw [ended.reel, stallReel, reel_withReel, reels]
    rfl
  · rw [ended.reel, stallReel, reel_withReel_other apart, reels]
  · exact (leap.mono (by simp)).trans ((stalls.mono (by simp)).trans ((endDeckEvent_keeps (.inl hr) stays).mono (by simp)))

/-- The report period ends, and nothing but the TAPE note follows. -/
theorem tapeReported (hb : s.power.state ≠ .backup) (hr : s.transport.resetInFlight = false) (hm : s.transport.mode.motion = true)
    (hp : 0 < s.tape.reportPeriod) (hd : NothingDue s) {limit : Nat}
    (hl : limit = Nat.max s.transport.modeReachedAt s.tape.lastReport + seconds s.tape.reportPeriod) (ahead : s.now ≤ limit) :
    ∃ t, exec .tapeReportTimer s = .next t ∧ t.now = limit ∧ t.tape.lastReport = limit ∧ t.tape.reportPeriod = s.link.period ∧
      TapeAnnounced t ∧ KeepsBut [.time, .estimate, .nav, .sending] s t := by
  have undue : Undue (leapTo limit s) := hd.undue.of
  have quiet : endDeckEvent s (postTape (leapTo limit s)) = chooseFrame (postTape (leapTo limit s)) :=
    undue.postTape.endDeckEvent (.inl hr)
  refine ⟨_, exec_tapeReportTimer hb hm hp, ?_⟩
  rw [← hl, quiet]
  have now : (leapTo limit s).now = limit := leapTo_now_of_le ahead
  refine ⟨?_, ?_, ?_, (postTape_noted (s := leapTo limit s) hb).announced, ?_⟩
  · simp [now]
  · simp [now]
  · simp
  · exact ((leapTo_keeps limit s).mono (by simp)).trans (((postTape_keeps _).mono (by simp)).trans ((chooseFrame_keeps _).mono (by simp)))

/-- Settles O24: both timers are taken at their limits. -/
theorem positionTimers : Obligations.PositionTimers := by
  intro s hb hr hn
  refine ⟨fun r state ahead => ?_, fun motion period due => tapeReported hb hr motion period due rfl⟩
  obtain ⟨t, exec_t, now, reel, other, keeps⟩ := reelPeriodStalled hb hr hn state ahead
  exact ⟨t, exec_t, now, reel, keeps, fun e => other .takeUp (by simp [e]), fun e => other .supply (by simp [e])⟩

end Sys2Proof.Machine
end

section
/-! O28: a mark on the tape read back in either direction (R48, R55, R57, R58). The pulses of a mark fall into runs, and the decoder's
table is followed run by run. -/

namespace Sys2Proof.Machine

variable {d : Decoder} {now : Nat}

/-! ### Pulses one after another -/

/-- After a run of pulses that makes no mark the decoder reads on from where the run has left it. -/
theorem decodeAll_after {step : Int} {l : List Shape} {d e : Decoder} {c : Int} (h : decodeAll step now l d c = (e, []))
    (k : List Shape) : decodeAll step now (l ++ k) d c = decodeAll step now k e (c + step * l.length) := by
  induction l generalizing d c with
  | nil =>
    obtain rfl : d = e := congrArg Prod.fst h
    simp
  | cons x l ih =>
    simp only [decodeAll, Prod.mk.injEq, List.append_eq_nil_iff] at h
    obtain ⟨state, silent, silentRest⟩ := h
    have counter : c + step + step * l.length = c + step * (l.length + 1 : Nat) := by push_cast; ring
    have rest := ih (Prod.ext state silentRest)
    rw [List.cons_append, decodeAll, rest, silent, counter]
    rfl

theorem pulse_forward (h : d.direction = .forward) (x : Shape) (before after : Int) : d.pulse x before after now =
    ({ (d.forward (x == .wide) after).1 with gapStart := now }, (d.forward (x == .wide) after).2.map d.record) := by
  simp only [Decoder.pulse, h]

theorem pulse_reverse (h : d.direction = .reverse) (x : Shape) (before after : Int) : d.pulse x before after now =
    ({ (d.reverse (x == .wide) before).1 with gapStart := now }, (d.reverse (x == .wide) before).2.map d.record) := by
  simp only [Decoder.pulse, h]

/-- HUNT with the boundary OPEN, entered at a time (R54). -/
def Decoder.reopened (d : Decoder) (now : Nat) : Decoder := { d.hunt true with gapStart := now }

theorem reopened_of_direction {e : Decoder} (h : e.direction = d.direction) : e.reopened now = d.reopened now := by
  simp only [Decoder.reopened, Decoder.hunt, h]

/-! ### The pattern of a mark (R48) -/

/-- The pulse that carries a bit. -/
def bitShape (b : Bool) : Shape := if b then .wide else .narrow

@[simp] theorem bitShape_wide (b : Bool) : (bitShape b == .wide) = b := by cases b <;> rfl

/-- The bits 7 to 4 of a code, in the order of the tape. -/
def highBits (code : Byte) : List Bool := [7, 6, 5, 4].map code.getLsbD

/-- The bits 3 to 0 of a code. -/
def lowBits (code : Byte) : List Bool := [3, 2, 1, 0].map code.getLsbD

/-- Read forward a mark is a preamble with a narrow pulse, and two groups of bits each with a narrow pulse. -/
theorem markShapes_eq (code : Byte) : markShapes code =
    (List.replicate 6 Shape.wide ++ [Shape.narrow]) ++ ((highBits code).map bitShape ++ ([Shape.narrow] ++
      ((lowBits code).map bitShape ++ [Shape.narrow]))) := rfl

/-- Read in reverse each of its runs comes with the narrow pulse that stands before it on the tape. -/
theorem markShapes_reverse (code : Byte) : (markShapes code).reverse ++ [Shape.narrow] =
    [Shape.narrow] ++ ((((lowBits code).map bitShape).reverse ++ [Shape.narrow]) ++
      ((((highBits code).map bitShape).reverse ++ [Shape.narrow]) ++ (List.replicate 6 Shape.wide ++ [Shape.narrow]))) := by
  simp [markShapes_eq]

/-- The code is formed again from its bits (R55). -/
theorem codeOf_bits : ∀ code : Byte, codeOf (highBits code ++ lowBits code) = code := by decide

/-! ### Forward (R55) -/

/-- The decoder within a mark of a position, past its preamble. -/
def Decoder.inMark (d : Decoder) (p : Int) (now : Nat) (st : DecoderState) (bits : List Bool) : Decoder :=
  { d with state := st, bits := bits, candidate := some p, gapStart := now }

/-- From HUNT with the boundary OPEN the preamble makes a candidate of its first pulse. -/
theorem forward_preamble (hf : d.direction = .forward) (hs : d.state = .hunt) (ho : d.boundary = true) (c : Int) :
    decodeAll 1 now (List.replicate 6 Shape.wide ++ [Shape.narrow]) d c =
      ({ d with state := .high 0, candidate := some (c + 1), gapStart := now }, []) := by
  obtain ⟨state, direction, boundary, bits, candidate, gapStart⟩ := d
  subst hf hs ho
  rfl

theorem forward_high (d : Decoder) (n : Nat) (wide : Bool) (c : Int) (h : d.state = .high n) :
    d.forward wide c = (d.collect (if n < 3 then .high (n + 1) else .mid) wide, none) := by
  simp only [Decoder.forward, h]

theorem forward_low (d : Decoder) (n : Nat) (wide : Bool) (c : Int) (h : d.state = .low n) :
    d.forward wide c = (d.collect (if n < 3 then .low (n + 1) else .tail) wide, none) := by
  simp only [Decoder.forward, h]

section
variable {group : Nat → DecoderState} {after : DecoderState}
  (reads : ∀ (d : Decoder) n wide c, d.state = group n →
    d.forward wide c = (d.collect (if n < 3 then group (n + 1) else after) wide, none))
include reads

/-- A pulse of a group is collected as a bit, in HIGH as in LOW. -/
theorem forward_collects_bit (b : Bool) {n : Nat} (hf : d.direction = .forward) (hs : d.state = group n) (c : Int) :
    decodeAll 1 now [bitShape b] d c =
      ({ d with state := if n < 3 then group (n + 1) else after, bits := d.bits ++ [b], gapStart := now }, []) := by
  simp [decodeAll, pulse_forward hf, reads d n b _ hs, Decoder.collect]

/-- The fourth bit ends the group. -/
theorem forward_collects (l : List Bool) (b : Bool) {n : Nat} (hf : d.direction = .forward) (hs : d.state = group n)
    (hn : n + l.length = 3) (c : Int) : decodeAll 1 now ((b :: l).map bitShape) d c =
      ({ d with state := after, bits := d.bits ++ b :: l, gapStart := now }, []) := by
  induction l generalizing d n b c with
  | nil =>
    have last : ¬ n < 3 := by simp only [List.length_nil] at hn; omega
    have bit := forward_collects_bit (now := now) reads b hf hs c
    rw [if_neg last] at bit
    exact bit
  | cons b' l ih =>
    rw [List.length_cons] at hn
    have bit := forward_collects_bit (now := now) reads b hf hs c
    rw [if_pos (show n < 3 by omega)] at bit
    rw [List.append_cons d.bits b (b' :: l)]
    exact (decodeAll_after bit ((b' :: l).map bitShape)).trans
      (ih (d := { d with state := group (n + 1), bits := d.bits ++ [b], gapStart := now }) b' hf rfl (by omega) _)

end

/-- The narrow pulse between the groups. -/
theorem forward_middle (hf : d.direction = .forward) (hs : d.state = .mid) (c : Int) :
    decodeAll 1 now [Shape.narrow] d c = ({ d with state := .low 0, gapStart := now }, []) := by
  simp [decodeAll, pulse_forward hf, Decoder.forward, hs]

/-- The narrow pulse at the end makes the mark of the bits collected. -/
theorem forward_tail (hf : d.direction = .forward) (hs : d.state = .tail) (c : Int) :
    decodeAll 1 now [Shape.narrow] d c = (d.reopened now, [d.record (.coded (codeOf d.bits))]) := by
  simp [decodeAll, pulse_forward hf, Decoder.forward, hs, Decoder.reopened]

/-- A whole mark read in FORWARD is the coded mark at the counter value of its first pulse. -/
theorem decodeAll_mark_forward (hf : d.direction = .forward) (hs : d.state = .hunt) (ho : d.boundary = true) (hb : d.bits = [])
    (code : Byte) (c : Int) : decodeAll 1 now (markShapes code) d c =
      (d.reopened now, [{ position := c + 1, direction := .forward, origin := .read, kind := .coded code }]) := by
  have direction : ∀ st bits, (d.inMark (c + 1) now st bits).direction = .forward := fun _ _ => hf
  have readPreamble : decodeAll 1 now (List.replicate 6 Shape.wide ++ [Shape.narrow]) d c = (d.inMark (c + 1) now (.high 0) [], []) :=
    (forward_preamble hf hs ho c).trans (by rw [Decoder.inMark, hb])
  have readHigh := forward_collects (now := now) forward_high [code.getLsbD 6, code.getLsbD 5, code.getLsbD 4] (code.getLsbD 7)
    (direction (.high 0) []) rfl rfl
  have readMiddle := forward_middle (now := now) (direction .mid (highBits code)) rfl
  have readLow := forward_collects (now := now) forward_low [code.getLsbD 2, code.getLsbD 1, code.getLsbD 0] (code.getLsbD 3)
    (direction (.low 0) (highBits code)) rfl rfl
  have readTail := forward_tail (now := now) (direction .tail (highBits code ++ lowBits code)) rfl
  rw [markShapes_eq, decodeAll_after readPreamble]
  refine (decodeAll_after (readHigh _) _).trans ((decodeAll_after (readMiddle _) _).trans ((decodeAll_after (readLow _) _).trans
    ((readTail _).trans ?_)))
  rw [Decoder.record, direction, show (d.inMark (c + 1) now .tail _).bits = highBits code ++ lowBits code from rfl, codeOf_bits]
  rfl

/-! ### Reverse (R57) -/

/-- With `k` more pulses a run of wide ones is still no preamble. -/
def Decoder.shortFor (d : Decoder) (k : Nat) : Prop :=
  match d.state with
  | .hunt => k < 6
  | .preamble n => n + k < 6
  | _ => False

/-- A pulse of a run too short for a preamble makes no mark. -/
theorem reverse_short {k : Nat} (h : d.shortFor (k + 1)) (wide : Bool) (c : Int) :
    (d.reverse wide c).2 = none ∧ (d.reverse wide c).1.direction = d.direction ∧ (d.reverse wide c).1.shortFor k := by
  unfold Decoder.shortFor at h
  split at h
  · next hs =>
    cases wide <;> cases ho : d.boundary <;> simp [Decoder.reverse, hs, ho, Decoder.hunt, Decoder.shortFor] <;> omega
  · next n hs =>
    have few : n < 6 := by omega
    cases wide <;> simp [Decoder.reverse, hs, few, Decoder.hunt, Decoder.shortFor] <;> omega
  · exact h.elim

theorem reverse_narrow_short (h : d.shortFor 0) (c : Int) : d.reverse false c = (d.hunt true, none) := by
  unfold Decoder.shortFor at h
  split at h
  · next hs => simp [Decoder.reverse, hs]
  · next n hs => simp [Decoder.reverse, hs, show n < 6 from h]
  · exact h.elim

/-- Fewer than six pulses before a narrow one are no preamble, whatever their shapes: they leave HUNT with the boundary OPEN. -/
theorem reverse_short_run (l : List Shape) (hr : d.direction = .reverse) (h : d.shortFor l.length) (c : Int) :
    decodeAll (-1) now (l ++ [Shape.narrow]) d c = (d.reopened now, []) := by
  induction l generalizing d c with
  | nil =>
    have narrow : (Shape.narrow == Shape.wide) = false := rfl
    simp [decodeAll, pulse_reverse hr, narrow, reverse_narrow_short h, Decoder.reopened]
  | cons x l ih =>
    obtain ⟨silent, direction, short⟩ := reverse_short h (x == .wide) c
    have rest := @ih { (d.reverse (x == .wide) c).1 with gapStart := now } (direction.trans hr) short (c + -1)
    have direction' : ({ (d.reverse (x == .wide) c).1 with gapStart := now } : Decoder).direction = d.direction := direction
    rw [reopened_of_direction direction'] at rest
    simp only [List.cons_append, decodeAll, pulse_reverse hr, silent, rest]
    rfl

/-- The whole preamble and the narrow pulse before it are an anonymous mark at the last of its wide pulses, which is the first of the
tape's order. -/
theorem reverse_preamble (hr : d.direction = .reverse) (hs : d.state = .hunt) (ho : d.boundary = true) (c : Int) :
    decodeAll (-1) now (List.replicate 6 Shape.wide ++ [Shape.narrow]) d c =
      (d.reopened now, [{ position := c - 5, direction := .reverse, origin := .read, kind := .anonymous }]) := by
  obtain ⟨state, direction, boundary, bits, candidate, gapStart⟩ := d
  subst hr hs ho
  have counter : c - 5 = c + -1 + -1 + -1 + -1 + -1 := by ring
  rw [counter]
  rfl

/-- A whole mark read in REVERSE is an anonymous mark, its groups of bits being too short for a preamble. -/
theorem decodeAll_mark_reverse (hr : d.direction = .reverse) (hs : d.state = .hunt) (code : Byte) (c : Int) :
    decodeAll (-1) now ((markShapes code).reverse ++ [Shape.narrow]) d c =
      (d.reopened now, [{ position := c - 16, direction := .reverse, origin := .read, kind := .anonymous }]) := by
  have hunting : ∀ {d : Decoder} {k}, d.state = .hunt → k < 6 → d.shortFor k := fun h hk => by simp only [Decoder.shortFor, h, hk]
  have first : decodeAll (-1) now [Shape.narrow] d c = (d.reopened now, []) := reverse_short_run [] hr (hunting hs (by decide)) c
  have group : ∀ (bits : List Bool) (x : Int), bits.length = 4 →
      decodeAll (-1) now ((bits.map bitShape).reverse ++ [Shape.narrow]) (d.reopened now) x = (d.reopened now, []) := fun bits x four =>
    reverse_short_run (d := d.reopened now) _ hr (hunting rfl (by simp [four])) x
  have counter : c + -1 * (1 : Nat) + -1 * (5 : Nat) + -1 * (5 : Nat) - 5 = c - 16 := by ring
  rw [← counter, markShapes_reverse, decodeAll_after first,
    decodeAll_after (group (lowBits code) _ rfl), decodeAll_after (group (highBits code) _ rfl),
    reverse_preamble (d := d.reopened now) hr rfl rfl]
  rfl

/-- Settles O28: the mark is read run by run, each run from where the one before it leaves the decoder. -/
theorem markReadsBack : Obligations.MarkReadsBack := by
  intro code p now d hunts opened empty _
  refine ⟨fun forward => ?_, fun reverse => ?_⟩
  · simp only [decodeAll_mark_forward forward hunts opened empty, Int.sub_add_cancel]
    exact ⟨trivial, rfl, rfl⟩
  · simp only [decodeAll_mark_reverse reverse hunts, Int.add_sub_cancel]
    exact ⟨trivial, rfl, rfl⟩

end Sys2Proof.Machine
end

section
/-! O29: the gap of ten frame periods (R56, R58). -/

namespace Sys2Proof.Machine

variable {s : State} {d : Decoder} {now : Nat}

/-- The mark that a gap cuts (R56). -/
def gapMark (d : Decoder) : Option MarkRecord :=
  (gapKind d).map fun k => { position := d.candidate.getD 0, direction := d.direction, origin := .read, kind := k }

/-- A gap restarts the decoder in HUNT, and gives the mark that it cut (R56). -/
theorem gap_eq (h : d.state ≠ .off) (now : Nat) : d.gap now = (d.reopened now, gapMark d) := by
  obtain ⟨state, direction, boundary, bits, candidate, gapStart⟩ := d
  cases state with
  | off => exact absurd rfl h
  | preamble n =>
    by_cases few : n < 6
    · simp [Decoder.gap, gapMark, gapKind, few, Decoder.reopened]
    · cases direction <;> simp [Decoder.gap, gapMark, gapKind, few, Decoder.reopened, Decoder.record, Decoded.kind]
  | hunt | high | mid | low | tail => rfl

/-- The decoder has become another one, and the mark that it gave is in the history and noted (R58). -/
def handDown (d : Decoder) (r : Option MarkRecord) (s : State) : State := noteRead r (recordRead r { s with marks.decoder := d })

theorem handDown_keeps (d : Decoder) (r : Option MarkRecord) (s : State) : KeepsBut [.marks, .sending] s (handDown d r s) := by
  refine KeepsBut.after ((noteRead_keeps _ _).mono (by simp)) (KeepsBut.after (recordRead_keeps _ _) ⟨fun q hq => ?_⟩)
  cases q <;> simp_all [SamePart]

theorem Undue.handDown (h : Undue s) (d : Decoder) (r : Option MarkRecord) : Undue (handDown d r s) :=
  Undue.noteRead (Undue.recordRead (s := { s with marks.decoder := d }) h.of r) r

/-- The newest sixteen passes after a mark that may have been read (R59). -/
def historyWith (h : List MarkRecord) : Option MarkRecord → List MarkRecord
  | none => h
  | some r => h.drop (h.length + 1 - 16) ++ [r]

theorem handDown_marks (d : Decoder) (r : Option MarkRecord) (s : State) : (handDown d r s).marks.decoder = d ∧
    (handDown d r s).marks.writer = s.marks.writer ∧ (handDown d r s).marks.history = historyWith s.marks.history r := by
  cases r with
  | none => exact ⟨rfl, rfl, rfl⟩
  | some r =>
    have marks : (handDown d (some r) s).marks = (recordPass r { s with marks.decoder := d }).marks := postMark_marks ..
    rw [marks]
    exact ⟨rfl, rfl, recordPass_history ..⟩

/-- With nothing to navigate a gap restarts the decoder and hands its mark down. -/
theorem gapExpired_idle (hw : NoWatches s) (hn : NoNavigation s) : gapExpired s =
    handDown (s.marks.decoder.gap s.now).1 (s.marks.decoder.gap s.now).2 s := by
  have nav : ∀ r (u : State), (recordRead r u).nav = u.nav := fun r u => by cases r <;> rfl
  simp only [gapExpired, handDown]
  rw [navigate_idle]
  · exact fun w h => hw w (by rwa [nav] at h)
  · exact hn.of (nav _ _)

theorem exec_decoderGap (hb : s.power.state ≠ .backup) (ho : s.marks.decoder.state ≠ .off) :
    exec .decoderGap s = .next (endDeckEvent s (gapExpired (leapTo (s.marks.decoder.gapStart + s.gapLimit) s))) := by
  have limit : s.gapEnd = some (s.marks.decoder.gapStart + s.gapLimit) := by simp [State.gapEnd, limitWhile, ho]
  show Host.Outcome.next (timerEvent s.gapEnd gapExpired s) = _
  rw [limit, timerEvent_running hb]

/-- Settles O29: the gap is taken at its limit, where it changes the decoder and the history alone. -/
theorem gapActs : Obligations.GapActs := by
  intro s hb hd hn hw ho _ limit ahead
  obtain ⟨v, hv⟩ : ∃ v, v = leapTo limit s := ⟨_, rfl⟩
  have now : v.now = limit := hv ▸ leapTo_now_of_le ahead
  have nav : v.nav = s.nav := hv ▸ leapTo_nav hn limit
  have marks : v.marks = s.marks := hv ▸ leapTo_marks s limit
  have leap : KeepsBut [.time] s v := ⟨fun p hp => by
    by_cases h : p = .nav
    · subst h
      exact ⟨congrArg _ nav, congrArg _ nav, by rw [nav]⟩
    · exact (hv ▸ leapTo_keeps limit s : KeepsBut [.time, .nav] s v).same p (by simp_all)⟩
  obtain ⟨u, hu⟩ : ∃ u, u = handDown (s.marks.decoder.reopened limit) (gapMark s.marks.decoder) v := ⟨_, rfl⟩
  have kept : KeepsBut [.marks, .sending] v u := hu ▸ handDown_keeps ..
  have expired : gapExpired v = u := by
    have watches : NoWatches v := fun w h => hw w (nav ▸ h)
    rw [gapExpired_idle watches (hn.of nav), marks, now, gap_eq ho, hu]
  have undue : Undue u := hu ▸ Undue.handDown (hv ▸ hd.undue.of) _ _
  have acts : exec .decoderGap s = .next (chooseFrame u) := by
    have transport : u.transport = s.transport := kept.transport.trans leap.transport
    rw [exec_decoderGap hb ho, show s.marks.decoder.gapStart + s.gapLimit = limit from rfl, ← hv, expired]
    exact congrArg _ (undue.endDeckEvent (sequence_same (by rw [transport])))
  have sent := chooseFrame_keeps u
  obtain ⟨writer, decoder, history⟩ := sent.same .marks (by decide)
  obtain ⟨decoderU, writerU, historyU⟩ := hu ▸ handDown_marks (s.marks.decoder.reopened limit) (gapMark s.marks.decoder) v
  refine ⟨_, acts, (chooseFrame_now u).trans ((kept.same .time (by decide)).1.trans now), decoder.trans decoderU,
    writer.trans (writerU.trans (by rw [marks])), history.trans (historyU.trans ?_),
    (leap.mono (by simp)).trans ((kept.mono (by simp)).trans (sent.mono (by simp)))⟩
  rw [marks, gapMark]
  cases gapKind s.marks.decoder <;> rfl

end Sys2Proof.Machine
end

section
/-! O27: the mark that an entry to RECORD begins, for the operator and for the active program, and MARK_NOW (R50, R52, R166). -/

namespace Sys2Proof.Machine

variable {b s t : State} {w : Leaders}

/-! ### MARK_NOW (R52) -/

theorem exec_markNow (hs : PortReady s) (code : Byte) : exec (.markNow code) s =
    .next (answered .markNow (markNowRequest code s).2 (markNowRequest code s).1) :=
  congrArg Host.Outcome.next (requestFrame_served hs rfl rfl)

/-- RECORD is not the mode, or is on the way to be left. -/
def State.leavingRecord (s : State) : Prop := s.transport.mode ≠ .record ∨ ∃ m, s.transport.target = some m ∧ m ≠ .record

theorem leavingRecord_iff (s : State) :
    s.leavingRecord ↔ s.transport.mode ≠ .record ∨ s.transport.target.any (· != .record) = true := by
  simp [State.leavingRecord, Option.any_eq_true]

theorem markNowRequest_leaving (h : s.leavingRecord) (code : Byte) : markNowRequest code s = answer .notReady s :=
  if_pos ((leavingRecord_iff s).mp h)

theorem markNowRequest_writing (h : ¬ s.leavingRecord) (hw : s.marks.writer ≠ none) (code : Byte) :
    markNowRequest code s = answer .busy s := by
  rw [markNowRequest, if_neg (mt (leavingRecord_iff s).mpr h), if_pos (Option.isSome_iff_ne_none.mpr hw)]

theorem markNowRequest_begins (h : ¬ s.leavingRecord) (hw : s.marks.writer = none) (code : Byte) :
    markNowRequest code s = answer .accepted (startMark code s) := by
  rw [markNowRequest, if_neg (mt (leavingRecord_iff s).mpr h), hw]
  rfl

/-! ### The entry mark (R50) -/

/-- The writer at the beginning of a mark (R49). -/
def Writing.begun (code : Byte) : Writing := { next := 1, code := code, position := none }

/-- The writer as RECORD is reached: the entry mark begins, or the writer is as it was. -/
theorem enterMode_record_marks (c : Option Change) (s : State) :
    (enterMode .record c s).marks.history = s.marks.history ∧
    (enterMode .record c s).marks.writer = ((s.entryMark s.transport.mode).map Writing.begun).or s.marks.writer := by
  have order : ∀ u : State, u.transport.recordOrder = s.transport.recordOrder → u.settings = s.settings →
      u.marks.writer = s.marks.writer → u.marks.history = s.marks.history →
      (writerAtMode s.transport.mode .record u).marks.history = s.marks.history ∧
      (writerAtMode s.transport.mode .record u).marks.writer =
        ((s.entryMark s.transport.mode).map Writing.begun).or s.marks.writer := fun u ho hs hw hh => by
    have code : u.entryMark s.transport.mode = s.entryMark s.transport.mode := by simp only [State.entryMark, ho, hs]
    rw [writerAtMode, if_pos rfl, code]
    cases s.entryMark s.transport.mode with
    | none => exact ⟨hh, hw⟩
    | some x => exact ⟨hh, rfl⟩
  simp only [enterMode]
  apply order <;> simp [tapeAtMode, Mode.motion, Mode.direction, emptyLists]

/-! ### The active program enters RECORD (R166) -/

variable {a : Active} {p : Program} {v : Speed} {code : Option Byte}

/-- A program after an entry to RECORD at a class: the stretch is counted, the class entered (R166). -/
def Program.entered (p : Program) (v : Speed) : Program :=
  { p with run := { p.run with
    stretches := min 255 (p.run.stretches + 1), currentSpeed := some v, firstSpeed := some (p.run.firstSpeed.getD v) } }

theorem programAtRecord_recording (ha : s.sched.active = some a) (hp : s.program a.slot = some p) (hr : p.state = .recording)
    (ho : s.transport.recordOrder = .timer v code) : programAtRecord s = putProgram a.slot (p.entered v) s := by
  have active : s.activeProgram = some (a, p) := by simp [State.activeProgram, ha, hp]
  have first : (p.run.firstSpeed.orElse fun _ => some v) = some (p.run.firstSpeed.getD v) := by cases p.run.firstSpeed <;> rfl
  simp only [programAtRecord, active, ho, first]
  exact if_pos hr

theorem programAtRecord_keeps (s : State) : KeepsBut [.sched, .sending] s (programAtRecord s) := by
  unfold programAtRecord
  split
  · dsimp only
    split
    · exact putProgram_keeps ..
    · exact .refl _ _
  · exact .refl _ _

theorem program_of_sched (h : t.sched = s.sched) (n : Nat) : t.program n = s.program n := by simp only [State.program, h]

/-- A slot that holds a program is one of the table's, and holds the record put into it. -/
theorem putProgram_program {n : Nat} (h : s.program n = some p) (q : Program) : (putProgram n q s).program n = some q := by
  have slot : n ≠ 0 := fun e => by simp [State.program, e] at h
  have place : n - 1 < s.sched.slots.length := by
    by_contra beyond
    simp [State.program, slot, List.getElem?_eq_none (Nat.not_lt.mp beyond)] at h
  rw [program_of_sched (putProgram_sched ..)]
  simp [State.program, State.withSlot, slot, place]

theorem putProgram_active (n : Nat) (q : Program) (s : State) : (putProgram n q s).sched.active = s.sched.active := by
  rw [putProgram_sched]
  rfl

/-! ### RECORD reached (R7, R14) -/

/-- RECORD has been reached, and no more than the end of the event is to come but for what the active program counts. -/
structure RecordReached (s e : State) : Prop where
  record  : e.transport = s.transport.reached .record none s.now
  history : e.marks.history = s.marks.history
  writer  : e.marks.writer = ((s.entryMark s.transport.mode).map Writing.begun).or s.marks.writer
  keeps   : KeepsBut (.pins :: .estimate :: modeParts) s e

theorem recordReached (p : Pins) (s : State) : RecordReached s (checkHeld (enterMode .record none (s.withPins p))) := by
  have held := checkHeld_keeps (enterMode .record none (s.withPins p))
  obtain ⟨writer, -, history⟩ := held.same .marks (by decide)
  obtain ⟨past, begun⟩ := enterMode_record_marks none (s.withPins p)
  exact
    { record := held.transport.trans (enterMode_transport ..)
      history := history.trans past
      writer := writer.trans begun
      keeps := ((withPins_keeps p s).mono (by simp)).trans (((enterMode_keeps ..).mono (by simp [modeParts])).trans
        (held.mono (by simp [modeParts]))) }

/-- The servo lock of a change toward RECORD, with no leader at the end of the tape, reaches RECORD, counts for the active program, and
ends the event. -/
theorem servoLock_record (hb : s.power.state ≠ .backup) (hv : NoNavigation s) (hc : s.transport.change = some (.servo .record))
    (hw : w.atEnd = false) : ∃ e, RecordReached s e ∧ exec (.servoLock w) s = .next (endDeckEvent s (programAtRecord e)) := by
  obtain ⟨e, he⟩ : ∃ e, e = checkHeld (enterMode .record none
      (s.withPins { s.pins with startLeader := w.atStart, endLeader := w.atEnd })) := ⟨_, rfl⟩
  have reached : RecordReached s e := he ▸ recordReached _ s
  have navigation : NoNavigation e :=
    ⟨by rw [reached.keeps.goto (by decide)]; exact hv.goto, by rw [reached.keeps.run (by decide)]; exact hv.run⟩
  have mode : (programAtRecord e).transport.mode = .record := by rw [(programAtRecord_keeps e).transport, reached.record]; rfl
  have noLeader : NoLeader (programAtRecord e).transport.mode w := by
    rw [mode]
    exact ⟨fun at_ => by simp [hw] at at_, nofun⟩
  refine ⟨e, reached, ?_⟩
  have acts : servoLocked w s = deckEvent (enterThreadedMode .record w) s := by simp only [servoLocked, hc]
  have units : enterThreadedMode .record w s = programAtRecord e := by
    have acted : enterThreadedMode .record w s = leaderAtMode w (programAtRecord (gotoAtMode e)) := he ▸ rfl
    rw [acted, gotoAtMode_idle navigation, leaderAtMode_idle noLeader]
  show Host.Outcome.next (servoLocked w s) = _
  rw [acts, deckEvent_running hb, units]

/-- The event of an entry to RECORD has ended. -/
structure RecordEntered (w : Leaders) (s t : State) : Prop where
  acts    : exec (.servoLock w) s = .next t
  record  : t.transport = s.transport.reached .record none s.now
  history : t.marks.history = s.marks.history
  writer  : t.marks.writer = ((s.entryMark s.transport.mode).map Writing.begun).or s.marks.writer
  counts  : ∃ e, e.sched = s.sched ∧ e.transport = t.transport ∧ t.sched = (programAtRecord e).sched

/-- The program's count and the end of the event leave the marks and the transport as the mode reached event made them. -/
theorem recordEntered (hb : s.power.state ≠ .backup) (hr : s.transport.resetInFlight = false) (hs : NotStopping s)
    (hv : NoNavigation s) (hc : s.transport.change = some (.servo .record)) (hw : w.atEnd = false) : ∃ t, RecordEntered w s t := by
  obtain ⟨e, reached, acts⟩ := servoLock_record hb hv hc hw
  have counts := programAtRecord_keeps e
  have power : (programAtRecord e).power = s.power := counts.power.trans (reached.keeps.power (by decide))
  have ended : KeepsBut [.estimate, .sending] (programAtRecord e) (endDeckEvent s (programAtRecord e)) :=
    endDeckEvent_keeps (.inl hr) (hs.of power)
  have transport := ended.transport.trans counts.transport
  obtain ⟨writerCounted, -, historyCounted⟩ := counts.same .marks (by decide)
  obtain ⟨writerEnded, -, historyEnded⟩ := ended.same .marks (by decide)
  exact ⟨_,
    { acts := acts
      record := transport.trans reached.record
      history := historyEnded.trans (historyCounted.trans reached.history)
      writer := writerEnded.trans (writerCounted.trans reached.writer)
      counts := ⟨e, reached.keeps.sched (by decide), transport.symm, ended.sched⟩ }⟩

/-- Settles O27: the mode reached event begins the mark that the target's order names, and nothing after it in the event touches the
writer; MARK_NOW goes through its checks. -/
theorem markBegins : Obligations.MarkBegins := by
  intro s
  refine ⟨fun hb hr hs hv hc idle w hw => ?_, fun ready code => ?_⟩
  · obtain ⟨t, entered⟩ := recordEntered hb hr hs hv hc hw
    have mode : t.transport.mode = .record := by rw [entered.record]; rfl
    have writer := entered.writer
    rw [idle, Option.or_none] at writer
    refine ⟨fun _ operator => ⟨t, entered.acts, mode, entered.history, ?_⟩, fun a ha p hp recording _ v code timer => ?_⟩
    · rw [writer, State.entryMark, operator]
      rfl
    · obtain ⟨e, sched, transport, counted⟩ := entered.counts
      have program : e.program a.slot = some p := (program_of_sched sched _).trans hp
      have active : e.sched.active = some a := (congrArg Scheduler.active sched).trans ha
      have order : e.transport.recordOrder = .timer v code := by rw [transport, entered.record]; exact timer
      rw [programAtRecord_recording active program recording order] at counted
      refine ⟨t, entered.acts, mode, entered.history, ?_, ?_, ?_, ?_⟩
      · rw [writer, State.entryMark, timer]
        rfl
      · rw [entered.record]
        simp only [Transport.reached, Transport.classAt, timer]
      · rw [counted, putProgram_active, active]
      · rw [program_of_sched counted, putProgram_program program]
        rfl
  · rw [exec_markNow ready]
    refine ⟨fun leaves => ?_, fun stays busy => ?_, fun stays idle => ?_⟩
    · rw [markNowRequest_leaving leaves]
      rfl
    · rw [markNowRequest_writing stays busy]
      rfl
    · rw [markNowRequest_begins stays idle]
      rfl

end Sys2Proof.Machine
end

section
/-! What the statements of the navigation unit share: what the transport does with a target that it gives (R4, R6), the end of an event
or of a request in which it acts, and the go-to and the run that give STILL as they end (R72, R85). -/

namespace Sys2Proof.Machine

variable {b s t u v w x : State} {m : Mode}

/-! ### The line and the navigation records under a mode reached -/

@[simp] theorem post_line (k : NoteKey) (c : List Byte) (s : State) : (post k c s).link.line = s.link.line := by
  unfold post
  split <;> rfl

theorem cutMark_sent (s : State) : (cutMark s).nav = s.nav ∧ (cutMark s).link.line = s.link.line := by
  unfold cutMark
  split <;> simp [postMark, recordPass]

theorem writerAtMode_sent (l m : Mode) (s : State) :
    (writerAtMode l m s).nav = s.nav ∧ (writerAtMode l m s).link.line = s.link.line := by
  unfold writerAtMode
  split
  · split <;> exact ⟨rfl, rfl⟩
  · split
    · exact cutMark_sent s
    · exact ⟨rfl, rfl⟩

theorem enterMode_sent (m : Mode) (c : Option Change) (s : State) :
    (enterMode m c s).nav = s.nav ∧ (enterMode m c s).link.line = s.link.line := by
  have at_ : ∀ u : State, (tapeAtMode m u).nav = u.nav := fun u => by
    unfold tapeAtMode
    split <;> rfl
  simp only [enterMode]
  obtain ⟨nav, line⟩ := writerAtMode_sent s.transport.mode m (postMode (tapeAtMode m { s with
    transport := s.transport.reached m c s.now, marks.decoder := s.marks.decoder.follow m s.now }))
  rw [postMode_nav, at_] at nav
  rw [postMode, post_line, tapeAtMode_link] at line
  exact ⟨nav, line⟩

/-! ### What a target given leaves (R4, R6) -/

/-- The transport has worked on a target between two states: the counter, the navigation records and the line are as they were, and the
notes of the other units wait as before. -/
structure Steered (s t : State) : Prop where
  keeps    : KeepsBut stillParts s t
  nav      : t.nav = s.nav
  counter  : t.tape.counter = s.tape.counter
  line     : t.link.line = s.link.line
  sequence : t.transport.resetInFlight = s.transport.resetInFlight
  notes    : ∀ {k : NoteKey} {c : List Byte}, Noted k c s → NoteKey.mode ≠ k → NoteKey.mark ≠ k → Noted k c t

namespace Steered

theorem refl (s : State) : Steered s s := ⟨.refl _ _, rfl, rfl, rfl, rfl, fun h _ _ => h⟩

theorem trans (h : Steered s t) (k : Steered t u) : Steered s u :=
  ⟨h.keeps.trans k.keeps, k.nav.trans h.nav, k.counter.trans h.counter, k.line.trans h.line, k.sequence.trans h.sequence,
    fun n hm hk => k.notes (h.notes n hm hk) hm hk⟩

end Steered

theorem steered_transport {r : Transport} (h : r.resetInFlight = s.transport.resetInFlight) : Steered s { s with transport := r } :=
  ⟨(withTransport_keeps r s).mono (by simp [stillParts]), rfl, rfl, rfl, h, fun n _ _ => n.of⟩

theorem steered_postMode (s : State) : Steered s (postMode s) :=
  ⟨(postMode_keeps s).mono (by simp [stillParts]), postMode_nav s, by rw [postMode_tape], post_line .., by rw [postMode_transport],
    fun n hm _ => n.post hm _⟩

theorem steered_beginMech (k : MechStep) (s : State) : Steered s (beginMech k s) where
  keeps := beginMech_still k s
  nav := (enterMode_sent _ _ { s with transport.stepStart := s.now }).1
  counter := by rw [beginMech_tape]
  line := (enterMode_sent _ _ { s with transport.stepStart := s.now }).2
  sequence := beginMech_resetInFlight k s
  notes n hm hk := Noted.enterMode (s := { s with transport.stepStart := s.now }) n.of hm hk _ _

theorem steered_beginUnthreading (e : UnthreadEnd) (s : State) : Steered s (beginUnthreading e s) :=
  (steered_transport (r := { s.transport with unthreadEnd := e }) rfl).trans (steered_beginMech .unthreading _)

theorem steered_beginServo (m : Mode) (s : State) : Steered s (beginServo m s) := steered_transport rfl

theorem steered_dropTarget (s : State) : Steered s (dropTarget s) :=
  (steered_transport (r := { s.transport with target := none }) rfl).trans (steered_postMode _)

/-- The path chosen leaves the state, drops or clears the target, or begins one step of R4's table. -/
theorem steered_choosePath (s : State) : Steered s (choosePath s) := by
  unfold choosePath
  split
  · exact .refl s
  · split
    · split
      · exact steered_beginMech ..
      · split
        · exact steered_transport rfl
        · split
          · exact steered_dropTarget s
          · exact steered_beginMech ..
    · split
      · split
        · exact steered_beginUnthreading ..
        · split
          · exact steered_dropTarget s
          · split
            · exact steered_transport rfl
            · split
              · exact .refl s
              · exact steered_beginServo ..
      · exact .refl s

theorem steered_noteChange (old : Transport) (s : State) : Steered s (noteChange old s) := by
  unfold noteChange
  split
  · exact steered_postMode s
  · exact .refl s

theorem steered_setTarget (m : Mode) (c : Option StopCause) (s : State) : Steered s (setTarget m c s) := by
  have take : Steered s { s with transport := { s.transport with target := some m, stopCause := c } } := steered_transport rfl
  simp only [setTarget]
  split
  · exact .refl s
  · split
    · exact take.trans (steered_noteChange ..)
    · split
      · exact take.trans (steered_choosePath _)
      · exact take.trans ((steered_choosePath _).trans (steered_noteChange ..))

theorem steered_giveTarget (m : Mode) (s : State) : Steered s (giveTarget m s) := steered_setTarget ..

/-! ### The targets of the navigation unit -/

/-- The targets that the navigation unit gives: the settled modes but for the recording ones (R66 to R72, R80, R84). -/
def Mode.asked : Mode → Bool
  | .stop | .empty | .still | .play | .searchFwd | .searchRev | .windFwd | .windRev => true
  | .loading | .ejecting | .threading | .unthreading | .recPause | .record | .fault => false

theorem Direction.windMode_asked (d : Direction) : d.windMode.asked = true ∧ d.windMode.threaded = true := by cases d <;> decide

theorem Direction.searchMode_asked (d : Direction) : d.searchMode.asked = true ∧ d.searchMode.threaded = true := by cases d <;> decide

theorem FinalAction.mode_asked (a : FinalAction) : a.mode.asked = true := by cases a <;> rfl

theorem EndAction.target_asked (a : EndAction) : a.target.asked = true := by cases a <;> rfl

theorem Mode.stop_or_empty_of_asked (ha : m.asked = true) (ht : m.threaded = false) : m = .stop ∨ m = .empty := by
  cases m <;> first | exact .inl rfl | exact .inr rfl | exact absurd ha (by decide) | exact absurd ht (by decide)

theorem recordForbidden_of_asked (h : m.asked = true) (s : State) : s.recordForbidden m = false := by
  cases m <;> first | rfl | cases h

theorem tabForbids_of_asked (h : m.asked = true) (s : State) : s.tabForbids m = false := by
  cases m <;> first | rfl | cases h

/-- The transport stands in a threaded mode with no change in flight (R2). -/
structure StandsThreaded (s : State) : Prop where
  mode   : s.transport.mode.threaded = true
  change : s.transport.change = none

theorem StandsThreaded.threaded (h : StandsThreaded s) : Threaded s := ⟨h.mode, mechInFlight_of_none h.change⟩

/-- A target given to a settled transport is held, with the first step of its path in flight (R4, R6). -/
structure Given (m : Mode) (s t : State) : Prop where
  target : t.transport.target = some m
  change : t.transport.change = some
    (if s.transport.mode = .stop then .mech .threading else if m.threaded then .servo m else .mech .unthreading)
  mode   : t.transport.mode =
    if s.transport.mode = .stop then .threading else if m.threaded then s.transport.mode else .unthreading

theorem Mode.not_back_of_threaded (ht : m.threaded = true) : ¬ (m = .stop ∨ m = .empty) := by
  rintro (rfl | rfl) <;> cases ht

theorem StandsThreaded.takes (h : StandsThreaded s) (ha : m.asked = true) : s.wouldDrop m = false := by
  obtain ⟨-, -, -, hs, -, -⟩ := h.threaded.rests
  simp [State.wouldDrop, recordForbidden_of_asked ha, hs]

/-- A target that a threaded mode takes is on its way as soon as it is held (R6). -/
theorem giveTarget_path (h : StandsThreaded s) (ha : m.asked = true) :
    giveTarget m s = noteChange s.transport (choosePath (aimed m none s)) := by
  obtain ⟨he, hj, hf, -, -, -⟩ := h.threaded.rests
  exact setTarget_path he hj hf h.threaded.change (h.takes ha) none

theorem choosePath_servo (h : StandsThreaded s) (hm : s.transport.target = some m) (ha : m.asked = true) (ht : m.threaded = true)
    (hne : s.transport.mode ≠ m) : choosePath s = beginServo m s := by
  obtain ⟨-, -, -, hs, -, -⟩ := h.threaded.rests
  simp [choosePath, hm, hs, h.mode, h.change, Mode.not_back_of_threaded ht, recordForbidden_of_asked ha, hne.symm]

/-- From a threaded mode a servo change leads to another one (R4, R6, R14). -/
theorem giveTarget_servo (h : StandsThreaded s) (ha : m.asked = true) (ht : m.threaded = true) (hne : s.transport.mode ≠ m) :
    giveTarget m s = noteChange s.transport (beginServo m (aimed m none s)) := by
  rw [giveTarget_path h ha, choosePath_servo (s := aimed m none s) ⟨h.mode, h.change⟩ rfl ha ht hne]

theorem giveTarget_servo_keeps (h : StandsThreaded s) (ha : m.asked = true) (ht : m.threaded = true) (hne : s.transport.mode ≠ m) :
    KeepsBut [.transport, .sending] s (giveTarget m s) := by
  rw [giveTarget_servo h ha ht hne]
  exact ((aimed_keeps ..).mono (by simp)).trans (((beginServo_keeps ..).mono (by simp)).trans ((noteChange_keeps ..).mono (by simp)))

theorem given_of_threaded (h : StandsThreaded s) (ha : m.asked = true) (hne : s.transport.mode ≠ m) : Given m s (giveTarget m s) := by
  obtain ⟨-, -, -, hs, -, -⟩ := h.threaded.rests
  cases ht : m.threaded with
  | true =>
    rw [giveTarget_servo h ha ht hne]
    exact ⟨by rw [noteChange_transport]; rfl, by rw [noteChange_transport, if_neg hs, ht]; rfl,
      by rw [noteChange_transport, if_neg hs, ht]; rfl⟩
  | false =>
    have back := Mode.stop_or_empty_of_asked ha ht
    rw [giveTarget, setTarget_unthreads h.threaded back]
    refine ⟨?_, by rw [beginUnthreading_transport, if_neg hs, ht]; rfl, by rw [beginUnthreading_transport, if_neg hs, ht]; rfl⟩
    rw [beginUnthreading_transport]
    rcases back with rfl | rfl <;> rfl

theorem given_of_stop (hs : s.transport.mode = .stop) (hc : s.transport.change = none) (hd : s.transport.dew = false)
    (ha : m.asked = true) (ht : m.threaded = true) : Given m s (giveTarget m s) := by
  have drop : s.wouldDrop m = false := by simp [State.wouldDrop, recordForbidden_of_asked ha, tabForbids_of_asked ha, hd]
  have path : choosePath (aimed m none s) = beginMech .threading (aimed m none s) :=
    choosePath_threads hs rfl ht (tabForbids_of_asked ha _) hd
  have record : (giveTarget m s).transport = (beginMech .threading (aimed m none s)).transport := by
    rw [giveTarget, setTarget_path (by simp [hs]) (by simp [hs]) (by simp [hs]) (mechInFlight_of_none hc) drop, path,
      noteChange_transport]
  have other : m ≠ .threading := by rintro rfl; cases ht
  exact ⟨by rw [record, beginMech_transport]; simp [Transport.reached, aimed, MechStep.mode, other],
    by rw [record, beginMech_transport, if_pos hs]; rfl, by rw [record, beginMech_transport, if_pos hs]; rfl⟩

/-! ### The end of the event -/

/-- An event or a request has ended between two states: the estimate may be held and the identification given up, and the next frame is
on the line (R33, R38, R202). -/
structure EndedFrom (u t : State) : Prop where
  keeps    : KeepsBut [.estimate, .sending] u t
  estimate : t.estimate = u.estimate
  unsent   : u.link.line ≠ none ∨ u.link.flow = false → t.nav = u.nav
  told     : ∀ {k : NoteKey} {c : List Byte}, Noted k c u → NoteKey.tape ≠ k → Announced k c t

/-- No note is sent while the line is busy or the flow is off, so no fires pending return to 0 (R74, R202, R204). -/
theorem chooseFrame_nav (h : s.link.line ≠ none ∨ s.link.flow = false) : (chooseFrame s).nav = s.nav := by
  unfold chooseFrame
  split
  · rfl
  · next idle =>
    split
    · rfl
    · have flow : s.link.flow = false := h.resolve_left fun e => idle (.inr (Option.isSome_iff_ne_none.mpr e))
      simp [flow]

theorem checkHeld_sent (s : State) : (checkHeld s).nav = s.nav ∧ (checkHeld s).link.line = s.link.line ∧
    (checkHeld s).estimate = s.estimate := by
  unfold checkHeld
  split
  · exact ⟨by simp, by simp [postTape], by simp [postTape, State.estimate]⟩
  · exact ⟨rfl, rfl, rfl⟩

theorem checkIdentifying_sent (s : State) : (checkIdentifying s).nav = s.nav ∧ (checkIdentifying s).link = s.link ∧
    (checkIdentifying s).estimate = s.estimate := by
  unfold checkIdentifying
  split <;> exact ⟨rfl, rfl, rfl⟩

/-- What is settled at the end, whatever is then sent. -/
theorem endedFrom_of_sent {send : State → State} (hr : b.transport.resetInFlight = false ∨ u.transport.resetInFlight = true)
    (hn : NotStopping u) (keeps : ∀ c, KeepsBut [.sending] c (send c)) (tape : ∀ c, (send c).tape = c.tape)
    (nav : ∀ c : State, c.link.line ≠ none ∨ c.link.flow = false → (send c).nav = c.nav)
    (told : ∀ {k c x}, Noted k c x → NoteKey.tape ≠ k → Announced k c (send x)) : EndedFrom u (send (settleUnits b u)) := by
  have settled := settleUnits_keeps hr hn
  obtain ⟨navHeld, lineHeld, estimateHeld⟩ := checkHeld_sent u
  obtain ⟨navIdent, linkIdent, estimateIdent⟩ := checkIdentifying_sent (checkHeld u)
  have flow : (settleUnits b u).link.flow = u.link.flow := (settled.same .reception (by decide)).2.2.2.1
  have parts := settleUnits_eq hr hn
  refine ⟨settled.trans ((keeps _).mono (by simp)), ?_, fun h => ?_, fun n hk => told (n.settleUnits hk hr hn) hk⟩
  · have sent : (send (settleUnits b u)).estimate = (settleUnits b u).estimate := by simp only [State.estimate, tape]
    rw [sent, parts, estimateIdent, estimateHeld]
  · rw [nav]
    · rw [parts, navIdent, navHeld]
    · rw [flow, parts, linkIdent, lineHeld]
      exact h

theorem endedFrom_event (hr : b.transport.resetInFlight = false ∨ u.transport.resetInFlight = true) (hn : NotStopping u) :
    EndedFrom u (endDeckEvent b u) :=
  endedFrom_of_sent hr hn chooseFrame_keeps chooseFrame_tape (fun _ => chooseFrame_nav) fun n hk => n.announced (Ne.symm hk)

theorem endedFrom_request (hr : b.transport.resetInFlight = false ∨ u.transport.resetInFlight = true) (hn : NotStopping u)
    (k : RequestKind) (r : Reply) : EndedFrom u (answered k r (settleUnits b u)) :=
  endedFrom_of_sent hr hn (answered_keeps k r) (answered_tape k r)
    (fun c h => (chooseFrame_nav (s := putReply (replyFrame k r) c) h).trans rfl) fun n hk => announced_answered k r (Ne.symm hk) n

theorem gotoNoteBytes_congr (hn : t.nav.goto = s.nav.goto) (hc : t.tape.counter = s.tape.counter) :
    t.gotoNoteBytes = s.gotoNoteBytes := by
  simp only [State.gotoNoteBytes, hn, hc]

theorem runNoteBytes_congr (hn : t.nav.run = s.nav.run) (hc : t.tape.counter = s.tape.counter) : t.runNoteBytes = s.runNoteBytes := by
  simp only [State.runNoteBytes, hn, hc]

namespace EndedFrom

theorem counter (h : EndedFrom u t) : t.tape.counter = u.tape.counter := (h.keeps.same .counter (by decide)).1

/-- The GOTO note that waits tells of the record as the event leaves it (R72). -/
theorem gotoNote (h : EndedFrom u t) (n : Noted .goto u.gotoNoteBytes u) : Announced .goto t.gotoNoteBytes t := by
  rw [gotoNoteBytes_congr h.keeps.goto h.counter]
  exact h.told n (by decide)

/-- The RUN note that waits tells of the record as the event leaves it (R83). -/
theorem runNote (h : EndedFrom u t) (n : Noted .run u.runNoteBytes u) : Announced .run t.runNoteBytes t := by
  rw [runNoteBytes_congr h.keeps.run h.counter]
  exact h.told n (by decide)

end EndedFrom

theorem Steady.notStopping (h : Steady s) : NotStopping s := fun r e => by rw [h.transition] at e; cases e

theorem Steady.running (h : Steady s) : s.power.state ≠ .backup := by rw [h.operating]; decide

theorem Steady.not_inStandby (h : Steady s) : s.inStandby = false := by simp [State.inStandby, h.operating, h.transition]

/-- A request that its owner serves ends as an event does, where the kind is one that settles (R199). -/
theorem requestFrame_settled {k : RequestKind} {p : List Byte} {r : Reply} (h : PortReady s) (hk : k.settles = true)
    (hp : k.admitsLength p.length = true) (hu : serve k p s = (u, r)) : requestFrame k p s = answered k r (settleUnits s u) := by
  rw [requestFrame_ready h hp, hk, hu]
  rfl

/-! ### STILL given under the direct activity (R72, R85) -/

/-- An ending has given STILL to a threaded transport, and the claim to the direct activity. -/
structure RestGiven (s t : State) : Prop where
  mech   : t.mech = .operator .direct
  target : t.transport.target = some .still
  change : t.transport.change = some (.servo .still)
  nav    : t.nav = s.nav
  keeps  : KeepsBut [.transport, .mech, .sending] s t
  notes  : ∀ {k : NoteKey} {c : List Byte}, Noted k c s → NoteKey.mode ≠ k → NoteKey.mark ≠ k → Noted k c t
  sequence : t.transport.resetInFlight = s.transport.resetInFlight

theorem restGiven (h : StandsThreaded s) (hne : s.transport.mode ≠ .still) : RestGiven s (passToDirect (giveRest s)) := by
  obtain ⟨u, hu⟩ : ∃ u, u = giveTarget .still s := ⟨_, rfl⟩
  have given : Given .still s u := hu ▸ given_of_threaded h rfl hne
  have steered : Steered s u := hu ▸ steered_giveTarget .still s
  obtain ⟨-, -, -, hs, -, -⟩ := h.threaded.rests
  have change : u.transport.change = some (.servo .still) := by rw [given.change, if_neg hs]; rfl
  have rest : passToDirect (giveRest s) = setMech (.operator .direct) u := by
    have rests : giveRest s = u := by simp [giveRest, h.mode, hu]
    have moving : (setMech (.operator .direct) u).standsStill = false := by simp [State.standsStill, State.settled, change]
    rw [rests, passToDirect, releaseIfStill, moving, if_neg fun e => Bool.false_ne_true e.2]
  have kept : KeepsBut [.transport, .sending] s u := hu ▸ giveTarget_servo_keeps h rfl rfl hne
  rw [rest]
  exact
    { mech := rfl
      target := given.target
      change := change
      nav := steered.nav
      keeps := (kept.mono (by simp)).trans ((setMech_keeps ..).mono (by simp))
      notes := fun n hm hk => (steered.notes n hm hk).of
      sequence := steered.sequence }

theorem RestGiven.counter (h : RestGiven s t) : t.tape.counter = s.tape.counter := (h.keeps.same .counter (by decide)).1

/-- A go-to of the host that fails gives the claim to the direct activity (R72). -/
theorem failGoto_host (h : s.nav.goto.owner = .host) (o : GotoOutcome) (r : RunResult) :
    failGoto o r s = passToDirect (giveRest (closeGoto o s)) := by
  simp only [failGoto, h]

/-- A go-to of the host that has ended short of its target, STILL given (R72). -/
structure GotoFailed (o : GotoOutcome) (s t : State) : Prop where
  closed : GotoClosed o t
  rest   : RestGiven (closeGoto o s) t
  run    : t.nav.run = s.nav.run
  keeps  : KeepsBut [.transport, .nav, .mech, .sending] s t

theorem StandsThreaded.of (h : StandsThreaded s) (ht : t.transport = s.transport := by rfl) : StandsThreaded t :=
  ⟨by rw [ht]; exact h.mode, by rw [ht]; exact h.change⟩

theorem gotoFailed {o : GotoOutcome} (ho : o ≠ .done) (hb : s.power.state ≠ .backup) (h : StandsThreaded s)
    (hne : s.transport.mode ≠ .still) (host : s.nav.goto.owner = .host) (r : RunResult) : GotoFailed o s (failGoto o r s) := by
  have deck : (closeGoto o s).transport = s.transport := (closeGoto_keeps o s).transport
  have rest := restGiven (h.of deck) (by rw [deck]; exact hne)
  obtain ⟨active, outcome, landed, overshoot, noted⟩ := closeGoto_closed ho hb
  have bytes := gotoNoteBytes_congr (congrArg (·.goto) rest.nav) rest.counter
  rw [failGoto_host host]
  refine ⟨⟨by rw [rest.nav]; exact active, by rw [rest.nav]; exact outcome, by rw [rest.nav]; exact landed,
    by rw [rest.nav]; exact overshoot, ?_⟩, rest, by rw [rest.nav, closeGoto_eq, postGoto_nav],
    ((closeGoto_keeps o s).mono (by simp)).trans (rest.keeps.mono (by simp))⟩
  rw [bytes]
  exact rest.notes noted (by decide) (by decide)

/-- A run that has ended, STILL given (R85). -/
structure RunFailed (r : RunResult) (s t : State) : Prop where
  closed : RunClosed r s t
  rest   : RestGiven (closeRun r s) t
  keeps  : KeepsBut [.transport, .nav, .mech, .sending] s t

theorem runFailed (r : RunResult) (hb : s.power.state ≠ .backup) (h : StandsThreaded s) (hne : s.transport.mode ≠ .still) :
    RunFailed r s (passToDirect (giveRest (closeRun r s))) := by
  have deck : (closeRun r s).transport = s.transport := (closeRun_keeps r s).transport
  have rest := restGiven (h.of deck) (by rw [deck]; exact hne)
  obtain ⟨state, result, segments, goto, noted⟩ := closeRun_closed r hb
  have bytes := runNoteBytes_congr (congrArg (·.run) rest.nav) rest.counter
  refine ⟨⟨by rw [rest.nav]; exact state, by rw [rest.nav]; exact result, by rw [rest.nav]; exact segments,
    by rw [rest.nav]; exact goto, ?_⟩, rest, ((closeRun_keeps r s).mono (by simp)).trans (rest.keeps.mono (by simp))⟩
  rw [bytes]
  exact rest.notes noted (by decide) (by decide)

end Sys2Proof.Machine
end

section
/-! O30 and O37: the starts of a go-to and of a run (R65, R66, R69, R70, R82, R83). -/

namespace Sys2Proof.Machine

variable {s t u : State} {m : Mode}

/-! ### The first target of a go-to (R66, R69, R70) -/

/-- The go-to record as it is filled and its first phase begins (R65, R66). -/
def Goto.begun (owner : Owner) (form : GotoForm) (final : FinalAction) (phase : GotoPhase) (approach : Direction) (drifted : Bool) : Goto :=
  { Goto.idle with
    active := true, owner := owner, form := form, final := final, phase := phase, approach := approach, drifted := drifted }

/-- The state with a go-to record put in. -/
def State.withGoto (g : Goto) (s : State) : State := { s with nav.goto := g }

theorem withGoto_keeps (g : Goto) (s : State) : KeepsBut [.nav] s (s.withGoto g) := by
  refine ⟨fun q hq => ?_⟩
  cases q <;> simp_all [SamePart, State.withGoto]

/-- A phase begins, and its target is given. -/
theorem pursue_fillGoto (o : Owner) (f : GotoForm) (a : FinalAction) (p : GotoPhase) (d : Direction) (m : Mode) (s : State) :
    pursue p d m (fillGoto o f a s) = giveTarget m (s.withGoto (.begun o f a p d (s.tape.quality == .drifted))) := rfl

theorem pursue_landedAtOnce {p : GotoPhase} (hp : p ≠ .landing) (d : Direction) (m : Mode) (s : State) :
    (pursue p d m s).landedAtOnce = false := by
  have phase : (pursue p d m s).nav.goto.phase = p := by rw [pursue, (steered_giveTarget ..).nav]
  simp [State.landedAtOnce, phase, hp]

/-- A go-to whose first phase is not LANDING is on its way once its first target is given. -/
theorem startGoto_pursues {o : Owner} {f : GotoForm} {a : FinalAction} {p : GotoPhase} {d : Direction}
    (aim : aimGoto (fillGoto o f a s) = pursue p d m (fillGoto o f a s)) (hp : p ≠ .landing) :
    startGoto o f a s = giveTarget m (s.withGoto (.begun o f a p d (s.tape.quality == .drifted))) := by
  have under := pursue_landedAtOnce hp d m (fillGoto o f a s)
  simp only [startGoto, aim, under, Bool.false_eq_true, if_false]
  rfl

/-- The phase of a counter go-to by the distance, and the mode that it asks for (R66). -/
def counterPhase (far : Bool) : GotoPhase := if far then .wind else .search

def Direction.pursuit (d : Direction) (far : Bool) : Mode := if far then d.windMode else d.searchMode

theorem Direction.pursuit_asked (d : Direction) (far : Bool) : (d.pursuit far).asked = true ∧ (d.pursuit far).threaded = true := by
  cases far
  · exact d.searchMode_asked
  · exact d.windMode_asked

theorem counterPhase_ne_landing (far : Bool) : counterPhase far ≠ .landing := by cases far <;> decide

/-- A counter go-to away from its target winds toward one beyond the approach distance, and searches toward one within it (R66). -/
theorem aimGoto_counter {v : Int} (hf : s.nav.goto.form = .counter v) (hd : v - s.tape.counter ≠ 0) :
    aimGoto s = pursue (counterPhase (decide (40 * s.settings.frameRate < (v - s.tape.counter).natAbs)))
      (directionToward (v - s.tape.counter))
      ((directionToward (v - s.tape.counter)).pursuit (decide (40 * s.settings.frameRate < (v - s.tape.counter).natAbs))) s := by
  simp only [aimGoto, hf, hd, if_false]
  rw [show s.approach = 40 * s.settings.frameRate from rfl]
  by_cases far : 40 * s.settings.frameRate < (v - s.tape.counter).natAbs
  · simp [far, counterPhase, Direction.pursuit]
  · simp [far, counterPhase, Direction.pursuit]

theorem aimGoto_forward {n : Nat} {f : Option Filter} (hf : s.nav.goto.form = .markForward n f) (hm : s.transport.mode ≠ .searchFwd) :
    aimGoto s = pursue .counting .forward .searchFwd s := by
  simp [aimGoto, hf, hm]

theorem aimGoto_backward {n : Nat} (hf : s.nav.goto.form = .markBackward n) : aimGoto s = pursue .counting .reverse .windRev s := by
  simp [aimGoto, hf]

/-! ### The requests taken (R65, R82) -/

theorem gotoRequest_taken {form final count direction present code mask : Byte} {target : Word24} {f : GotoForm} {a : FinalAction}
    (hf : gotoForm form target count direction present code mask s = some f) (ha : valueAt FinalAction.all final = some a)
    (hc : firstFailing (moveChecks s) = none) : gotoRequest form final target count direction present code mask s =
      (startGoto .host f a (grantOperator .goTo s), { status := .accepted, fields := [flagByte (s.tape.quality == .drifted)] }) := by
  rw [← gotoRefusal_eq] at hc
  simp only [gotoRequest, hf, ha, hc]

/-- RUN_START takes the claim from no one but the direct activity, and seeks the first segment (R82). -/
theorem runStartRequest_taken (hc : firstFailing (moveChecks s) = none) (hg : s.nav.run.segments ≠ [])
    (hr : s.nav.run.state.active = false) (hm : MechDirect s) (hq : s.transport.resetInFlight = false) : runStartRequest s =
      answer .accepted (seekSegments s.nav.run.segments.length 1 { setMech (.operator .run) s with nav.run.result := none }) := by
  rw [← gotoRefusal_eq] at hc
  simp only [runStartRequest, hc, hg, hr, if_false, Bool.false_eq_true, grantOperator_direct hm hq, setMech_nav]

theorem valueAt_finalAction {b : Byte} (lo : 1 ≤ b.toNat) (hi : b.toNat ≤ 3) : valueAt FinalAction.all b = some (finalOf b) := by
  have cases_ : b = 1 ∨ b = 2 ∨ b = 3 := by bv_omega
  rcases cases_ with rfl | rfl | rfl <;> rfl

theorem outOfRange_iff (s : State) (v : Int) : s.inCounterRange v = !s.outOfRange v := by
  rw [Bool.eq_iff_iff]
  simp only [State.outOfRange, Bool.not_eq_true', decide_eq_false_iff_not, Nat.not_lt]
  exact decide_eq_true_iff

/-- The fields of a mark GOTO within R65's first check. -/
structure MarkFields (final count present : Byte) : Prop where
  final   : valueAt FinalAction.all final = some (finalOf final)
  count   : ¬ (count.toNat < 1 ∨ 99 < count.toNat)
  present : flagOf present = some (decide (present = 1))

theorem markFields {final count present : Byte} {backward : Bool} (h : markFieldsBad final count present backward = false) :
    MarkFields final count present ∧ (backward = true → present = 0) := by
  simp only [markFieldsBad, Bool.or_eq_false_iff, decide_eq_false_iff_not, Bool.and_eq_false_imp, bne_eq_false_iff_eq] at h
  obtain ⟨⟨⟨⟨⟨lo, hi⟩, few⟩, many⟩, flag⟩, plain⟩ := h
  have flags : present = 0 ∨ present = 1 := by bv_omega
  refine ⟨⟨valueAt_finalAction (by omega) (by omega), by omega, ?_⟩, plain⟩
  rcases flags with rfl | rfl <;> rfl

theorem gotoForm_forward {final count present : Byte} (h : MarkFields final count present) (v : Word24) (code mask : Byte) :
    gotoForm 2 v count 1 present code mask s =
      some (.markForward count.toNat (if present = 1 then some { code := code, mask := mask } else none)) := by
  rw [gotoForm, if_neg (by decide), if_pos rfl, if_neg h.count, h.present]
  simp

theorem gotoForm_backward {final count : Byte} (h : MarkFields final count 0) (v : Word24) (code mask : Byte) :
    gotoForm 2 v count 2 0 code mask s = some (.markBackward count.toNat) := by
  rw [gotoForm, if_neg (by decide), if_pos rfl, if_neg h.count]
  rfl

theorem gotoForm_counter {v : Word24} (h : s.outOfRange v.toInt = false) (count direction present code mask : Byte) :
    gotoForm 1 v count direction present code mask s = some (.counter v.toInt) := by
  rw [gotoForm, if_pos rfl, outOfRange_iff, h]
  rfl

/-! ### The start from a settled transport -/

theorem moveChecks_dry (h : firstFailing (moveChecks s) = none) (hs : s.transport.mode = .stop) : s.transport.dew = false := by
  by_contra wet
  rw [Bool.not_eq_false] at wet
  simp only [moveChecks, firstFailing_append, firstFailing_cons, firstFailing_nil, hs, wet] at h
  cases hc : (firstFailing (mechChecks s)) <;> simp [hc] at h

/-- A settled transport at rest or in a threaded mode, dry where it is at rest. -/
structure Startable (s : State) : Prop where
  mode   : s.transport.mode = .stop ∨ s.transport.mode.threaded = true
  change : s.transport.change = none
  dry    : s.transport.mode = .stop → s.transport.dew = false

theorem Startable.of (h : Startable s) (ht : t.transport = s.transport := by rfl) : Startable t :=
  ⟨by rw [ht]; exact h.mode, by rw [ht]; exact h.change, by rw [ht]; exact h.dry⟩

theorem Startable.given (h : Startable s) (ha : m.asked = true) (ht : m.threaded = true) (hne : s.transport.mode ≠ m) :
    Given m s (giveTarget m s) := by
  rcases h.mode with stop | threaded
  · exact given_of_stop stop h.change (h.dry stop) ha ht
  · exact given_of_threaded ⟨threaded, h.change⟩ ha hne

/-- The parts that the start of a go-to or a run may change. -/
def startParts : List Part := [.transport, .counter, .estimate, .marks, .nav, .mech, .sending]

/-- A GOTO has been accepted: the claim, the record, and the first target with its path begun. -/
structure GotoBegun (g : Goto) (m : Mode) (s t : State) : Prop where
  mech   : t.mech = .operator .goTo
  goto   : t.nav.goto = g
  target : t.transport.target = some m
  change : t.transport.change = some (if s.transport.mode = .stop then .mech .threading else .servo m)
  keeps  : KeepsBut startParts s t

theorem gotoBegun {g : Goto} (h : Startable s) (ha : m.asked = true) (ht : m.threaded = true) (hne : s.transport.mode ≠ m)
    (e : EndedFrom (giveTarget m ((setMech (.operator .goTo) s).withGoto g)) t) : GotoBegun g m s t := by
  obtain ⟨q, hq⟩ : ∃ q, q = (setMech (.operator .goTo) s).withGoto g := ⟨_, rfl⟩
  have kept : KeepsBut [.mech, .nav] s q :=
    hq ▸ ((setMech_keeps ..).mono (by simp)).trans ((withGoto_keeps ..).mono (by simp))
  have deck : q.transport = s.transport := kept.transport
  rw [← hq] at e
  have given : Given m q (giveTarget m q) := (h.of deck).given ha ht (by rw [deck]; exact hne)
  have steered := steered_giveTarget m q
  exact
    { mech := e.keeps.mech.trans (steered.keeps.mech.trans (by rw [hq]; rfl))
      goto := e.keeps.goto.trans (steered.keeps.goto.trans (by rw [hq]; rfl))
      target := by rw [e.keeps.transport]; exact given.target
      change := by rw [e.keeps.transport, given.change, deck, ht]; rfl
      keeps := (kept.mono (by simp [startParts])).trans ((steered.keeps.mono (by simp [startParts, stillParts])).trans
        (e.keeps.mono (by simp [startParts]))) }

theorem flagByte_drifted (s : State) : flagByte (s.tape.quality == .drifted) = if s.tape.quality = .drifted then 1 else 0 := by
  cases s.tape.quality <;> rfl

/-- A GOTO whose fields and checks are passed, its go-to with a way to go. -/
theorem exec_goto_begins {p : List Byte} {f : GotoForm} {a : FinalAction} {ph : GotoPhase} {d : Direction} (hs : PortReady s)
    (hy : Steady s) (hm : MechDirect s) (hp : RequestKind.admitsLength .goto p.length = true)
    (served : serve .goto p s =
      (startGoto .host f a (grantOperator .goTo s), { status := .accepted, fields := [flagByte (s.tape.quality == .drifted)] }))
    (aim : aimGoto (fillGoto .host f a (setMech (.operator .goTo) s)) = pursue ph d m (fillGoto .host f a (setMech (.operator .goTo) s)))
    (hl : ph ≠ .landing) (h : Startable s) (ha : m.asked = true) (ht : m.threaded = true) (hne : s.transport.mode ≠ m) :
    ∃ t, requestFrame .goto p s = t ∧
      Replied .goto { status := .accepted, fields := [if s.tape.quality = .drifted then 1 else 0] } t ∧
      GotoBegun (.begun .host f a ph d (s.tape.quality == .drifted)) m s t := by
  rw [grantOperator_direct hm hy.sequence, startGoto_pursues aim hl, flagByte_drifted] at served
  have running : NotStopping (giveTarget m ((setMech (.operator .goTo) s).withGoto
      (.begun .host f a ph d (s.tape.quality == .drifted)))) :=
    hy.notStopping.of (steered_giveTarget ..).keeps.power
  exact ⟨_, requestFrame_settled hs rfl hp served, replied_answered .., gotoBegun h ha ht hne
    (endedFrom_request (.inl hy.sequence) running ..)⟩

/-- Settles O30: the claim is taken, the record filled, and the form and the distance decide the first target. -/
theorem gotoStarts : Obligations.GotoStarts := by
  intro s hs _ hy hm _ hc _ hmode checks
  have startable : Startable s := ⟨hmode, hc, moveChecks_dry checks⟩
  refine ⟨?_, ?_⟩
  · intro f v lo hi range distance d far m away other
    have pursuit : m = d.pursuit far := rfl
    have served : serve .goto (1 :: f :: bytesOf 3 v.toNat ++ [0, 0, 0, 0, 0]) s = _ :=
      (congrArg (fun w => gotoRequest 1 f w 0 0 0 0 0 s) (word24_bytes v)).trans
        (gotoRequest_taken (gotoForm_counter range 0 0 0 0 0) (valueAt_finalAction lo hi) checks)
    have aim : aimGoto (fillGoto .host (.counter v.toInt) (finalOf f) (setMech (.operator .goTo) s)) = pursue (counterPhase far) d m _ :=
      aimGoto_counter (s := fillGoto .host (.counter v.toInt) (finalOf f) (setMech (.operator .goTo) s)) rfl away
    obtain ⟨asked, threaded⟩ := d.pursuit_asked far
    obtain ⟨t, acts, replied, begun⟩ := exec_goto_begins hs hy hm rfl served aim (counterPhase_ne_landing far) startable
      (pursuit ▸ asked) (pursuit ▸ threaded) other
    exact ⟨t, congrArg _ acts, replied, begun.mech, begun.goto, begun.target, begun.change, begun.keeps⟩
  intro f n present code mask started
  refine ⟨fun fields other => ?_, fun fields other => ?_⟩
  · obtain ⟨within, -⟩ := markFields fields
    have served : serve .goto [2, f, 0, 0, 0, n, 1, present, code, mask] s = _ :=
      gotoRequest_taken (gotoForm_forward within _ code mask) within.final checks
    obtain ⟨t, acts, replied, begun⟩ := exec_goto_begins hs hy hm rfl served (aimGoto_forward rfl other) (by decide) startable rfl rfl other
    exact ⟨t, congrArg _ acts, replied, begun.mech, begun.goto, begun.target, begun.change, begun.keeps⟩
  · obtain ⟨within, plain⟩ := markFields fields
    obtain rfl := plain rfl
    have served : serve .goto [2, f, 0, 0, 0, n, 2, 0, code, mask] s = _ :=
      gotoRequest_taken (gotoForm_backward within _ code mask) within.final checks
    obtain ⟨t, acts, replied, begun⟩ := exec_goto_begins hs hy hm rfl served (aimGoto_backward rfl) (by decide) startable rfl rfl other
    exact ⟨t, congrArg _ acts, replied, begun.mech, begun.goto, begun.target, begun.change, begun.keeps⟩

/-! ### A run begins (R82, R83) -/

/-- The go-to of the first segment that is away from the counter begins, and the run waits for it in SEEKING. -/
theorem seekSegments_pursues {i n : Nat} {g : Segment} (hg : s.nav.run.segment i = some g) (away : g.start - s.tape.counter ≠ 0) :
    ∃ p d m, seekSegments (n + 1) i s =
      giveTarget m ((setRunState (.seeking i) s).withGoto (.begun (.run i) (.counter g.start) .play p d (s.tape.quality == .drifted))) := by
  obtain ⟨q, hq⟩ : ∃ q, q = setRunState (.seeking i) s := ⟨_, rfl⟩
  have tape : q.tape = s.tape := by rw [hq, setRunState, postRun_tape]
  have aim := aimGoto_counter (s := fillGoto (.run i) (.counter g.start) .play q) rfl
    (show g.start - q.tape.counter ≠ 0 by rw [tape]; exact away)
  have opened : openSegment i s = aimGoto (fillGoto (.run i) (.counter g.start) .play q) := by
    simp only [openSegment, hg, hq, Option.elim_some]
  have under : (openSegment i s).landedAtOnce = false := by rw [opened, aim]; exact pursue_landedAtOnce (counterPhase_ne_landing _) ..
  have seek : seekSegments (n + 1) i s = openSegment i s := by
    simp only [seekSegments, under, Bool.false_eq_true, if_false]
  rw [seek, opened, aim, pursue_fillGoto, ← hq, ← tape]
  exact ⟨_, _, _, rfl⟩

/-- Settles O37: the claim passes to the run, and its first segment's start is sought by a go-to of its own. -/
theorem runStarts : Obligations.RunStarts := by
  intro s hs _ hy hm hn _ _ _ checks g hg away
  obtain ⟨n, hlen⟩ : ∃ n, s.nav.run.segments.length = n + 1 := by
    cases hl : s.nav.run.segments with
    | nil => rw [hl] at hg; cases hg
    | cons a l => exact ⟨l.length, rfl⟩
  have some_ : s.nav.run.segments ≠ [] := by
    rintro e
    rw [e] at hg
    cases hg
  have first : s.nav.run.segments[0]? = some g := by rw [← List.head?_eq_getElem?]; exact hg
  obtain ⟨r, hr⟩ : ∃ r : State, r = { setMech (.operator .run) s with nav.run.result := none } := ⟨_, rfl⟩
  have kept : KeepsBut [.mech, .nav] s r := by
    rw [hr]
    refine ((setMech_keeps (.operator .run) s).mono (by simp)).trans ⟨fun q hq => ?_⟩
    cases q <;> simp_all [SamePart]
  obtain ⟨p, d, m, sought⟩ := seekSegments_pursues (s := r) (i := 1) (n := n) (by rw [hr]; exact first)
    (show g.start - r.tape.counter ≠ 0 by rw [hr]; exact sub_ne_zero.mpr away)
  obtain ⟨q, hq⟩ : ∃ q, q = (setRunState (.seeking 1) r).withGoto
      (.begun (.run 1) (.counter g.start) .play p d (r.tape.quality == .drifted)) := ⟨_, rfl⟩
  have runQ : q.nav.run = { r.nav.run with state := .seeking 1 } := by
    rw [hq]
    exact congrArg Navigation.run (postRun_nav _)
  have keptQ : KeepsBut [.mech, .nav, .sending] s q := by
    have set : KeepsBut [.nav, .sending] r (setRunState (.seeking 1) r) := by
      refine KeepsBut.after ((postRun_keeps _).mono (by simp)) ⟨fun p hp => ?_⟩
      cases p <;> simp_all [SamePart]
    exact (kept.mono (by simp)).trans ((set.mono (by simp)).trans (hq ▸ (withGoto_keeps ..).mono (by simp)))
  have noted : Noted .run q.runNoteBytes q := by
    have running : r.power.state ≠ .backup := by rw [kept.power]; exact hy.running
    have bytes : q.runNoteBytes = ({ r with nav.run.state := .seeking 1 } : State).runNoteBytes :=
      runNoteBytes_congr runQ (by rw [hq]; exact congrArg TapePosition.counter (postRun_tape _))
    rw [bytes, hq]
    exact (post_noted (s := { r with nav.run.state := .seeking 1 }) running _ _).of
  have served : serve .runStart [] s = (giveTarget m q, { status := .accepted }) := by
    have request := runStartRequest_taken checks some_ hn.run hm hy.sequence
    rw [hlen, ← hr, sought, ← hq] at request
    exact request
  have steered := steered_giveTarget m q
  have ended := endedFrom_request (b := s) (u := giveTarget m q) (.inl hy.sequence)
    (hy.notStopping.of (steered.keeps.power.trans keptQ.power)) .runStart { status := .accepted }
  have goto := ended.keeps.goto.trans steered.keeps.goto
  have run := ended.keeps.run.trans steered.keeps.run
  have told : Noted .run (giveTarget m q).runNoteBytes (giveTarget m q) := by
    rw [runNoteBytes_congr (congrArg (·.run) steered.nav) steered.counter]
    exact steered.notes noted (by decide) (by decide)
  refine ⟨_, congrArg Host.Outcome.next (requestFrame_settled hs rfl rfl served), replied_answered ..,
    ended.keeps.mech.trans (steered.keeps.mech.trans (by rw [hq, setRunState]; exact (postRun_mech _).trans (by rw [hr]; rfl))),
    run.trans (runQ.trans (by rw [hr]; rfl)), by rw [goto, hq]; rfl, by rw [goto, hq]; rfl, by rw [goto, hq]; rfl,
    by rw [goto, hq]; rfl, ended.runNote told,
    (keptQ.mono (by simp)).trans ((steered.keeps.mono (by simp [stillParts])).trans (ended.keeps.mono (by simp)))⟩

end Sys2Proof.Machine
end

section
/-! O32 and O33: the ends of a go-to of the host, in the mode of its final action (R68, R72) and short of it (R71 to R73). -/

namespace Sys2Proof.Machine

variable {b s t u e : State} {m : Mode}

/-! ### A go-to that ends DONE (R68, R72) -/

/-- A go-to closed at its landing, and the note of it. -/
structure GotoLanded (s t : State) : Prop where
  active    : t.nav.goto.active = false
  outcome   : t.nav.goto.outcome = some .done
  landed    : t.nav.goto.landed = some s.tape.counter
  overshoot : t.nav.goto.overshoot = some (s.tape.counter - s.nav.goto.landingPoint)
  noted     : Noted .goto t.gotoNoteBytes t

theorem closeGoto_landed (hb : s.power.state ≠ .backup) : GotoLanded s (closeGoto .done s) := by
  obtain ⟨v, hv⟩ : ∃ v : State, v = { s with nav.goto := s.nav.goto.closed .done s.tape.counter } := ⟨_, rfl⟩
  have closed : closeGoto .done s = postGoto v := by rw [hv]; rfl
  have goto : (postGoto v).nav.goto = s.nav.goto.closed .done s.tape.counter := by rw [postGoto_nav, hv]
  have bytes : (postGoto v).gotoNoteBytes = v.gotoNoteBytes := gotoNoteBytes_congr (by rw [postGoto_nav]) (by rw [postGoto_tape])
  rw [closed]
  refine ⟨by rw [goto]; rfl, by rw [goto]; rfl, by rw [goto]; rfl, by rw [goto]; rfl, ?_⟩
  rw [bytes]
  exact post_noted (by rw [hv]; exact hb) _ _

/-- The claim passes to the direct activity, and is free at rest (R72, R185). -/
theorem passToDirect_eq (s : State) : passToDirect s = setMech (if s.standsStill then .free else .operator .direct) s := by
  have still : (setMech (.operator .direct) s).standsStill = s.standsStill := rfl
  rw [passToDirect, releaseIfStill, still]
  cases s.standsStill <;> rfl

/-- A go-to of the host in LANDING ends at the mode of its final action (R68). -/
structure LandingAt (m : Mode) (s : State) : Prop where
  active : s.nav.goto.active = true
  host   : s.nav.goto.owner = .host
  phase  : s.nav.goto.phase = .landing
  final  : s.nav.goto.final.mode = m

theorem LandingAt.of (h : LandingAt m s) (hg : t.nav.goto = s.nav.goto) : LandingAt m t :=
  ⟨by rw [hg]; exact h.active, by rw [hg]; exact h.host, by rw [hg]; exact h.phase, by rw [hg]; exact h.final⟩

theorem gotoAtMode_done (h : LandingAt s.transport.mode s) : gotoAtMode s = passToDirect (closeGoto .done s) := by
  simp only [gotoAtMode, h.active, Bool.not_true, Bool.false_eq_true, if_false, h.phase, if_true, h.final, gotoDone, h.host]

/-- What the end of the event leaves of a go-to that has landed. -/
structure GotoDone (s t : State) : Prop where
  active  : t.nav.goto.active = false
  outcome : t.nav.goto.outcome = some .done
  landed  : t.nav.goto.landed = some s.tape.counter
  form    : ∀ v, s.nav.goto.form = .counter v → t.nav.goto.overshoot = some (s.tape.counter - v)
  mark    : ∀ r, s.nav.goto.landingMark = some r → s.nav.goto.form.isMark →
    t.nav.goto.overshoot = some (s.tape.counter - (r.position + 16))
  note    : Announced .goto t.gotoNoteBytes t

/-- The landing point is the counter target, or the tail of the landing mark (R68). -/
theorem landingPoint_counter {g : Goto} {v : Int} (h : g.form = .counter v) : g.landingPoint = v := by simp only [Goto.landingPoint, h]

theorem landingPoint_mark {g : Goto} {r : MarkRecord} (h : g.landingMark = some r) (hf : g.form.isMark = true) :
    g.landingPoint = r.position + 16 := by
  cases form : g.form with
  | counter v => rw [form] at hf; cases hf
  | markForward n f => simp only [Goto.landingPoint, form, h, Option.elim_some]
  | markBackward n => simp only [Goto.landingPoint, form, h, Option.elim_some]

/-- A go-to closed at its landing stays so to the end of the event, with the claim passed on. -/
theorem gotoDone_ended {c : MechClaim} (hb : e.power.state ≠ .backup) (hg : e.nav.goto = s.nav.goto)
    (hc : e.tape.counter = s.tape.counter) (he : EndedFrom (setMech c (closeGoto .done e)) t) : GotoDone s t := by
  obtain ⟨active, outcome, landed, overshoot, noted⟩ := closeGoto_landed (s := e) hb
  have goto : t.nav.goto = (closeGoto .done e).nav.goto := he.keeps.goto
  have point : t.nav.goto.overshoot = some (s.tape.counter - s.nav.goto.landingPoint) := by rw [goto, overshoot, hc, hg]
  exact
    { active := goto ▸ active
      outcome := goto ▸ outcome
      landed := by rw [goto, landed, hc]
      form := fun v hv => by rw [point, landingPoint_counter hv]
      mark := fun r hr hm => by rw [point, landingPoint_mark hr hm]
      note := he.gotoNote noted.of }

theorem enterMode_counter (m : Mode) (c : Option Change) (s : State) : (enterMode m c s).tape.counter = s.tape.counter := by
  rw [enterMode_tape]
  unfold tapeAtMode
  split <;> rfl

theorem FinalAction.mode_of_moving {a : FinalAction} (h : a.mode ≠ .stop) : a.mode = .still ∨ a.mode = .play := by
  cases a with
  | stop => exact absurd rfl h
  | still => exact .inl rfl
  | play => exact .inr rfl

/-- The servo change to the final action is complete, and the go-to with it (R66, R68). -/
theorem enterThreadedMode_done (h : LandingAt m s) (hm : m ≠ .stop) :
    ∃ e, enterThreadedMode m ⟨false, false⟩ s = setMech (.operator .direct) (closeGoto .done e) ∧
      e.transport = s.transport.reached m none s.now ∧ e.tape.counter = s.tape.counter ∧ KeepsBut (.pins :: .estimate :: modeParts) s e := by
  obtain ⟨p, hp⟩ : ∃ p : Pins, p = { s.pins with startLeader := false, endLeader := false } := ⟨_, rfl⟩
  obtain ⟨e, he⟩ : ∃ e, e = checkHeld (enterMode m none (s.withPins p)) := ⟨_, rfl⟩
  have held := checkHeld_keeps (enterMode m none (s.withPins p))
  rw [← he] at held
  have kept : KeepsBut (.pins :: .estimate :: modeParts) s e :=
    ((withPins_keeps p s).mono (by simp)).trans (((enterMode_keeps ..).mono (by simp [modeParts])).trans
      (held.mono (by simp [modeParts])))
  have record : e.transport = s.transport.reached m none s.now := held.transport.trans (enterMode_transport ..)
  have counter : e.tape.counter = s.tape.counter := (held.same .counter (by decide)).1.trans (enterMode_counter ..)
  have mode : e.transport.mode = m := by rw [record]; rfl
  have lands : LandingAt e.transport.mode e := mode.symm ▸ h.of (kept.goto (by decide))
  have closed := closeGoto_keeps .done e
  have final := FinalAction.mode_of_moving (h.final ▸ hm)
  rw [h.final] at final
  have moving : (closeGoto .done e).standsStill = false := by
    rw [State.standsStill, closed.transport, mode]
    rcases final with rfl | rfl <;> exact Bool.and_false _
  have done : gotoAtMode e = setMech (.operator .direct) (closeGoto .done e) := by
    rw [gotoAtMode_done lands, passToDirect_eq, moving]
    rfl
  have units : unitsAtMode m e = setMech (.operator .direct) (closeGoto .done e) := by
    rw [← done]
    rcases final with rfl | rfl <;> rfl
  have entered : enterThreadedMode m ⟨false, false⟩ s = leaderAtMode ⟨false, false⟩ (unitsAtMode m e) := by rw [he, hp]; rfl
  refine ⟨e, ?_, record, counter, kept⟩
  rw [entered, units]
  exact leaderAtMode_idle ⟨fun h => Bool.false_ne_true h.2, fun h => Bool.false_ne_true h.2⟩

/-- At rest in STOP the go-to that lands there ends DONE, and its claim is free (R68, R185). -/
theorem comeToRest_done (hp : NoPrograms e) (h : LandingAt e.transport.mode e) (hs : e.standsStill = true)
    (hr : e.nav.run.state.active = false) : comeToRest e = setMech .free (closeGoto .done e) := by
  obtain ⟨c, hc⟩ : ∃ c, c = closeGoto .done e := ⟨_, rfl⟩
  have closed : KeepsBut [.nav, .sending] e c := hc ▸ closeGoto_keeps .done e
  have still : c.standsStill = true := by
    rw [← hs]
    simp only [State.standsStill, State.settled, closed.transport]
  have done : gotoAtMode e = setMech .free c := by
    rw [gotoAtMode_done h, passToDirect_eq, ← hc, still]
    rfl
  have idle : NoNavigation (setMech .free c) :=
    ⟨by rw [hc]; exact congrArg (fun n => n.goto.active) (postGoto_nav _), by
      rw [hc, ← hr]; exact congrArg (fun n => n.run.state.active) (postGoto_nav _)⟩
  have free : releaseIfStill (setMech .free c) = setMech .free c := if_neg fun x => nomatch x.1
  rw [comeToRest, done, free, finishRun_idle idle, timerAtRest_idle (s := setMech .free c) (hp.of closed.sched), hc]
  rfl

/-- A transport that unthreads toward the STOP of a go-to in LANDING, nothing else having asked for the unthreading (R66, R68). -/
structure LandsAtStop (s : State) : Prop where
  lands    : LandingAt .stop s
  programs : NoPrograms s
  run      : s.nav.run.state.active = false
  mech     : s.mech = .operator .goTo
  target   : s.transport.target = some .stop
  plain    : s.transport.unthreadEnd = .plain
  settled  : s.transport.recovering = false

/-- The unthreading is complete, and the go-to with it (R66, R68). -/
theorem enterUnthreaded_done (h : LandsAtStop s) : ∃ e, enterUnthreaded s = setMech .free (closeGoto .done e) ∧
    e.transport = { s.transport with rewindDue := false }.reached .stop none s.now ∧ e.tape.counter = s.tape.counter ∧
    KeepsBut stillParts s e := by
  obtain ⟨v, hv⟩ : ∃ v, v = enterMode .stop none s := ⟨_, rfl⟩
  have mech : v.mech = .operator .goTo := hv ▸ (enterMode_keeps .stop none s).mech.trans h.mech
  have reached : v.transport = s.transport.reached .stop none s.now := hv ▸ enterMode_transport ..
  have target : v.transport.target = none := by rw [reached]; simp [Transport.reached, h.target]
  obtain ⟨e, he⟩ : ∃ e, e = forgetRewind v := ⟨_, rfl⟩
  have kept : KeepsBut stillParts s e := by rw [he, hv]; exact (atRest_keeps s).mono (by simp [stillParts])
  have record : e.transport = { s.transport with rewindDue := false }.reached .stop none s.now := by
    rw [he, forgetRewind]
    dsimp only
    rw [reached]
    rfl
  have counter : e.tape.counter = s.tape.counter := by rw [he, hv]; exact enterMode_counter ..
  have mode : e.transport.mode = .stop := by rw [record]; rfl
  have clear : e.transport.target = none := by rw [record]; simp [Transport.reached, h.target]
  have change : e.transport.change = none := by rw [record]; rfl
  have rest : comeToRest e = setMech .free (closeGoto .done e) := by
    refine comeToRest_done (h.programs.of (kept.sched (by decide))) ?_ ?_ (by rw [kept.run (by decide)]; exact h.run)
    · rw [mode]
      exact h.lands.of (kept.goto (by decide))
    · simp [State.standsStill, State.settled, mode, clear, change]
  have plain : enterUnthreaded s = enterStop s := by simp only [enterUnthreaded, h.plain]
  have stays : v.rewinds = false := by simp [State.rewinds, mech, MechClaim.isProtect]
  refine ⟨e, ?_, record, counter, kept⟩
  rw [plain, enterStop_of_stop h.target h.settled, ← hv, atStop_eq, stays, target, ← he, rest]
  rfl

/-- Settles O32: the mode reached event of the final action closes the go-to where the counter stands. -/
theorem gotoEndsDone : Obligations.GotoEndsDone := by
  intro s hb hq hn hp hmech hr active host landing done
  refine ⟨?_, ?_⟩
  · intro m hc final _ moving
    have lands : LandingAt m s := ⟨active, host, landing, final.symm⟩
    obtain ⟨e, entered, record, counter, kept⟩ := enterThreadedMode_done lands moving
    have acts : servoLocked ⟨false, false⟩ s = endDeckEvent s (setMech (.operator .direct) (closeGoto .done e)) := by
      have deck : servoLocked ⟨false, false⟩ s = deckEvent (enterThreadedMode m ⟨false, false⟩) s := by simp only [servoLocked, hc]
      rw [deck, deckEvent_running hb, entered]
    have power : e.power = s.power := kept.power (by decide)
    have closed := closeGoto_keeps .done e
    have ended := endedFrom_event (b := s) (u := setMech (.operator .direct) (closeGoto .done e)) (.inl hq)
      (hn.of (closed.power.trans power))
    have landed := gotoDone_ended (by rw [power]; exact hb) (kept.goto (by decide)) counter ended
    exact ⟨_, congrArg Host.Outcome.next acts,
      (congrArg Transport.mode (ended.keeps.transport.trans closed.transport)).trans (by rw [record]; rfl), ended.keeps.mech,
      landed.active, landed.outcome, landed.landed, landed.form, landed.mark, landed.note⟩
  · intro final ht hm hc he hrec
    obtain ⟨p, hpin⟩ : ∃ p : Pins, p = { s.pins with position := .loaded } := ⟨_, rfl⟩
    have stops : LandsAtStop (s.withPins p) :=
      { lands := ⟨active, host, landing, congrArg FinalAction.mode final⟩
        programs := hp.of
        run := hr
        mech := hmech
        target := ht
        plain := he
        settled := hrec }
    obtain ⟨e, entered, record, counter, kept⟩ := enterUnthreaded_done stops
    have acts : exec .unthreadingComplete s = .next (endDeckEvent (s.withPins p) (setMech .free (closeGoto .done e))) := by
      rw [← entered, ← stepReport_acts hb hc p enterUnthreaded, hpin]
      rfl
    have power : e.power = s.power := kept.power (by decide)
    have closed := closeGoto_keeps .done e
    have ended := endedFrom_event (b := s.withPins p) (u := setMech .free (closeGoto .done e)) (.inl hq)
      (hn.of (closed.power.trans power))
    have landed := gotoDone_ended (s := s.withPins p) (by rw [power]; exact hb) (kept.goto (by decide)) counter ended
    have deck := ended.keeps.transport.trans closed.transport
    refine ⟨_, acts, ⟨by rw [deck, record]; rfl, by rw [deck, record]; rfl, ?_⟩, ended.keeps.mech,
      ended.counter.trans ((congrArg TapePosition.counter (postGoto_tape _)).trans counter),
      ⟨landed.active, landed.outcome, landed.landed, landed.form, landed.mark, landed.note⟩, ?_⟩
    · rw [deck, record]
      exact if_pos ht
    · exact ((withPins_keeps p s).mono (by simp)).trans ((kept.mono (by simp [stillParts])).trans
        ((closed.mono (by simp)).trans (((setMech_keeps .free _).mono (by simp)).trans (ended.keeps.mono (by simp)))))

/-! ### A go-to that ends short of its target (R71 to R73) -/

/-- What the end of the event leaves of a go-to of the host that has failed. -/
structure GotoShort (o : GotoOutcome) (s t : State) : Prop where
  active    : t.nav.goto.active = false
  outcome   : t.nav.goto.outcome = some o
  landed    : t.nav.goto.landed = none
  overshoot : t.nav.goto.overshoot = none
  target    : t.transport.target = some .still
  change    : t.transport.change = some (.servo .still)
  mech      : t.mech = .operator .direct
  note      : Announced .goto t.gotoNoteBytes t
  keeps     : KeepsBut [.transport, .estimate, .nav, .mech, .sending] s t

theorem GotoFailed.ended {o : GotoOutcome} (h : GotoFailed o s u) (e : EndedFrom u t) : GotoShort o s t where
  active := e.keeps.goto ▸ h.closed.active
  outcome := e.keeps.goto ▸ h.closed.outcome
  landed := e.keeps.goto ▸ h.closed.landed
  overshoot := e.keeps.goto ▸ h.closed.overshoot
  target := e.keeps.transport ▸ h.rest.target
  change := e.keeps.transport ▸ h.rest.change
  mech := e.keeps.mech.trans h.rest.mech
  note := e.gotoNote h.closed.noted
  keeps := (h.keeps.mono (by simp)).trans (e.keeps.mono (by simp))

theorem gotoCancelRequest_none (h : s.nav.goto.active = false) : gotoCancelRequest s = answer .noSuch s := by
  simp only [gotoCancelRequest, h, Bool.false_eq_true, if_false]

theorem gotoCancelRequest_active (h : s.nav.goto.active = true) :
    gotoCancelRequest s = answer .ok (failGoto .cancelled .cancelled s) := by
  simp only [gotoCancelRequest, h, if_true]

/-- The owner of a go-to is as it was after a span of time. -/
theorem leapTo_owner (n : Nat) (s : State) : (leapTo n s).nav.goto.owner = s.nav.goto.owner := by
  simp only [leapTo, elapse, Goto.elapse]
  split <;> rfl

/-- Settles O33: both endings close the go-to and give STILL under the direct activity. -/
theorem gotoEndsEarly : Obligations.GotoEndsEarly := by
  intro s hd
  refine ⟨fun hs none => ?_, ?_⟩
  · have refused : serve .gotoCancel [] s = answer .noSuch s := gotoCancelRequest_none none
    exact congrArg Host.Outcome.next (requestFrame_refused hs hd rfl refused)
  intro hb active host hq hn hc hm hne ended
  have stands : StandsThreaded s := ⟨hm, hc⟩
  refine ⟨fun hs => ?_, fun motion le => ?_⟩
  · have failed := gotoFailed (o := .cancelled) (by decide) hb stands hne host .cancelled
    have finished := endedFrom_request (b := s) (.inl hq) (hn.of failed.keeps.power) .gotoCancel { status := .ok }
    have short := failed.ended finished
    have served : serve .gotoCancel [] s = (failGoto .cancelled .cancelled s, { status := .ok }) := gotoCancelRequest_active active
    exact ⟨_, congrArg Host.Outcome.next (requestFrame_settled hs rfl rfl served), replied_answered ..,
      ⟨short.active, short.outcome, short.landed, short.overshoot, short.target, short.change, short.mech, short.note,
        short.keeps.mono (by simp)⟩, (short.keeps.same .time (by decide)).1⟩
  · obtain ⟨limit, hl⟩ : ∃ limit, limit = s.now + (10 * 12288000 - s.nav.goto.untracked) := ⟨_, rfl⟩
    obtain ⟨w, hw⟩ : ∃ w, w = leapTo limit s := ⟨_, rfl⟩
    have now : w.now = limit := hw ▸ leapTo_now_of_le (by omega)
    have leap : KeepsBut [.time, .nav] s w := hw ▸ leapTo_keeps limit s
    have failed : GotoFailed .noTrack w (failGoto .noTrack .noTrack w) := by
      refine gotoFailed (by decide) (by rw [leap.power]; exact hb) (stands.of leap.transport) (by rw [leap.transport]; exact hne) ?_ _
      rw [hw, leapTo_owner]
      exact host
    have acts : exec .gotoNoTrack s = .next (endDeckEvent s (failGoto .noTrack .noTrack w)) := by
      have runs : s.gotoLimit = some limit := by
        rw [hl]
        simp [State.gotoLimit, limitWhile, active, motion, trackLimit, Config.unitsPerSecond]
      show Host.Outcome.next (timerEvent s.gotoLimit (failGoto .noTrack .noTrack) s) = _
      rw [runs, timerEvent_running hb, ← hw]
    have finished := endedFrom_event (b := s) (.inl hq) (hn.of (failed.keeps.power.trans leap.power))
    have short := failed.ended finished
    exact ⟨_, acts, ⟨short.active, short.outcome, short.landed, short.overshoot, short.target, short.change, short.mech, short.note,
      (leap.mono (by simp)).trans (short.keeps.mono (by simp))⟩, ((short.keeps.same .time (by decide)).1.trans now).trans hl⟩

end Sys2Proof.Machine
end

section
/-! A control pulse read, as it is handed to the navigation unit (R19, R42, R54 to R58, R71, R83). -/

namespace Sys2Proof.Machine

variable {s t v x : State} {d : Direction} {shape : Shape}

/-- A pulse has been counted and decoded, and the navigation unit is about to be told of it. -/
structure PulseHanded (d : Direction) (s v : State) : Prop where
  counter   : v.tape.counter = s.nextCount d
  goto      : v.nav.goto = s.nav.goto.tracked
  run       : v.nav.run = s.nav.run.tracked
  watches   : v.nav.watches = s.nav.watches
  transport : ∃ w n, v.transport = { s.transport with detect := w, lastPlayPulse := n }
  link      : v.link = s.link
  keeps     : KeepsBut [.transport, .counter, .marks, .nav, .sending] s v

theorem countPulse_on (h : s.countsOn d = true) : countPulse d s =
    { s with
      tape := { s.tape with spanStart := some s.now, counter := s.nextCount d }
      nav := { s.nav with goto := s.nav.goto.tracked, run := s.nav.run.tracked } } := by
  cases d with
  | forward => exact if_pos (of_decide_eq_true h)
  | reverse => exact if_pos (of_decide_eq_true h)

theorem countDetection_transport (s : State) :
    ∃ w n, countDetection s = { s with transport := { s.transport with detect := w, lastPlayPulse := n } } := by
  unfold countDetection
  split
  · exact ⟨_, _, rfl⟩
  · exact ⟨s.transport.detect, s.transport.lastPlayPulse, rfl⟩

theorem recordRead_sent (r : Option MarkRecord) (s : State) : (recordRead r s).nav = s.nav ∧ (recordRead r s).link = s.link ∧
    (recordRead r s).tape = s.tape := by
  cases r <;> exact ⟨rfl, rfl, rfl⟩

/-- What the decoder gives for a pulse that moves the counter (R54, R55). -/
def State.pulseDecoded (shape : Shape) (d : Direction) (s : State) : Decoder × Option MarkRecord :=
  s.marks.decoder.pulse shape s.tape.counter (s.nextCount d) s.now

/-- A decoder's answer is taken: the decoder goes on, and a mark is recorded (R58). -/
def takeDecoded (r : Decoder × Option MarkRecord) (v : State) : State := recordRead r.2 { v with marks.decoder := r.1 }

/-- What a pulse that moves the counter hands over. -/
def handPulse (shape : Shape) (d : Direction) (s : State) : State :=
  takeDecoded (s.pulseDecoded shape d) (countPulse d (countDetection s))

theorem pulseHanded (h : s.countsOn d = true) : PulseHanded d s (handPulse shape d s) := by
  obtain ⟨w, n, hc⟩ := countDetection_transport s
  obtain ⟨v, hv⟩ : ∃ v, v = countPulse d (countDetection s) := ⟨_, rfl⟩
  have on : (countDetection s).countsOn d = true := by rw [hc]; exact h
  have count := countPulse_on on
  rw [← hv, hc] at count
  obtain ⟨y, hy⟩ : ∃ y : State,
      y = { v with marks.decoder := (s.pulseDecoded shape d).1 } := ⟨_, rfl⟩
  have hand : handPulse shape d s = recordRead (s.pulseDecoded shape d).2 y := by rw [hy, hv]; rfl
  obtain ⟨nav, link, tape⟩ := recordRead_sent (s.pulseDecoded shape d).2 y
  have read := recordRead_keeps (s.pulseDecoded shape d).2 y
  have kept : KeepsBut [.transport, .counter, .marks, .nav] s y := by
    rw [hy, count]
    refine ⟨fun q hq => ?_⟩
    cases q <;> simp_all [SamePart]
  rw [hand]
  exact
    { counter := by rw [tape, hy, count]; rfl
      goto := by rw [nav, hy, count]
      run := by rw [nav, hy, count]
      watches := by rw [nav, hy, count]
      transport := ⟨w, n, by rw [read.transport, hy, count]⟩
      link := by rw [link, hy, count]
      keeps := (kept.mono (by simp)).trans (read.mono (by simp)) }

/-- A pulse that moves the counter hands the navigation unit a step, and the mark that it completes (R19, R42). -/
theorem pulseRead_navigates (h : s.countsOn d = true) : pulseRead shape d s =
    noteRead (s.pulseDecoded shape d).2 (navigate (some d) (s.pulseDecoded shape d).2 (handPulse shape d s)) := by
  obtain ⟨w, n, hc⟩ := countDetection_transport s
  obtain ⟨v, hv⟩ : ∃ v, v = countPulse d (countDetection s) := ⟨_, rfl⟩
  have on : (countDetection s).countsOn d = true := by rw [hc]; exact h
  have count := countPulse_on on
  rw [← hv, hc] at count
  have decoded : v.marks.decoder.pulse shape s.tape.counter v.tape.counter v.now = s.pulseDecoded shape d := by rw [count]; rfl
  have moved : s.nextCount d ≠ s.tape.counter := by cases d <;> simp [State.nextCount]
  have handed := (pulseHanded (shape := shape) h).counter
  have step : stepFrom s.tape.counter d (handPulse shape d s) = some d := by rw [stepFrom, handed, if_neg moved]
  have read : pulseRead shape d s =
      let r := v.marks.decoder.pulse shape s.tape.counter v.tape.counter v.now
      noteRead r.2 (navigate (stepFrom s.tape.counter d (takeDecoded r v)) r.2 (takeDecoded r v)) := by rw [hv]; rfl
  have hand : takeDecoded (s.pulseDecoded shape d) v = handPulse shape d s := by rw [hv]; rfl
  rw [read, decoded]
  dsimp only
  rw [hand, step]

namespace PulseHanded

theorem mode (h : PulseHanded d s v) : v.transport.mode = s.transport.mode := by
  obtain ⟨w, n, e⟩ := h.transport
  rw [e]

theorem change (h : PulseHanded d s v) : v.transport.change = s.transport.change := by
  obtain ⟨w, n, e⟩ := h.transport
  rw [e]

theorem target (h : PulseHanded d s v) : v.transport.target = s.transport.target := by
  obtain ⟨w, n, e⟩ := h.transport
  rw [e]

theorem noWatches (h : PulseHanded d s v) (hw : NoWatches s) : NoWatches v := fun w hm => hw w (h.watches ▸ hm)

theorem settings (h : PulseHanded d s v) : v.settings = s.settings := h.keeps.settings (by decide)

theorem power (h : PulseHanded d s v) : v.power = s.power := h.keeps.power (by decide)

theorem mech (h : PulseHanded d s v) : v.mech = s.mech := h.keeps.mech (by decide)

end PulseHanded

/-- The counter goes on as long as the next reading is within the bound (R42). -/
theorem countsOn_of_bound (h : (s.nextCount d).natAbs ≤ 36000 * s.settings.frameRate - 1) : s.countsOn d = true := by
  cases d with
  | forward =>
    have step : (s.tape.counter + 1).natAbs ≤ s.counterBound := h
    exact decide_eq_true (show s.tape.counter < (s.counterBound : Int) by omega)
  | reverse =>
    have step : (s.tape.counter - 1).natAbs ≤ s.counterBound := h
    exact decide_eq_true (show -(s.counterBound : Int) < s.tape.counter by omega)

/-- A pulse read in a reading mode is a deck event (R19). -/
theorem exec_controlPulseRead (hb : s.power.state ≠ .backup) (hdir : s.transport.mode.direction = some d)
    (hr : s.transport.mode ≠ .record) : exec (.controlPulseRead shape) s = .next (endDeckEvent s (pulseRead shape d s)) := by
  have reads : readActed shape s = deckEvent (pulseRead shape d) s := by
    simp only [readActed, hdir, Mode.reading_of_direction hdir hr, if_true]
  show Host.Outcome.next (readActed shape s) = _
  rw [reads, deckEvent_running hb]

/-- With no watches what is navigated is the go-to and the run, by the step and then by the mark. -/
theorem navigate_unwatched (hw : NoWatches v) (r : Option MarkRecord) : navigate (some d) r v =
    r.elim (runStep d (gotoStep d v)) fun r => runMark r (gotoMark r (runStep d (gotoStep d v))) := by
  cases r with
  | none => simp [navigate, offerWatches_idle, hw, giveAction]
  | some r => simp [navigate, offerWatches_idle, hw, giveAction]

theorem runStep_inactive (h : s.nav.run.state.active = false) : runStep d s = s := by
  unfold runStep
  split
  · next e => rw [e] at h; cases h
  all_goals rfl

theorem runMark_inactive (h : s.nav.run.state.active = false) (r : MarkRecord) : runMark r s = s := by
  unfold runMark
  split
  · next e => rw [e] at h; cases h
  all_goals rfl

theorem gotoStep_inactive (h : s.nav.goto.active = false) : gotoStep d s = s := by simp [gotoStep, h]

theorem gotoMark_inactive (h : s.nav.goto.active = false) (r : MarkRecord) : gotoMark r s = s := by simp [gotoMark, h]

theorem gotoMark_counter {n : Int} (h : s.nav.goto.form = .counter n) (r : MarkRecord) : gotoMark r s = s := by simp [gotoMark, h]

theorem noteRead_sent (r : Option MarkRecord) (s : State) : (noteRead r s).nav = s.nav ∧ (noteRead r s).link.line = s.link.line := by
  cases r with
  | none => exact ⟨rfl, rfl⟩
  | some r => exact ⟨by simp [noteRead, postMark], by simp [noteRead, postMark]⟩

/-- What a pulse has done stands to the end of its event. -/
structure PulseEnded (x t : State) : Prop where
  keeps : KeepsBut [.estimate, .sending] x t
  told  : ∀ {k : NoteKey} {c : List Byte}, Noted k c x → NoteKey.tape ≠ k → NoteKey.mark ≠ k → Announced k c t

theorem pulseEnded (hs : Steady s) (hp : x.power = s.power) (r : Option MarkRecord) : PulseEnded x (endDeckEvent s (noteRead r x)) := by
  have read := noteRead_keeps r x
  have ended := endedFrom_event (b := s) (u := noteRead r x) (.inl hs.sequence) (hs.notStopping.of (read.power.trans hp))
  refine ⟨(read.mono (by simp)).trans ended.keeps, fun n hk hm => ended.told ?_ hk⟩
  cases r with
  | none => exact n
  | some r => exact n.post hm _

theorem PulseEnded.counter (h : PulseEnded x t) : t.tape.counter = x.tape.counter := (h.keeps.same .counter (by decide)).1

end Sys2Proof.Machine
end

section
/-! O31: what a counter step and a mark do to the go-to of the host (R66 to R70). -/

namespace Sys2Proof.Machine

variable {s t v x : State} {d a : Direction} {m : Mode} {p : GotoPhase} {n : Nat}

/-! ### A phase begun on the way (R66, R67, R70) -/

/-- A go-to has begun a phase on the way to its target, and given the mode that goes with it. -/
structure Pursued (p : GotoPhase) (a : Direction) (m : Mode) (s t : State) : Prop where
  steered : Steered (s.withGoto { s.nav.goto with phase := p, approach := a }) t
  given   : s.transport.mode ≠ m → t.transport.target = some m ∧ t.transport.change = some (.servo m)

theorem pursued (h : StandsThreaded s) (ha : m.asked = true ∧ m.threaded = true) (p : GotoPhase) (a : Direction) :
    Pursued p a m s (pursue p a m s) := by
  obtain ⟨q, hq⟩ : ∃ q, q = s.withGoto { s.nav.goto with phase := p, approach := a } := ⟨_, rfl⟩
  have pursuit : pursue p a m s = giveTarget m q := by rw [hq]; rfl
  have transport : q.transport = s.transport := by rw [hq]; rfl
  obtain ⟨asked, threaded⟩ := ha
  obtain ⟨-, -, -, hs, -, -⟩ := h.threaded.rests
  rw [pursuit]
  refine ⟨hq ▸ steered_giveTarget m q, fun hne => ?_⟩
  have given := given_of_threaded (h.of transport) asked (by rw [transport]; exact hne)
  exact ⟨given.target, by rw [given.change, transport, if_neg hs, threaded]; rfl⟩

theorem Pursued.goto (h : Pursued p a m s t) : t.nav.goto = { s.nav.goto with phase := p, approach := a } := by
  rw [h.steered.nav]
  rfl

/-- A go-to that enters LANDING away from its final mode gives that mode as the target (R68). -/
structure Lands (s t : State) : Prop where
  steered : Steered (s.withGoto { s.nav.goto with phase := .landing }) t
  target  : t.transport.target = some s.nav.goto.final.mode

theorem lands (h : StandsThreaded s) (hne : s.transport.mode ≠ s.nav.goto.final.mode) : Lands s (landGoto s) := by
  obtain ⟨q, hq⟩ : ∃ q, q = s.withGoto { s.nav.goto with phase := .landing } := ⟨_, rfl⟩
  have transport : q.transport = s.transport := by rw [hq]; rfl
  have final : q.nav.goto.final = s.nav.goto.final := by rw [hq]; rfl
  have away : q.landedAtOnce = false := by
    simp only [State.landedAtOnce, transport, final, beq_eq_false_iff_ne.mpr hne, Bool.and_false, Bool.false_and]
  have land : landTarget s = giveTarget s.nav.goto.final.mode q := by
    have entered : landTarget s = if q.landedAtOnce then q else giveTarget q.nav.goto.final.mode q := by rw [hq]; rfl
    rw [entered, away, final]
    rfl
  have given := given_of_threaded (h.of transport) (FinalAction.mode_asked _) (by rw [transport]; exact hne)
  have flight : (giveTarget s.nav.goto.final.mode q).landedAtOnce = false := by
    simp [State.landedAtOnce, State.settled, given.target]
  have lands : landGoto s = giveTarget s.nav.goto.final.mode q := by
    simp only [landGoto, land, flight, Bool.false_eq_true, if_false]
  rw [lands]
  exact ⟨hq ▸ steered_giveTarget _ q, given.target⟩

theorem Lands.goto (h : Lands s t) : t.nav.goto = { s.nav.goto with phase := .landing } := by
  rw [h.steered.nav]
  rfl

/-! ### A counter step meets a counter go-to (R66, R67) -/

section
variable (active : s.nav.goto.active = true) (flight : s.nav.goto.phase ≠ .landing)
include active flight

theorem gotoStep_counter {c : Int} (form : s.nav.goto.form = .counter c) : gotoStep d s =
    if s.tape.counter = c then crossTarget d s
    else if s.nav.goto.phase = .wind ∧ (c - s.tape.counter).natAbs ≤ s.approach then
      pursue .search s.nav.goto.approach s.nav.goto.approach.searchMode s
    else s := by
  have flies : (s.nav.goto.phase == .landing) = false := beq_eq_false_iff_ne.mpr flight
  simp [gotoStep, active, flies, form]

theorem gotoStep_forward {k : Nat} {f : Option Filter} (form : s.nav.goto.form = .markForward k f) : gotoStep d s = s := by
  simp [gotoStep, active, flight, form]

theorem gotoStep_backward {k : Nat} (form : s.nav.goto.form = .markBackward k) : gotoStep d s =
    if s.nav.goto.phase = .returning ∧ d = .forward ∧ s.nav.goto.noted.any (fun p => p + 40 == s.tape.counter) then
      failGoto .failed .failed s
    else s := by
  have flies : (s.nav.goto.phase == .landing) = false := beq_eq_false_iff_ne.mpr flight
  simp [gotoStep, active, flies, form]

end

theorem crossTarget_wind (h : s.transport.mode.wind = true) : crossTarget d s =
    if s.nav.goto.reversals + 1 = 4 then failGoto .failed .failed (s.withGoto { s.nav.goto with reversals := s.nav.goto.reversals + 1 })
    else pursue .search d.opposite d.opposite.searchMode (s.withGoto { s.nav.goto with reversals := s.nav.goto.reversals + 1 }) := by
  rw [crossTarget, if_pos h]
  rfl

theorem Mode.not_wind_of_search (h : m.search = true) : m.wind = false := by
  cases m <;> first | rfl | exact absurd h (by decide)

theorem Mode.ne_search_of_wind (h : m.wind = true) (d : Direction) : m ≠ d.searchMode := by
  rintro rfl
  cases d <;> exact absurd h (by decide)

theorem Mode.ne_final_of_moving (h : m.wind = true ∨ m.search = true) (f : FinalAction) : m ≠ f.mode := by
  rintro rfl
  cases f <;> exact absurd h (by decide)

theorem Mode.threaded_of_moving (h : m.wind = true ∨ m.search = true) : m.threaded = true := by
  cases m <;> first | rfl | exact absurd h (by decide)

/-! ### A mark meets a mark go-to (R69, R70) -/

section
variable (active : s.nav.goto.active = true) (r : MarkRecord)
include active

theorem gotoMark_forward {f : Option Filter} (form : s.nav.goto.form = .markForward n f) (phase : s.nav.goto.phase = .counting) :
    gotoMark r s =
      if r.direction = .forward ∧ r.kind.isCoded = true ∧ f.all (·.admits r) = true then
        if s.nav.goto.counted + 1 = n then
          landGoto (s.withGoto { s.nav.goto with counted := s.nav.goto.counted + 1, landingMark := some r })
        else s.withGoto { s.nav.goto with counted := s.nav.goto.counted + 1 }
      else s := by
  simp only [gotoMark, active, form, phase, Bool.not_true, Bool.false_eq_true, if_false, Bool.and_eq_true, beq_iff_eq, and_assoc]
  rfl

theorem gotoMark_backward (form : s.nav.goto.form = .markBackward n) (phase : s.nav.goto.phase = .counting) :
    gotoMark r s =
      if r.direction = .reverse ∧ r.kind ≠ .damaged then
        if s.nav.goto.counted + 1 = n then
          pursue .returning .forward .searchFwd
            (s.withGoto { s.nav.goto with counted := s.nav.goto.counted + 1, noted := some r.position, reversals := 1 })
        else s.withGoto { s.nav.goto with counted := s.nav.goto.counted + 1 }
      else s := by
  simp only [gotoMark, active, form, phase, Bool.not_true, Bool.false_eq_true, if_false]
  rfl

theorem gotoMark_returning (form : s.nav.goto.form = .markBackward n) (phase : s.nav.goto.phase = .returning) {p : Int}
    (noted : s.nav.goto.noted = some p) : gotoMark r s =
      if r.direction = .forward ∧ (r.position - p).natAbs ≤ 2 then landGoto (s.withGoto { s.nav.goto with landingMark := some r })
      else s := by
  simp only [gotoMark, active, form, phase, noted, Bool.not_true, Bool.false_eq_true, if_false, Option.any_some, decide_eq_true_eq]
  rfl

end

/-! ### The pulse as a go-to meets it -/

/-- A pulse that moves the counter is offered to a go-to of the host in a settled wind or search mode. -/
structure GotoPulsed (d : Direction) (s v : State) : Prop where
  handed  : PulseHanded d s v
  goto    : v.nav.goto = { s.nav.goto with untracked := 0 }
  idle    : v.nav.run.state.active = false
  stands  : StandsThreaded v
  moving  : v.transport.mode.wind = true ∨ v.transport.mode.search = true
  resting : v.transport.target = none

/-- A go-to of the host that is on its way. -/
structure HostGoto (s : State) : Prop where
  active : s.nav.goto.active = true
  host   : s.nav.goto.owner = .host
  flight : s.nav.goto.phase ≠ .landing

variable {shape : Shape} {y : State} {r : MarkRecord}

theorem Goto.tracked_active {g : Goto} (h : g.active = true) : g.tracked = { g with untracked := 0 } := by simp [Goto.tracked, h]

theorem gotoPulsed (hon : s.countsOn d = true) (active : s.nav.goto.active = true) (idle : s.nav.run.state.active = false)
    (moving : s.transport.mode.wind = true ∨ s.transport.mode.search = true) (hc : s.transport.change = none)
    (ht : s.transport.target = none) (shape : Shape) : GotoPulsed d s (handPulse shape d s) := by
  have handed := pulseHanded (shape := shape) hon
  have threaded := Mode.threaded_of_moving moving
  exact
    { handed := handed
      goto := handed.goto.trans (Goto.tracked_active active)
      idle := by rw [handed.run, Run.tracked_idle idle]; exact idle
      stands := ⟨by rw [handed.mode]; exact threaded, handed.change.trans hc⟩
      moving := by rw [handed.mode]; exact moving
      resting := handed.target.trans ht }

theorem GotoPulsed.flies (h : GotoPulsed d s v) (g : HostGoto s) : HostGoto v :=
  ⟨by rw [h.goto]; exact g.active, by rw [h.goto]; exact g.host, by rw [h.goto]; exact g.flight⟩

/-- What a go-to does with a pulse touches neither the run nor the power nor the counter. -/
structure GotoMoved (v y : State) : Prop where
  run     : y.nav.run = v.nav.run
  power   : y.power = v.power
  counter : y.tape.counter = v.tape.counter

theorem GotoMoved.refl (v : State) : GotoMoved v v := ⟨rfl, rfl, rfl⟩

theorem GotoMoved.ofGoto {g : Goto} (h : GotoMoved (v.withGoto g) y) : GotoMoved v y := ⟨h.run, h.power, h.counter⟩

theorem StandsThreaded.withGoto (h : StandsThreaded v) (g : Goto) : StandsThreaded (v.withGoto g) := ⟨h.mode, h.change⟩

theorem Pursued.moved (h : Pursued p a m s t) : GotoMoved s t :=
  ⟨by rw [h.steered.nav]; rfl, h.steered.keeps.power, h.steered.counter⟩

theorem Lands.moved (h : Lands s t) : GotoMoved s t := ⟨by rw [h.steered.nav]; rfl, h.steered.keeps.power, h.steered.counter⟩

theorem GotoFailed.moved {o : GotoOutcome} (h : GotoFailed o s t) : GotoMoved s t :=
  ⟨h.run, h.keeps.power, (h.keeps.same .counter (by decide)).1⟩

theorem Mode.ne_still_of_moving (h : m.wind = true ∨ m.search = true) : m ≠ .still := by
  rintro rfl
  exact absurd h (by decide)

section
variable (stands : StandsThreaded v) (moving : v.transport.mode.wind = true ∨ v.transport.mode.search = true)
include stands moving

theorem crossTarget_moved (hb : v.power.state ≠ .backup) (host : v.nav.goto.owner = .host) : GotoMoved v (crossTarget d v) ∧
    ((crossTarget d v).nav.goto.active = false ∨ (crossTarget d v).nav.goto.form = v.nav.goto.form) := by
  obtain ⟨q, hq⟩ : ∃ q, q = v.withGoto { v.nav.goto with reversals := v.nav.goto.reversals + 1 } := ⟨_, rfl⟩
  have standsQ : StandsThreaded q := hq ▸ stands.withGoto _
  have ofQ : ∀ {y}, GotoMoved q y → GotoMoved v y := fun h => GotoMoved.ofGoto (hq ▸ h)
  by_cases wind : v.transport.mode.wind = true
  · rw [crossTarget_wind wind, ← hq]
    split
    · have failed : GotoFailed .failed q (failGoto .failed .failed q) :=
        gotoFailed (by decide) (by rw [hq]; exact hb) standsQ (by rw [hq]; exact Mode.ne_still_of_moving moving) (by rw [hq]; exact host) _
      exact ⟨ofQ failed.moved, .inl failed.closed.active⟩
    · have back := pursued standsQ d.opposite.searchMode_asked .search d.opposite
      exact ⟨ofQ back.moved, .inr (by rw [back.goto, hq]; rfl)⟩
  · rw [crossTarget, if_neg wind]
    have lands := lands stands (Mode.ne_final_of_moving moving _)
    exact ⟨lands.moved, .inr (by rw [lands.goto])⟩

/-- A step leaves the go-to as it is, or leaves it where a mark finds nothing to do. -/
theorem gotoStep_moved (hb : v.power.state ≠ .backup) (g : HostGoto v) : GotoMoved v (gotoStep d v) ∧
    (gotoStep d v = v ∨ ∀ r, gotoMark r (gotoStep d v) = gotoStep d v) := by
  cases form : v.nav.goto.form with
  | counter c =>
    rw [gotoStep_counter g.active g.flight form]
    split
    · obtain ⟨moved, closed | same⟩ := crossTarget_moved (d := d) stands moving hb g.host
      · exact ⟨moved, .inr (gotoMark_inactive closed)⟩
      · exact ⟨moved, .inr (gotoMark_counter (same.trans form))⟩
    · split
      · have near := pursued stands v.nav.goto.approach.searchMode_asked .search v.nav.goto.approach
        exact ⟨near.moved, .inr (gotoMark_counter (by rw [near.goto]; exact form))⟩
      · exact ⟨.refl v, .inl rfl⟩
  | markForward k f => rw [gotoStep_forward g.active g.flight form]; exact ⟨.refl v, .inl rfl⟩
  | markBackward k =>
    rw [gotoStep_backward g.active g.flight form]
    split
    · have failed : GotoFailed .failed v (failGoto .failed .failed v) :=
        gotoFailed (by decide) hb stands (Mode.ne_still_of_moving moving) g.host _
      exact ⟨failed.moved, .inr (gotoMark_inactive failed.closed.active)⟩
    · exact ⟨.refl v, .inl rfl⟩

/-- A go-to that lands by a mark keeps its run and its counter. -/
theorem landGoto_moved (g : Goto) : GotoMoved v (landGoto (v.withGoto g)) := by
  refine (lands (stands.withGoto g) ?_).moved.ofGoto
  exact Mode.ne_final_of_moving (m := v.transport.mode) moving _

theorem gotoMark_moved (g : v.nav.goto.active = true) (r : MarkRecord) : GotoMoved v (gotoMark r v) := by
  have counts : ∀ k, GotoMoved v (v.withGoto k) := fun k => (GotoMoved.refl _).ofGoto
  cases form : v.nav.goto.form with
  | counter c => rw [gotoMark_counter form]; exact .refl v
  | markForward n f =>
    by_cases phase : v.nav.goto.phase = .counting
    · rw [gotoMark_forward g r form phase]
      split
      · split
        · exact landGoto_moved stands moving _
        · exact counts _
      · exact .refl v
    · have idle : gotoMark r v = v := by simp [gotoMark, form, phase]
      rw [idle]
      exact .refl v
  | markBackward n =>
    by_cases counting : v.nav.goto.phase = .counting
    · rw [gotoMark_backward g r form counting]
      split
      · split
        · exact (pursued (stands.withGoto _) (Direction.searchMode_asked .forward) .returning .forward).moved.ofGoto
        · exact counts _
      · exact .refl v
    · by_cases returning : v.nav.goto.phase = .returning
      · cases noted : v.nav.goto.noted with
        | none =>
          have idle : gotoMark r v = v := by simp [gotoMark, form, returning, noted]
          rw [idle]
          exact .refl v
        | some p =>
          rw [gotoMark_returning g r form returning noted]
          split
          · exact landGoto_moved stands moving _
          · exact .refl v
      · have idle : gotoMark r v = v := by simp [gotoMark, form, counting, returning]
        rw [idle]
        exact .refl v

end

/-- What the go-to does with a pulse: its step, and then the mark that it completes (R66 to R70). -/
def gotoMet (r : Option MarkRecord) (d : Direction) (v : State) : State := r.elim (gotoStep d v) (gotoMark · (gotoStep d v))

theorem gotoMet_of_step (h : ∀ r, gotoMark r (gotoStep d v) = gotoStep d v) (r : Option MarkRecord) :
    gotoMet r d v = gotoStep d v := by
  cases r with
  | none => rfl
  | some r => exact h r

theorem gotoMet_of_mark (h : gotoStep d v = v) : gotoMet (some r) d v = gotoMark r v := congrArg (gotoMark r) h

theorem gotoMet_moved (h : GotoPulsed d s v) (hb : s.power.state ≠ .backup) (g : HostGoto s) (r : Option MarkRecord) :
    GotoMoved v (gotoStep d v) ∧ GotoMoved v (gotoMet r d v) := by
  obtain ⟨moved, same⟩ := gotoStep_moved (d := d) h.stands h.moving (by rw [h.handed.power]; exact hb) (h.flies g)
  refine ⟨moved, ?_⟩
  cases r with
  | none => exact moved
  | some r =>
    rcases same with same | marks
    · rw [gotoMet_of_mark same]
      exact gotoMark_moved h.stands h.moving (h.flies g).active r
    · rw [gotoMet_of_step marks]
      exact moved

/-- With no watches and no run a pulse does what the go-to does with it. -/
theorem exec_gotoPulse (hb : s.power.state ≠ .backup) (hs : Steady s) (hw : NoWatches s) (hdir : s.transport.mode.direction = some d)
    (hon : s.countsOn d = true) (h : GotoPulsed d s (handPulse shape d s)) (g : HostGoto s) :
    ∃ t, exec (.controlPulseRead shape) s = .next t ∧ t.tape.counter = s.nextCount d ∧
      PulseEnded (gotoMet (s.pulseDecoded shape d).2 d (handPulse shape d s)) t := by
  obtain ⟨stepped, met⟩ := gotoMet_moved h hb g (s.pulseDecoded shape d).2
  obtain ⟨v, hv⟩ : ∃ v, v = handPulse shape d s := ⟨_, rfl⟩
  rw [← hv] at stepped met h
  have reading : s.transport.mode ≠ .record := by
    intro e
    have moving := h.moving
    rw [h.handed.mode, e] at moving
    exact absurd moving (by decide)
  have navigated : navigate (some d) (s.pulseDecoded shape d).2 v = gotoMet (s.pulseDecoded shape d).2 d v := by
    rw [navigate_unwatched (h.handed.noWatches hw), runStep_inactive (by rw [stepped.run]; exact h.idle)]
    cases hr : (s.pulseDecoded shape d).2 with
    | none => rfl
    | some r =>
      rw [hr] at met
      exact runMark_inactive (s := gotoMark r (gotoStep d v)) ((congrArg (·.state.active) met.run).trans h.idle) r
  have read := pulseRead_navigates (shape := shape) hon
  rw [← hv, navigated] at read
  have ended := pulseEnded hs (met.power.trans h.handed.power) (s.pulseDecoded shape d).2
  rw [← hv]
  exact ⟨_, (exec_controlPulseRead hb hdir reading).trans (by rw [read]), ended.counter.trans (met.counter.trans h.handed.counter), ended⟩

theorem GotoPulsed.final (h : GotoPulsed d s v) : v.nav.goto.final = s.nav.goto.final := by rw [h.goto]

/-- In a counter go-to a mark finds nothing to do after the step (R66, R67). -/
theorem gotoMet_counter (h : GotoPulsed d s v) (hb : s.power.state ≠ .backup) (g : HostGoto s) {c : Int}
    (form : v.nav.goto.form = .counter c) (r : Option MarkRecord) : gotoMet r d v =
      if v.tape.counter = c then crossTarget d v
      else if v.nav.goto.phase = .wind ∧ (c - v.tape.counter).natAbs ≤ v.approach then
        pursue .search v.nav.goto.approach v.nav.goto.approach.searchMode v
      else v := by
  have f := h.flies g
  rw [← gotoStep_counter f.active f.flight form]
  obtain ⟨-, same | marks⟩ := gotoStep_moved (d := d) h.stands h.moving (by rw [h.handed.power]; exact hb) f
  · exact gotoMet_of_step (fun r => by rw [same]; exact gotoMark_counter form r) r
  · exact gotoMet_of_step marks r

/-- What a crossing in a wind mode leaves, below and at the fourth reversal (R67). -/
theorem crossTarget_of_wind (h : GotoPulsed d s v) (hb : s.power.state ≠ .backup) (g : HostGoto s)
    (wind : v.transport.mode.wind = true) :
    (v.nav.goto.reversals < 3 → (crossTarget d v).nav.goto.phase = .search ∧
      (crossTarget d v).nav.goto.reversals = v.nav.goto.reversals + 1 ∧ (crossTarget d v).nav.goto.approach = d.opposite ∧
      (crossTarget d v).transport.change = some (.servo d.opposite.searchMode)) ∧
    (v.nav.goto.reversals = 3 → GotoFailed .failed (v.withGoto { v.nav.goto with reversals := v.nav.goto.reversals + 1 })
      (crossTarget d v)) := by
  rw [crossTarget_wind wind]
  refine ⟨fun few => ?_, fun last => ?_⟩
  · rw [if_neg (by omega)]
    have back := pursued (h.stands.withGoto { v.nav.goto with reversals := v.nav.goto.reversals + 1 }) d.opposite.searchMode_asked .search
      d.opposite
    exact ⟨by rw [back.goto], by rw [back.goto]; rfl, by rw [back.goto],
      (back.given (Mode.ne_search_of_wind (m := v.transport.mode) wind _)).2⟩
  · rw [if_pos (by omega)]
    exact gotoFailed (o := .failed) (by decide) (by rw [← h.handed.power] at hb; exact hb)
      (h.stands.withGoto { v.nav.goto with reversals := v.nav.goto.reversals + 1 })
      (Mode.ne_still_of_moving (m := v.transport.mode) h.moving) (h.flies g).host _

/-- A go-to that lands by a mark has its landing mark, and its final mode as the target (R69, R70). -/
theorem landGoto_byMark (h : GotoPulsed d s v) (g : Goto) (final : g.final = v.nav.goto.final) :
    (landGoto (v.withGoto g)).nav.goto = { g with phase := .landing } ∧
      (landGoto (v.withGoto g)).transport.target = some s.nav.goto.final.mode := by
  have lands : Lands (v.withGoto g) (landGoto (v.withGoto g)) :=
    lands (h.stands.withGoto g) (Mode.ne_final_of_moving (m := v.transport.mode) h.moving _)
  exact ⟨lands.goto, lands.target.trans (by rw [← h.final, ← final]; rfl)⟩

/-! ### What the end of the event shows -/

/-- A go-to that a pulse has left where it was, but for its untracked time. -/
def GotoUnmoved (go : Goto) (t : State) : Prop := t.nav.goto = go ∧ t.transport.target = none

theorem GotoPulsed.unmoved (h : GotoPulsed d s v) (e : PulseEnded v t) : GotoUnmoved { s.nav.goto with untracked := 0 } t :=
  ⟨e.keeps.goto.trans h.goto, by rw [e.keeps.transport]; exact h.resting⟩

theorem GotoPulsed.withGoto (h : GotoPulsed d s v) {g : Goto} (e : PulseEnded (v.withGoto g) t) : GotoUnmoved g t :=
  ⟨e.keeps.goto, by rw [e.keeps.transport]; exact h.resting⟩

/-- What a step comes to in a counter go-to (R66, R67). -/
structure CounterFollowed (d : Direction) (next c : Int) (s t : State) : Prop where
  unmoved : next ≠ c → (s.nav.goto.phase ≠ .wind ∨ 40 * s.settings.frameRate < (c - next).natAbs) →
    GotoUnmoved { s.nav.goto with untracked := 0 } t
  nears   : next ≠ c → s.nav.goto.phase = .wind → (c - next).natAbs ≤ 40 * s.settings.frameRate → s.transport.mode.wind →
    s.nav.goto.approach = d →
    t.nav.goto.phase = .search ∧ t.nav.goto.approach = d ∧ t.transport.change = some (.servo d.searchMode)
  turns   : next = c → s.transport.mode.wind → s.nav.goto.reversals < 3 →
    t.nav.goto.phase = .search ∧ t.nav.goto.reversals = s.nav.goto.reversals + 1 ∧ t.nav.goto.approach = d.opposite ∧
      t.transport.change = some (.servo d.opposite.searchMode)
  fails   : next = c → s.transport.mode.wind → s.nav.goto.reversals = 3 →
    t.nav.goto.active = false ∧ t.nav.goto.outcome = some .failed ∧ t.mech = .operator .direct ∧
      t.transport.change = some (.servo .still)
  lands   : next = c → s.transport.mode.search → t.nav.goto.phase = .landing ∧ t.nav.goto.active = true ∧
    t.transport.target = some s.nav.goto.final.mode ∧ t.nav.goto.reversals = s.nav.goto.reversals

theorem counterFollowed (pulsed : GotoPulsed d s v) (hb : s.power.state ≠ .backup) (flies : HostGoto s) {c : Int}
    (form : s.nav.goto.form = .counter c) {r : Option MarkRecord} (ended : PulseEnded (gotoMet r d v) t) :
    CounterFollowed d (s.nextCount d) c s t := by
  have formV : v.nav.goto.form = .counter c := by rw [pulsed.goto]; exact form
  have phase : v.nav.goto.phase = s.nav.goto.phase := by rw [pulsed.goto]
  have reversals : v.nav.goto.reversals = s.nav.goto.reversals := by rw [pulsed.goto]
  have mode := pulsed.handed.mode
  have within : v.approach = 40 * s.settings.frameRate := by rw [State.approach, pulsed.handed.settings]
  rw [gotoMet_counter pulsed hb flies formV, pulsed.handed.counter, within, phase] at ended
  refine ⟨fun away far => ?_, fun away wind near winds toward => ?_, fun on winds few => ?_, fun on winds last => ?_,
    fun on searches => ?_⟩
  · rw [if_neg away, if_neg fun near => far.elim (· near.1) fun far => absurd near.2 (Nat.not_le_of_lt far)] at ended
    exact pulsed.unmoved ended
  · have towardV : v.nav.goto.approach = d := by rw [pulsed.goto]; exact toward
    rw [if_neg away, if_pos ⟨wind, near⟩, towardV] at ended
    have near := pursued pulsed.stands d.searchMode_asked .search d
    rw [ended.keeps.goto, ended.keeps.transport, near.goto]
    exact ⟨rfl, rfl, (near.given (Mode.ne_search_of_wind (by rw [mode]; exact winds) d)).2⟩
  · rw [if_pos on] at ended
    rw [ended.keeps.goto, ended.keeps.transport, ← reversals]
    exact (crossTarget_of_wind pulsed hb flies (by rw [mode]; exact winds)).1 (by rw [reversals]; exact few)
  · rw [if_pos on] at ended
    have failed := (crossTarget_of_wind pulsed hb flies (by rw [mode]; exact winds)).2 (by rw [reversals]; exact last)
    rw [ended.keeps.goto, ended.keeps.transport]
    exact ⟨failed.closed.active, failed.closed.outcome, ended.keeps.mech.trans failed.rest.mech, failed.rest.change⟩
  · have lands := lands pulsed.stands (Mode.ne_final_of_moving pulsed.moving _)
    rw [if_pos on, crossTarget, if_neg (by rw [mode, Mode.not_wind_of_search searches]; decide)] at ended
    rw [ended.keeps.goto, ended.keeps.transport, lands.goto, lands.target, pulsed.final]
    exact ⟨rfl, (pulsed.flies flies).active, rfl, reversals⟩

/-- A FORWARD mark go-to counts a coded mark that its filter admits, and lands on the last (R69). -/
theorem forwardFollowed (pulsed : GotoPulsed d s v) (flies : HostGoto s) {f : Option Filter} (form : s.nav.goto.form = .markForward n f)
    (counting : s.nav.goto.phase = .counting) {r : MarkRecord} (ended : PulseEnded (gotoMet (some r) d v) t) :
    let go := { s.nav.goto with untracked := 0 }
    let counts := r.direction = .forward ∧ r.kind.isCoded ∧ f.all (·.admits r)
    (¬ counts → GotoUnmoved go t) ∧
    (counts → go.counted + 1 ≠ n → GotoUnmoved { go with counted := go.counted + 1 } t) ∧
    (counts → go.counted + 1 = n → t.nav.goto = { go with phase := .landing, counted := n, landingMark := some r } ∧
      t.transport.target = some s.nav.goto.final.mode) := by
  intro go counts
  have gone := pulsed.flies flies
  have formV : v.nav.goto.form = .markForward n f := by rw [pulsed.goto]; exact form
  rw [gotoMet_of_mark (gotoStep_forward gone.active gone.flight formV),
    gotoMark_forward gone.active r formV (by rw [pulsed.goto]; exact counting), pulsed.goto] at ended
  refine ⟨fun no => ?_, fun yes more => ?_, fun yes last => ?_⟩
  · rw [if_neg no] at ended
    exact pulsed.unmoved ended
  · rw [if_pos yes, if_neg more] at ended
    exact pulsed.withGoto ended
  · rw [if_pos yes, if_pos last] at ended
    obtain ⟨goto, target⟩ := landGoto_byMark pulsed { go with counted := go.counted + 1, landingMark := some r } (by rw [pulsed.goto])
    exact ⟨ended.keeps.goto.trans (goto.trans (by rw [← last])), (congrArg Transport.target ended.keeps.transport).trans target⟩

/-- A BACKWARD mark go-to counts a mark that is not damaged, and at the last returns to where it was (R70). -/
theorem backwardFollowed (pulsed : GotoPulsed d s v) (flies : HostGoto s) (form : s.nav.goto.form = .markBackward n)
    (counting : s.nav.goto.phase = .counting) {r : MarkRecord} (ended : PulseEnded (gotoMet (some r) d v) t) :
    let go := { s.nav.goto with untracked := 0 }
    let counts := r.direction = .reverse ∧ r.kind ≠ .damaged
    (¬ counts → GotoUnmoved go t) ∧
    (counts → go.counted + 1 ≠ n → GotoUnmoved { go with counted := go.counted + 1 } t) ∧
    (counts → go.counted + 1 = n → t.nav.goto =
        { go with counted := n, phase := .returning, approach := .forward, reversals := 1, noted := some r.position } ∧
      (s.transport.mode ≠ .searchFwd → t.transport.target = some .searchFwd)) := by
  intro go counts
  have gone := pulsed.flies flies
  have formV : v.nav.goto.form = .markBackward n := by rw [pulsed.goto]; exact form
  have phase : v.nav.goto.phase = .counting := by rw [pulsed.goto]; exact counting
  have waits : gotoStep d v = v := by
    rw [gotoStep_backward gone.active gone.flight formV, if_neg]
    rintro ⟨returning, -⟩
    rw [phase] at returning
    cases returning
  rw [gotoMet_of_mark waits, gotoMark_backward gone.active r formV phase, pulsed.goto] at ended
  refine ⟨fun no => ?_, fun yes more => ?_, fun yes last => ?_⟩
  · rw [if_neg no] at ended
    exact pulsed.unmoved ended
  · rw [if_pos yes, if_neg more] at ended
    exact pulsed.withGoto ended
  · rw [if_pos yes, if_pos last] at ended
    have back := pursued (pulsed.stands.withGoto { go with counted := go.counted + 1, noted := some r.position, reversals := 1 })
      (Direction.searchMode_asked .forward) .returning .forward
    refine ⟨ended.keeps.goto.trans (back.goto.trans ?_), fun other => ?_⟩
    · rw [← last]
      rfl
    · exact (congrArg Transport.target ended.keeps.transport).trans (back.given (by rw [← pulsed.handed.mode] at other; exact other)).1

/-- A go-to that returns to a noted mark, as a pulse finds it (R70). -/
structure Returning (n : Nat) (p : Int) (s : State) : Prop where
  form  : s.nav.goto.form = .markBackward n
  phase : s.nav.goto.phase = .returning
  noted : s.nav.goto.noted = some p

theorem Returning.of {p : Int} (h : Returning n p s) (g : t.nav.goto = { s.nav.goto with untracked := 0 }) : Returning n p t :=
  ⟨by rw [g]; exact h.form, by rw [g]; exact h.phase, by rw [g]; exact h.noted⟩

/-- Only the step 40 frames beyond the noted mark ends a go-to that returns (R70). -/
theorem gotoStep_returning (pulsed : GotoPulsed d s v) (flies : HostGoto s) {p : Int} (h : Returning n p s) : gotoStep d v =
    if d = .forward ∧ s.nextCount d = p + 40 then failGoto .failed .failed v else v := by
  have gone := pulsed.flies flies
  obtain ⟨form, phase, noted⟩ := h.of pulsed.goto
  rw [gotoStep_backward gone.active gone.flight form, phase, noted, pulsed.handed.counter]
  simp only [true_and, Option.any_some, beq_iff_eq]
  exact if_congr (and_congr_right fun _ => eq_comm) rfl rfl

/-- A go-to that returns lands on a mark within 2 frames of the noted one (R70). -/
theorem returnFollowed (pulsed : GotoPulsed d s v) (flies : HostGoto s) {p : Int} (h : Returning n p s)
    (within : ¬ (d = .forward ∧ s.nextCount d = p + 40)) {r : MarkRecord} (ended : PulseEnded (gotoMet (some r) d v) t) :
    let go := { s.nav.goto with untracked := 0 }
    let found := r.direction = .forward ∧ (r.position - p).natAbs ≤ 2
    (found → t.nav.goto = { go with phase := .landing, counted := go.counted, landingMark := some r } ∧
      t.transport.target = some s.nav.goto.final.mode) ∧ (¬ found → GotoUnmoved go t) := by
  intro go found
  obtain ⟨form, phase, noted⟩ := h.of pulsed.goto
  have waits : gotoStep d v = v := (gotoStep_returning pulsed flies h).trans (if_neg within)
  rw [gotoMet_of_mark waits, gotoMark_returning (pulsed.flies flies).active r form phase noted] at ended
  refine ⟨fun yes => ?_, fun no => ?_⟩
  · rw [if_pos yes, pulsed.goto] at ended
    obtain ⟨goto, target⟩ := landGoto_byMark pulsed { go with landingMark := some r } (by rw [pulsed.goto])
    exact ⟨ended.keeps.goto.trans goto, (congrArg Transport.target ended.keeps.transport).trans target⟩
  · rw [if_neg no] at ended
    exact pulsed.unmoved ended

/-- Forty frames beyond the noted mark a go-to that returns has failed (R70). -/
theorem returnOverrun (pulsed : GotoPulsed .forward s v) (hb : s.power.state ≠ .backup) (flies : HostGoto s) {p : Int}
    (h : Returning n p s) (ended : PulseEnded (gotoMet none .forward v) t) :
    (s.nextCount .forward ≠ p + 40 → GotoUnmoved { s.nav.goto with untracked := 0 } t) ∧
    (s.nextCount .forward = p + 40 → t.nav.goto.active = false ∧ t.nav.goto.outcome = some .failed ∧ t.mech = .operator .direct ∧
      t.transport.change = some (.servo .still) ∧ Announced .goto t.gotoNoteBytes t) := by
  rw [show gotoMet none .forward v = gotoStep .forward v from rfl, gotoStep_returning pulsed flies h] at ended
  refine ⟨fun short => ?_, fun past => ?_⟩
  · rw [if_neg fun beyond => short beyond.2] at ended
    exact pulsed.unmoved ended
  · rw [if_pos ⟨rfl, past⟩] at ended
    have failed : GotoFailed .failed v (failGoto .failed .failed v) :=
      gotoFailed (by decide) (by rw [pulsed.handed.power]; exact hb) pulsed.stands (Mode.ne_still_of_moving pulsed.moving)
        (pulsed.flies flies).host _
    refine ⟨by rw [ended.keeps.goto]; exact failed.closed.active, by rw [ended.keeps.goto]; exact failed.closed.outcome,
      ended.keeps.mech.trans failed.rest.mech, by rw [ended.keeps.transport]; exact failed.rest.change, ?_⟩
    rw [gotoNoteBytes_congr ended.keeps.goto ended.counter]
    exact ended.told failed.closed.noted (by decide) (by decide)

/-- Settles O31: the step decides a counter go-to, and the mark a mark go-to. -/
theorem gotoFollowsCounter : Obligations.GotoFollowsCounter := by
  intro s hb _ hs hw hm idle active host flight hc ht d hdir moving next bound go
  have ahead : s.nextCount d = next := by cases d <;> rfl
  have hon : s.countsOn d = true := countsOn_of_bound (by rw [ahead]; exact bound)
  have flies : HostGoto s := ⟨active, host, flight⟩
  have pulsed := gotoPulsed hon active idle moving hc ht
  have acts := fun shape => exec_gotoPulse (shape := shape) hb hs hw hdir hon (pulsed shape) flies
  have marks : ∀ shape, (s.pulseDecoded shape d).2 = (s.marks.decoder.pulse shape s.tape.counter next s.now).2 := fun shape => by
    rw [State.pulseDecoded, ahead]
  refine ⟨fun c form => ?_, fun shape => ⟨fun r decoded => ?_, fun decoded forward n form returning p noted => ?_⟩⟩
  · obtain ⟨t, exec_t, counter, ended⟩ := acts .narrow
    have follows := counterFollowed (pulsed .narrow) hb flies form ended
    rw [ahead] at follows
    exact ⟨t, exec_t, counter.trans ahead, follows.unmoved, follows.nears, follows.turns, follows.fails, follows.lands⟩
  · obtain ⟨t, exec_t, counter, ended⟩ := acts shape
    rw [marks, decoded] at ended
    refine ⟨t, exec_t, counter.trans ahead, fun n f form counting => forwardFollowed (pulsed shape) flies form counting ended,
      fun n form counting => backwardFollowed (pulsed shape) flies form counting ended, fun n form returning p noted within => ?_⟩
    exact returnFollowed (pulsed shape) flies ⟨form, returning, noted⟩ (by rw [ahead]; exact within) ended
  · subst forward
    obtain ⟨t, exec_t, counter, ended⟩ := acts shape
    rw [marks, decoded] at ended
    exact ⟨t, exec_t, counter.trans ahead, returnOverrun (pulsed shape) hb flies ⟨form, returning, noted⟩ ended⟩

end Sys2Proof.Machine
end

section
/-! O38: the end of a segment run (R83 to R85). -/

namespace Sys2Proof.Machine

variable {s t v x : State} {i : Nat}

/-! ### The last segment's end (R83, R84) -/

/-- ENDING has begun: the end action's target is on its way, and the RUN note waits. -/
structure RunEnding (s t : State) : Prop where
  state   : t.nav.run.state = .ending
  goto    : t.nav.goto = s.nav.goto
  target  : t.transport.target = some (s.nav.run.endAction.getD .stop).target
  noted   : Noted .run t.runNoteBytes t
  steered : KeepsBut (.nav :: stillParts) s t

theorem setRunState_run (st : RunState) (s : State) : (setRunState st s).nav.run = { s.nav.run with state := st } := by
  rw [setRunState, postRun_nav]

theorem setRunState_keeps (st : RunState) (s : State) : KeepsBut [.nav, .sending] s (setRunState st s) := by
  refine KeepsBut.after ((postRun_keeps _).mono (by simp)) ⟨fun p hp => ?_⟩
  cases p <;> simp_all [SamePart]

theorem setRunState_noted (hb : s.power.state ≠ .backup) (st : RunState) : Noted .run (setRunState st s).runNoteBytes (setRunState st s) := by
  have bytes : (setRunState st s).runNoteBytes = ({ s with nav.run.state := st } : State).runNoteBytes :=
    runNoteBytes_congr (setRunState_run st s) (congrArg TapePosition.counter (postRun_tape _))
  rw [bytes]
  exact post_noted (s := { s with nav.run.state := st }) hb _ _

theorem beginEnding_ends (hb : s.power.state ≠ .backup) (stands : StandsThreaded s)
    (hne : s.transport.mode ≠ (s.nav.run.endAction.getD .stop).target) : RunEnding s (beginEnding s) := by
  obtain ⟨q, hq⟩ : ∃ q, q = setRunState .ending s := ⟨_, rfl⟩
  have kept : KeepsBut [.nav, .sending] s q := hq ▸ setRunState_keeps .ending s
  have run : q.nav.run = { s.nav.run with state := .ending } := hq ▸ setRunState_run .ending s
  have goto : q.nav.goto = s.nav.goto := by rw [hq, setRunState, postRun_nav]
  obtain ⟨m, hm⟩ : ∃ m, m = (s.nav.run.endAction.getD .stop).target := ⟨_, rfl⟩
  have ending : beginEnding s = giveTarget m q := by rw [hm, hq]; rfl
  rw [← hm] at hne
  have given : Given m q (giveTarget m q) :=
    given_of_threaded (stands.of kept.transport) (hm ▸ EndAction.target_asked _) (by rw [kept.transport]; exact hne)
  have steered := steered_giveTarget m q
  have told : Noted .run q.runNoteBytes q := hq ▸ setRunState_noted hb .ending
  rw [ending]
  refine ⟨by rw [steered.nav, run], by rw [steered.nav, goto], by rw [given.target, hm], ?_,
    (kept.mono (by simp [stillParts])).trans (steered.keeps.mono fun _ => List.mem_cons_of_mem _)⟩
  rw [runNoteBytes_congr (congrArg (·.run) steered.nav) steered.counter]
  exact steered.notes told (by decide) (by decide)

theorem EndAction.target_ne_play (a : EndAction) : a.target ≠ .play := by cases a <;> decide

/-- A forward step onto the counter end of the last segment begins the end action (R83, R84). -/
theorem runStep_last {g : Segment} (playing : s.nav.run.state = .playing i) (hi : 1 ≤ i) (last : i = s.nav.run.segments.length)
    (hg : s.nav.run.segments[i - 1]? = some g) (stop : g.stop = .counter s.tape.counter) : runStep .forward s = beginEnding s := by
  have segment : s.nav.run.segment i = some g := by rw [Run.segment, if_neg (by omega), hg]
  have ends : endSegment i s = beginEnding s := if_neg (by omega)
  simp [runStep, playing, segment, stop, ends]

theorem Run.tracked_playing {r : Run} (h : r.state = .playing i) : r.tracked = { r with track := 0 } := by simp only [Run.tracked, h]

/-- The pulse onto the end of the last segment is all that the run is told of (R83). -/
theorem navigate_last {r : Option MarkRecord} (hw : NoWatches v) (idle : v.nav.goto.active = false) (step : runStep .forward v = x)
    (h : RunEnding v x) : navigate (some .forward) r v = x := by
  have closed : x.nav.goto.active = false := by rw [h.goto]; exact idle
  rw [navigate_unwatched hw, gotoStep_inactive idle, step]
  cases r with
  | none => rfl
  | some r =>
    rw [Option.elim_some, gotoMark_inactive closed]
    simp [runMark, h.state]

/-! ### RUN_STOP and the track time (R83, R85) -/

theorem runStopRequest_idle (h : s.nav.run.state.active = false) : runStopRequest s = answer .noSuch s := by
  simp [runStopRequest, h]

theorem runStopRequest_playing (h : s.nav.run.state = .playing i) (idle : s.nav.goto.active = false) :
    runStopRequest s = answer .ok (passToDirect (giveRest (closeRun .stopped s))) := by
  simp [runStopRequest, h, idle, RunState.active]

/-- What the end of the event leaves of a run that has ended short of its last segment (R85). -/
structure RunShort (r : RunResult) (s t : State) : Prop where
  state  : t.nav.run.state = .done
  result : t.nav.run.result = some r
  target : t.transport.target = some .still
  change : t.transport.change = some (.servo .still)
  mech   : t.mech = .operator .direct
  note   : Announced .run t.runNoteBytes t
  keeps  : KeepsBut [.transport, .estimate, .nav, .mech, .sending] s t

theorem RunFailed.ended {r : RunResult} (h : RunFailed r s x) (e : EndedFrom x t) : RunShort r s t where
  state := e.keeps.run ▸ h.closed.state
  result := e.keeps.run ▸ h.closed.result
  target := e.keeps.transport ▸ h.rest.target
  change := e.keeps.transport ▸ h.rest.change
  mech := e.keeps.mech.trans h.rest.mech
  note := e.runNote h.closed.noted
  keeps := (h.keeps.mono (by simp)).trans (e.keeps.mono (by simp))

theorem exec_runStop (hs : PortReady s) (hy : Steady s) (stands : StandsThreaded s) (hne : s.transport.mode ≠ .still)
    (playing : s.nav.run.state = .playing i) (idle : s.nav.goto.active = false) :
    ∃ t, exec .runStop s = .next t ∧ Replied .runStop { status := .ok } t ∧ RunShort .stopped s t := by
  have failed := runFailed .stopped hy.running stands hne
  have finished := endedFrom_request (b := s) (.inl hy.sequence) (hy.notStopping.of failed.keeps.power) .runStop { status := .ok }
  have served : serve .runStop [] s = (passToDirect (giveRest (closeRun .stopped s)), { status := .ok }) :=
    runStopRequest_playing playing idle
  exact ⟨_, congrArg Host.Outcome.next (requestFrame_settled hs rfl rfl served), replied_answered .., failed.ended finished⟩

/-- Ten seconds without a control pulse end a run in PLAYING (R83, R85). -/
theorem exec_runNoTrack (hy : Steady s) (stands : StandsThreaded s) (hne : s.transport.mode ≠ .still)
    (motion : s.transport.mode.motion = true) (playing : s.nav.run.state = .playing i) :
    ∃ t w, exec .runNoTrack s = .next t ∧ w = leapTo (s.now + (10 * 12288000 - s.nav.run.track)) s ∧ RunShort .noTrack w t := by
  obtain ⟨limit, hl⟩ : ∃ limit, limit = s.now + (10 * 12288000 - s.nav.run.track) := ⟨_, rfl⟩
  obtain ⟨w, hw⟩ : ∃ w, w = leapTo limit s := ⟨_, rfl⟩
  have leap : KeepsBut [.time, .nav] s w := hw ▸ leapTo_keeps limit s
  have failed := runFailed (s := w) .noTrack (by rw [leap.power]; exact hy.running) (stands.of leap.transport)
    (by rw [leap.transport]; exact hne)
  have acts : exec .runNoTrack s = .next (endDeckEvent s (passToDirect (giveRest (closeRun .noTrack w)))) := by
    have runs : s.runLimit = some limit := by
      rw [hl]
      simp [State.runLimit, playing, limitWhile, motion, trackLimit, Config.unitsPerSecond]
    show Host.Outcome.next (timerEvent s.runLimit runLostTrack s) = _
    rw [runs, timerEvent_running hy.running, ← hw]
    rfl
  have finished := endedFrom_event (b := s) (.inl hy.sequence) (hy.notStopping.of (failed.keeps.power.trans leap.power))
  exact ⟨_, w, acts, by rw [hw, hl], failed.ended finished⟩

/-- Settles O38: the last segment's end gives the end action; RUN_STOP and the lost track close the run and give STILL. -/
theorem runEnds : Obligations.RunEnds := by
  intro s hd
  refine ⟨fun hs none => ?_, ?_⟩
  · have refused : serve .runStop [] s = answer .noSuch s := runStopRequest_idle none
    exact congrArg Host.Outcome.next (requestFrame_refused hs hd rfl refused)
  intro hy hm idle play i playing g hg hi
  have stands : StandsThreaded s := ⟨by rw [play.mode]; rfl, play.change⟩
  have hne : s.transport.mode ≠ .still := by rw [play.mode]; decide
  refine ⟨fun last hw stop hi lo => ?_, fun hs => ?_, fun le => ?_⟩
  · have on : s.countsOn .forward = true := decide_eq_true (show s.tape.counter < (s.counterBound : Int) by rw [State.counterBound]; omega)
    obtain ⟨v, hv⟩ : ∃ v, v = handPulse .narrow .forward s := ⟨_, rfl⟩
    have handed : PulseHanded .forward s v := hv ▸ pulseHanded on
    have run : v.nav.run = { s.nav.run with track := 0 } := handed.run.trans (Run.tracked_playing playing)
    have idleV : v.nav.goto.active = false := by rw [handed.goto, Goto.tracked_idle idle]; exact idle
    have ending : RunEnding v (beginEnding v) := beginEnding_ends (by rw [handed.power]; exact hy.running)
      ⟨by rw [handed.mode]; exact stands.mode, handed.change.trans stands.change⟩
      (by rw [handed.mode, play.mode]; exact (EndAction.target_ne_play _).symm)
    have step : runStep .forward v = beginEnding v := by
      refine runStep_last (i := i) (g := g) ?_ ‹_› ?_ ?_ ?_
      · rw [run]; exact playing
      · rw [run]; exact last
      · rw [run]; exact hg
      · rw [handed.counter]; exact stop
    have read := pulseRead_navigates (shape := .narrow) on
    rw [← hv, navigate_last (handed.noWatches hw) idleV step ending] at read
    have acts : exec (.controlPulseRead .narrow) s = .next (endDeckEvent s (pulseRead .narrow .forward s)) :=
      exec_controlPulseRead hy.running (by rw [play.mode]; rfl) (by rw [play.mode]; decide)
    rw [read] at acts
    have ended := pulseEnded hy (ending.steered.power.trans handed.power) (s.pulseDecoded .narrow .forward).2
    have target := (congrArg Transport.target ended.keeps.transport).trans ending.target
    rw [show v.nav.run.endAction = s.nav.run.endAction by rw [run]] at target
    refine ⟨_, acts, (congrArg Run.state ended.keeps.run).trans ending.state,
      ended.keeps.mech.trans ((ending.steered.mech (by decide)).trans (handed.mech.trans hm)), fun either => ?_, fun rewind => ?_,
      fun eject => ?_, ?_⟩
    · rw [target]
      rcases either with h | h <;> rw [h] <;> rfl
    · rw [target, rewind]; rfl
    · rw [target, eject]; rfl
    · rw [runNoteBytes_congr ended.keeps.run ended.counter]
      exact ended.told ending.noted (by decide) (by decide)
  · obtain ⟨t, acts, replied, short⟩ := exec_runStop hs hy stands hne playing idle
    exact ⟨t, acts, replied, ⟨short.state, short.result, short.target, short.change, short.mech, short.note, short.keeps.mono (by simp)⟩,
      (short.keeps.same .time (by decide)).1⟩
  · obtain ⟨t, w, acts, hw, short⟩ := exec_runNoTrack hy stands hne (by rw [play.mode]; rfl) playing
    have leap : KeepsBut [.time, .nav] s w := hw ▸ leapTo_keeps _ s
    have now : w.now = s.now + (10 * 12288000 - s.nav.run.track) := hw ▸ leapTo_now_of_le (by omega)
    exact ⟨t, acts, ⟨short.state, short.result, short.target, short.change, short.mech, short.note,
      (leap.mono (by simp)).trans (short.keeps.mono (by simp))⟩, ((short.keeps.same .time (by decide)).1).trans now⟩

end Sys2Proof.Machine
end

section
/-! O34: the requests of the watch list (R75, R211). -/

namespace Sys2Proof.Machine

variable {s : State}

/-! ### The fields of WATCH_SET (R75, R200, R209) -/

/-- A field that names an entry of a list counts from 1 (R209). -/
theorem valueAt_none_iff {α : Type} (all : List α) (b : Byte) : valueAt all b = none ↔ b.toNat < 1 ∨ all.length < b.toNat := by
  have zero : b = 0 ↔ b.toNat < 1 := by
    rw [← BitVec.toNat_inj]
    simp
  unfold valueAt
  split
  · next h => simp [zero.1 h]
  · next h =>
    rw [zero] at h
    rw [List.getElem?_eq_none_iff]
    omega

/-- What a WATCH_SET of kind 1, 2 or 3 asks to watch, its threshold clamped. -/
def askedKind (kind : Byte) (value : Word24) (choice code mask : Byte) : WatchKind :=
  if kind = 1 then .counter value.toInt (if choice = 1 then .forward else if choice = 2 then .reverse else .both)
  else if kind = 2 then (if choice = 1 then .markAny else .markCoded { code := code, mask := mask })
  else .remain (max 1 (min 36000 value.toNat))

def askedAction (action : Byte) : WatchAction :=
  if action = 1 then .note else if action = 2 then .stop else if action = 3 then .still else .play

/-- The entry that a WATCH_SET writes. -/
def askedWatch (kind : Byte) (value : Word24) (choice code mask action again setCount : Byte) : Watch :=
  { kind := askedKind kind value choice code mask, side := .unknown, action := askedAction action
    setCount := min 99 setCount.toNat, count := min 99 setCount.toNat, again := again == 1, fires := 0 }

/-- The kind fields that R75's first check refuses. -/
def State.kindRefused (s : State) (kind : Byte) (value : Word24) (choice : Byte) : Prop :=
  (kind = 1 ∧ (choice.toNat < 1 ∨ 3 < choice.toNat ∨ s.outOfRange value.toInt = true)) ∨
    (kind = 2 ∧ (choice.toNat < 1 ∨ 2 < choice.toNat)) ∨ (kind = 3 ∧ value.toInt < 0) ∨ kind = 0 ∨ 3 < kind.toNat

theorem byte_one_two_three {b : Byte} (lo : 1 ≤ b.toNat) (hi : b.toNat ≤ 3) : b = 1 ∨ b = 2 ∨ b = 3 := by bv_omega

theorem watchKind_counter {choice : Byte} (value : Word24) (code mask : Byte)
    (h : ¬ (choice.toNat < 1 ∨ 3 < choice.toNat ∨ s.outOfRange value.toInt = true)) :
    watchKind 1 value choice code mask s = some (askedKind 1 value choice code mask, false) := by
  rw [not_or, not_or, Bool.not_eq_true] at h
  obtain ⟨lo, hi, range⟩ := h
  have direction : valueAt DirectionFilter.all choice =
      some (if choice = 1 then .forward else if choice = 2 then .reverse else .both) := by
    rcases byte_one_two_three (b := choice) (by omega) (by omega) with rfl | rfl | rfl <;> rfl
  have counts : s.inCounterRange value.toInt = true := by rw [outOfRange_iff, range]; rfl
  simp [watchKind, direction, counts, askedKind]

theorem watchKind_mark {choice : Byte} (value : Word24) (code mask : Byte) (h : ¬ (choice.toNat < 1 ∨ 2 < choice.toNat)) :
    watchKind 2 value choice code mask s = some (askedKind 2 value choice code mask, false) := by
  have few : 1 ≤ choice.toNat ∧ choice.toNat ≤ 2 := by omega
  have either : choice = 1 ∨ choice = 2 := by bv_omega
  rcases either with rfl | rfl <;> rfl

theorem watchKind_remain {value : Word24} (choice code mask : Byte) (h : ¬ value.toInt < 0) :
    watchKind 3 value choice code mask s =
      some (askedKind 3 value choice code mask, decide (value.toNat < 1) || decide (36000 < value.toNat)) := by
  have clamp : Nat.min 36000 (Nat.max 1 value.toNat) = max 1 (min 36000 value.toNat) := by
    show min 36000 (max 1 value.toNat) = _
    omega
  have asked : watchKind 3 value choice code mask s = if value.toInt < 0 then none
      else some (.remain (Nat.min 36000 (Nat.max 1 value.toNat)), decide (value.toNat < 1) || decide (36000 < value.toNat)) := rfl
  rw [asked, if_neg h, clamp]
  rfl

/-- The kind fields within the check give what is asked, with the mark of a clamped threshold (R75). -/
theorem watchKind_taken {kind choice : Byte} {value : Word24} (code mask : Byte) (h : ¬ s.kindRefused kind value choice) :
    watchKind kind value choice code mask s =
      some (askedKind kind value choice code mask, decide (kind = 3 ∧ (value = 0 ∨ 36000 < value.toNat))) := by
  simp only [State.kindRefused, not_or, not_and] at h
  obtain ⟨counter, mark, remain, lo, hi⟩ := h
  have kinds : kind = 1 ∨ kind = 2 ∨ kind = 3 := by
    refine byte_one_two_three ?_ (by omega)
    bv_omega
  rcases kinds with rfl | rfl | rfl
  · rw [watchKind_counter value code mask (by simpa using counter rfl)]
    rfl
  · rw [watchKind_mark value code mask (by simpa using mark rfl)]
    rfl
  · have zero : value = 0 ↔ value.toNat < 1 := by
      rw [← BitVec.toNat_inj]
      simp
    rw [watchKind_remain choice code mask (remain rfl)]
    simp only [zero, true_and, Bool.decide_or]

theorem watchKind_refused {kind choice : Byte} {value : Word24} (code mask : Byte) (h : s.kindRefused kind value choice) :
    watchKind kind value choice code mask s = none := by
  rcases h with ⟨rfl, h⟩ | ⟨rfl, h⟩ | ⟨rfl, h⟩ | rfl | h
  · have asked : watchKind 1 value choice code mask s = match valueAt DirectionFilter.all choice with
        | some f => if s.inCounterRange value.toInt then some (.counter value.toInt f, false) else none
        | none => none := rfl
    rw [asked, outOfRange_iff]
    rcases h with lo | hi | range
    · rw [(valueAt_none_iff _ _).mpr (.inl lo)]
    · rw [(valueAt_none_iff DirectionFilter.all _).mpr (.inr hi)]
    · rw [range]
      split <;> rfl
  · have one : choice ≠ 1 := by bv_omega
    have two : choice ≠ 2 := by bv_omega
    exact (if_neg one).trans (if_neg two)
  · simp [watchKind, h]
  · rfl
  · have one : kind ≠ 1 := by bv_omega
    have two : kind ≠ 2 := by bv_omega
    have three : kind ≠ 3 := by bv_omega
    exact (if_neg one).trans ((if_neg two).trans (if_neg three))

/-! ### WATCH_SET -/

/-- The frames that R75's first check refuses (R75, R200; log 53). -/
def State.watchRefused (s : State) (place kind : Byte) (value : Word24) (choice action again setCount : Byte) : Prop :=
  place.toNat < 1 ∨ 8 < place.toNat ∨ s.kindRefused kind value choice ∨ action.toNat < 1 ∨ 4 < action.toNat ∨ 1 < again.toNat ∨ setCount = 0

theorem watchSetRequest_refused {place kind choice action again setCount : Byte} {value : Word24} (code mask : Byte)
    (h : s.watchRefused place kind value choice action again setCount) :
    watchSetRequest place kind value choice code mask action again setCount s = answer .range s := by
  unfold watchSetRequest
  split
  · next n k c a rep hp hk ha hf =>
    split
    · rfl
    · next counted =>
      exfalso
      rcases h with lo | hi | kindly | lo | hi | flag | none
      · simp [placeOf, show ¬ 1 ≤ place.toNat by omega] at hp
      · simp [placeOf, show ¬ place.toNat ≤ 8 by omega] at hp
      · rw [watchKind_refused code mask kindly] at hk; cases hk
      · rw [(valueAt_none_iff _ _).mpr (.inl lo)] at ha; cases ha
      · rw [(valueAt_none_iff WatchAction.all _).mpr (.inr hi)] at ha; cases ha
      · rw [(flagOf_none_iff again).mpr flag] at hf; cases hf
      · exact counted none
  · rfl

theorem valueAt_watchAction {b : Byte} (lo : 1 ≤ b.toNat) (hi : b.toNat ≤ 4) : valueAt WatchAction.all b = some (askedAction b) := by
  have cases_ : b = 1 ∨ b = 2 ∨ b = 3 ∨ b = 4 := by bv_omega
  rcases cases_ with rfl | rfl | rfl | rfl <;> rfl

theorem flagOf_within {b : Byte} (h : b.toNat ≤ 1) : flagOf b = some (b == 1) := by
  have cases_ : b = 0 ∨ b = 1 := by bv_omega
  rcases cases_ with rfl | rfl <;> rfl

theorem placeOf_within {place : Byte} (lo : 1 ≤ place.toNat) (hi : place.toNat ≤ 8) : placeOf place = some place.toNat :=
  if_pos ⟨lo, hi⟩

theorem placeOf_outside {place : Byte} (h : place.toNat < 1 ∨ 8 < place.toNat) : placeOf place = none := if_neg (by omega)

/-- A frame that passes the check writes its entry, in a deck that holds a cassette (R75). -/
theorem watchSetRequest_passed {place kind choice action again setCount : Byte} {value : Word24} (code mask : Byte)
    (h : ¬ s.watchRefused place kind value choice action again setCount) :
    watchSetRequest place kind value choice code mask action again setCount s =
      if s.noCassetteYet then answer .notReady s
      else answer (if 99 < setCount.toNat ∨ (kind = 3 ∧ (value = 0 ∨ 36000 < value.toNat)) then .clamped else .ok)
        (s.withWatch place.toNat (some (askedWatch kind value choice code mask action again setCount))) := by
  simp only [State.watchRefused, not_or] at h
  obtain ⟨placeLo, placeHi, kindly, actionLo, actionHi, flag, counted⟩ := h
  simp only [watchSetRequest, placeOf_within (Nat.le_of_not_lt placeLo) (Nat.le_of_not_lt placeHi), watchKind_taken code mask kindly,
    valueAt_watchAction (Nat.le_of_not_lt actionLo) (Nat.le_of_not_lt actionHi), flagOf_within (Nat.le_of_not_lt flag), counted, if_false,
    Bool.or_eq_true, decide_eq_true_eq, or_comm]
  rfl

/-! ### WATCH_CLEAR and WATCH_READ -/

theorem watch_at {place : Nat} (h : 1 ≤ place) (s : State) : s.watch place = (s.nav.watches[place - 1]?).join := if_neg (by omega)

theorem byteOf_toNat (b : Byte) : byteOf b.toNat = b := by simp [byteOf]

theorem watchClearRequest_at {place : Byte} (lo : 1 ≤ place.toNat) (hi : place.toNat ≤ 8) : watchClearRequest place s =
    if (s.nav.watches[place.toNat - 1]?).join.isSome then answer .ok (s.withWatch place.toNat none) else answer .noSuch s := by
  simp only [watchClearRequest, placeOf_within lo hi, watch_at lo]

theorem watchReadRequest_at {place : Byte} (lo : 1 ≤ place.toNat) (hi : place.toNat ≤ 8) : watchReadRequest place s =
    report ((s.nav.watches[place.toNat - 1]?).join.elim (place :: List.replicate 14 0) fun w => w.bytes place.toNat true) s := by
  simp only [watchReadRequest, placeOf_within lo hi, watch_at lo, emptyWatchBytes, byteOf_toNat]

/-- The watch requests are answered from what their owner leaves. -/
theorem exec_watchSet (hs : PortReady s) (place kind : Byte) (value : Word24) (choice code mask action again setCount : Byte)
    {u : State} {st : Status} (h : watchSetRequest place kind value choice code mask action again setCount s = answer st u) :
    exec (.watchSet place kind value choice code mask action again setCount) s = .next (answered .watchSet { status := st } u) := by
  have served : serve .watchSet ([place, kind] ++ bytesOf 3 value.toNat ++ [choice, code, mask, action, again, setCount]) s = answer st u :=
    (congrArg (fun v => watchSetRequest place kind v choice code mask action again setCount s) (word24_bytes value)).trans h
  refine congrArg Host.Outcome.next ((requestFrame_served hs rfl rfl).trans ?_)
  rw [served]
  rfl

theorem exec_watchClear (hs : PortReady s) {place : Byte} {u : State} {st : Status} (h : watchClearRequest place s = answer st u) :
    exec (.watchClear place) s = .next (answered .watchClear { status := st } u) := by
  have served : serve .watchClear [place] s = answer st u := h
  refine congrArg Host.Outcome.next ((requestFrame_served hs rfl rfl).trans ?_)
  rw [served]
  rfl

theorem exec_watchRead (hs : PortReady s) {place : Byte} {r : Reply} (h : watchReadRequest place s = (s, r)) :
    exec (.watchRead place) s = .next (answered .watchRead r s) := by
  have served : serve .watchRead [place] s = (s, r) := h
  refine congrArg Host.Outcome.next ((requestFrame_served hs rfl rfl).trans ?_)
  rw [served]

/-- Settles O34: the checks of WATCH_SET in their order, and the place that the other two name. -/
theorem watchTable : Obligations.WatchTable := by
  intro s hs
  refine ⟨fun place kind value choice code mask action again setCount => ?_, fun place => ⟨fun out => ⟨?_, ?_⟩, fun lo hi => ⟨fun none => ?_,
    fun w some_ => ?_⟩⟩⟩
  · intro bad clamped w run
    have check : bad ↔ s.watchRefused place kind value choice action again setCount := by
      simp only [bad, State.watchRefused, State.kindRefused, or_assoc]
    refine ⟨fun refused => exec_watchSet hs _ _ _ _ _ _ _ _ _ (watchSetRequest_refused code mask (check.mp refused)),
      fun passed early => ?_, fun passed empty loading ejecting => ?_⟩
    · refine exec_watchSet hs _ _ _ _ _ _ _ _ _ ((watchSetRequest_passed code mask (passed ∘ check.mpr)).trans ?_)
      rw [if_pos ((noCassetteYet_iff s).mpr early)]
    · have cassette : ¬ s.noCassetteYet = true := by simp [noCassetteYet_iff, empty, loading, ejecting]
      exact exec_watchSet hs _ _ _ _ _ _ _ _ _ ((watchSetRequest_passed code mask (passed ∘ check.mpr)).trans (if_neg cassette))
  · exact exec_watchClear hs (by simp only [watchClearRequest, placeOf_outside out])
  · exact exec_watchRead hs (by simp only [watchReadRequest, placeOf_outside out]; rfl)
  · refine ⟨exec_watchClear hs ?_, exec_watchRead hs ?_⟩
    · rw [watchClearRequest_at lo hi, none]
      rfl
    · rw [watchReadRequest_at lo hi, none]
      rfl
  · refine ⟨exec_watchClear hs ?_, exec_watchRead hs ?_⟩
    · rw [watchClearRequest_at lo hi, some_]
      rfl
    · rw [watchReadRequest_at lo hi, some_]
      rfl

end Sys2Proof.Machine
end

section
/-! O36: RUN_LOAD through the port's assembly (R81, R207). -/

namespace Sys2Proof.Machine

variable {s t u : State} {e n first : Byte} {l : List SegmentWord}

/-! ### The frame (R200, R207) -/

theorem segmentWords_fields (l : List SegmentWord) : segmentWords (l.flatMap segmentField) = l := by
  induction l with
  | nil => rfl
  | cons w l ih =>
    have step : segmentWords (segmentField w ++ l.flatMap segmentField) = w :: segmentWords (l.flatMap segmentField) := by
      have words : segmentWords (segmentField w ++ l.flatMap segmentField) =
          { start := word24 (byteOf (w.start.toNat / 256 ^ 2)) (byteOf (w.start.toNat / 256 ^ 1)) (byteOf (w.start.toNat / 256 ^ 0))
            stop := word24 (byteOf (w.stop.toNat / 256 ^ 2)) (byteOf (w.stop.toNat / 256 ^ 1)) (byteOf (w.stop.toNat / 256 ^ 0)) } ::
            segmentWords (l.flatMap segmentField) := rfl
      rw [words, word24_bytes, word24_bytes]
    rw [List.flatMap_cons, step, ih]

theorem segmentFields_length (l : List SegmentWord) : (l.flatMap segmentField).length = 6 * l.length := by
  induction l with
  | nil => rfl
  | cons w l ih =>
    have six : (segmentField w).length = 6 := rfl
    rw [List.flatMap_cons, List.length_append, six, ih, List.length_cons]
    omega

/-- A frame of one to eight segments is served, and answered from what its owner leaves (R199, R200). -/
theorem exec_runLoad (hs : PortReady s) (some_ : 1 ≤ l.length) (few : l.length ≤ 8) {r : Reply}
    (h : runLoadRequest e n first l s = (u, r)) : exec (.runLoad e n first l) s = .next (answered .runLoad r u) := by
  have framed : exec (.runLoad e n first l) s = .next (requestFrame .runLoad ([e, n, first] ++ l.flatMap segmentField) s) :=
    if_neg (by omega)
  have length : ([e, n, first] ++ l.flatMap segmentField).length = 3 + 6 * l.length := by
    rw [List.length_append, segmentFields_length]
    rfl
  have admitted : RequestKind.admitsLength .runLoad ([e, n, first] ++ l.flatMap segmentField).length = true := by
    rw [length]
    simp only [RequestKind.admitsLength, Bool.and_eq_true, decide_eq_true_eq, beq_iff_eq]
    omega
  have served : serve .runLoad ([e, n, first] ++ l.flatMap segmentField) s = (u, r) :=
    (congrArg (fun l => runLoadRequest e n first l s) (segmentWords_fields l)).trans h
  rw [framed, requestFrame_served hs rfl admitted, served]

theorem byteOf_small {k : Nat} (h : k < 256) : (byteOf k).toNat = k := by
  rw [byteOf, BitVec.toNat_ofNat]
  omega

/-! ### The first check (R81) -/

/-- A segment that the first check refuses. -/
def State.segmentRefused (s : State) (g : SegmentWord) : Bool :=
  s.outOfRange g.start.toInt || (g.stop != 0x800000 && (s.outOfRange g.stop.toInt || decide (g.stop.toInt ≤ g.start.toInt)))

/-- The fields that the first check refuses. -/
def State.runRefused (s : State) (e : Byte) (l : List SegmentWord) : Prop :=
  e.toNat < 1 ∨ 4 < e.toNat ∨ l.any s.segmentRefused = true

theorem segmentValid_iff (s : State) (g : SegmentWord) : s.segmentValid (segmentOf g) = !s.segmentRefused g := by
  by_cases next : g.stop = 0x800000
  · simp only [State.segmentValid, segmentOf, next, if_true, State.segmentRefused, bne_self_eq_false, Bool.false_and, Bool.or_false,
      Bool.and_true, outOfRange_iff]
  · have order : decide (g.start.toInt < g.stop.toInt) = !decide (g.stop.toInt ≤ g.start.toInt) := by
      rw [← decide_not, decide_eq_decide, not_le]
    simp only [State.segmentValid, segmentOf, next, if_false, State.segmentRefused, bne_iff_ne.mpr next, Bool.true_and, Bool.not_or,
      outOfRange_iff, order]

theorem runFieldsValid_iff (s : State) (e : Byte) (l : List SegmentWord) : s.runFieldsValid e l = true ↔ ¬ s.runRefused e l := by
  have segments : (l.all fun w => s.segmentValid (segmentOf w)) = !l.any s.segmentRefused := by
    rw [List.not_any_eq_all_not]
    exact congrArg l.all (funext (segmentValid_iff s))
  have action : (valueAt EndAction.all e).isSome = true ↔ ¬ (e.toNat < 1 ∨ 4 < e.toNat) := by
    rw [Option.isSome_iff_ne_none, ne_eq, valueAt_none_iff]
    rfl
  rw [State.runFieldsValid, Bool.and_eq_true, action, segments, Bool.not_eq_true', State.runRefused, ← or_assoc,
    not_or (q := l.any s.segmentRefused = true), Bool.not_eq_true]

theorem valueAt_endAction (h : ¬ s.runRefused e l) : valueAt EndAction.all e = some (endActionOf e) := by
  rw [State.runRefused, not_or, not_or] at h
  have few : 1 ≤ e.toNat ∧ e.toNat ≤ 4 := by omega
  have cases_ : e = 1 ∨ e = 2 ∨ e = 3 ∨ e = 4 := by bv_omega
  rcases cases_ with rfl | rfl | rfl | rfl <;> rfl

/-! ### A list handed on whole (R81) -/

/-- The run record of a list that is taken. -/
def Run.loaded (r : Run) (e : Byte) (l : List SegmentWord) : Run :=
  { r with segments := l.map segmentOf, endAction := some (endActionOf e), state := .idle, result := none }

/-- The state with a run record put in. -/
def State.withRun (r : Run) (s : State) : State := { s with nav.run := r }

theorem withRun_keeps (r : Run) (s : State) : KeepsBut [.nav] s (s.withRun r) := by
  refine ⟨fun q hq => ?_⟩
  cases q <;> simp_all [SamePart, State.withRun]

/-- RUN_LOAD answers RANGE, NOT_READY and BUSY in this order, and otherwise takes the list (R81). -/
theorem loadRun_refused (h : s.runRefused e l) : loadRun e l s = answer .range s := by
  have valid : s.runFieldsValid e l = false := by rw [← Bool.not_eq_true, runFieldsValid_iff, not_not]; exact h
  simp [loadRun, valid]

theorem loadRun_passed (some_ : 1 ≤ l.length) (few : l.length ≤ 12) (h : ¬ s.runRefused e l) : loadRun e l s =
    if s.noCassetteYet then answer .notReady s
    else if s.nav.run.state.active then answer .busy s
    else answer .ok (if s.nav.run.state = .idle then s.withRun (s.nav.run.loaded e l) else postRun (s.withRun (s.nav.run.loaded e l))) := by
  have passes : ¬ (l.length < 1 ∨ 12 < l.length ∨ (!s.runFieldsValid e l) = true) := by
    rw [(runFieldsValid_iff s e l).mpr h]
    rintro (less | more | invalid)
    · omega
    · omega
    · cases invalid
  rw [loadRun, if_neg passes]
  simp only [valueAt_endAction h]
  rfl

theorem clearAssembly_keeps (s : State) : KeepsBut [.reception] s (clearAssembly s) := by
  refine ⟨fun q hq => ?_⟩
  cases q <;> simp_all [SamePart, clearAssembly]

/-- A reply is sent ahead of any note, so no fires pending return to 0 (R74, R202). -/
theorem answered_nav (k : RequestKind) (r : Reply) (s : State) : (answered k r s).nav = s.nav := by
  unfold answered chooseFrame
  split
  · rfl
  · split
    · rfl
    · next empty => simp [putReply] at empty

/-- The list taken: what the reply leaves of the run, the go-to and the watch list. -/
structure ListTaken (e : Byte) (l : List SegmentWord) (s t : State) : Prop where
  run      : t.nav.run = s.nav.run.loaded e l
  goto     : t.nav.goto = s.nav.goto
  watches  : t.nav.watches = s.nav.watches
  assembly : t.link.assembly = none
  keeps    : KeepsBut [.nav, .reception, .sending] s t

theorem listTaken {c : State} (hc : c = clearAssembly s)
    (hu : u = if c.nav.run.state = .idle then c.withRun (c.nav.run.loaded e l) else postRun (c.withRun (c.nav.run.loaded e l)))
    (r : Reply) : ListTaken e l s (answered .runLoad r u) := by
  have nav : u.nav = (c.withRun (c.nav.run.loaded e l)).nav := by
    rw [hu]
    split
    · rfl
    · exact postRun_nav _
  have kept : KeepsBut [.nav, .sending] c u := by
    have loaded := withRun_keeps (c.nav.run.loaded e l) c
    rw [hu]
    split
    · exact loaded.mono (by simp)
    · exact KeepsBut.after ((postRun_keeps _).mono (by simp)) (loaded.mono (by simp))
  have sent := answered_keeps .runLoad r u
  have cleared : c.link.assembly = none := by rw [hc]; rfl
  have same : c.nav = s.nav := by rw [hc]; rfl
  have held := answered_nav .runLoad r u
  refine ⟨by rw [held, nav, ← same]; rfl, by rw [held, nav, ← same]; rfl, by rw [held, nav, ← same]; rfl, ?_,
    ((hc ▸ clearAssembly_keeps s).mono (by simp)).trans ((kept.mono (by simp)).trans (sent.mono (by simp)))⟩
  exact ((kept.trans (sent.mono (by simp))).same .reception (by decide)).2.2.2.2.2.trans cleared

/-- What a RUN_LOAD that hands on a whole list comes to. -/
def HandedOn (s : State) (e : Byte) (l : List SegmentWord) (run : Host.Outcome State Fault Refusal) : Prop :=
  let clear := { s with link.assembly := none }
  (s.runRefused e l → run = .next (answered .runLoad { status := .range } clear)) ∧
  (¬ s.runRefused e l → (s.transport.mode = .empty ∨ s.transport.mode = .loading ∨ s.transport.mode = .ejecting) →
    run = .next (answered .runLoad { status := .notReady } clear)) ∧
  (¬ s.runRefused e l → s.transport.mode ≠ .empty → s.transport.mode ≠ .loading → s.transport.mode ≠ .ejecting →
    (s.nav.run.state.active → run = .next (answered .runLoad { status := .busy } clear)) ∧
    (s.nav.run.state.active = false →
      ∃ t, run = .next t ∧ Replied .runLoad { status := .ok } t ∧ t.nav.run.state = .idle ∧ t.nav.run.result = none ∧
        t.nav.run.endAction = some (endActionOf e) ∧ t.nav.run.segments.length = l.length ∧
        t.nav.run.segments = l.map (fun g =>
          { start := g.start.toInt, stop := if g.stop = 0x800000 then .nextMark else .counter g.stop.toInt }) ∧
        t.link.assembly = none ∧ t.nav.goto = s.nav.goto ∧ t.nav.watches = s.nav.watches ∧
        KeepsBut [.nav, .reception, .sending] s t))

theorem handedOn {run : Host.Outcome State Fault Refusal} (some_ : 1 ≤ l.length) (few : l.length ≤ 12)
    (acts : ∀ {u r}, loadRun e l (clearAssembly s) = (u, r) → run = .next (answered .runLoad r u)) : HandedOn s e l run := by
  obtain ⟨c, hc⟩ : ∃ c, c = clearAssembly s := ⟨_, rfl⟩
  rw [← hc] at acts
  have check : c.runRefused e l ↔ s.runRefused e l := by rw [hc]; rfl
  have deck : c.transport = s.transport := by rw [hc]; rfl
  have nav : c.nav = s.nav := by rw [hc]; rfl
  have clear : c = { s with link.assembly := none } := hc
  refine ⟨fun refused => ?_, fun passed early => ?_, fun passed empty loading ejecting => ⟨fun busy => ?_, fun idle => ?_⟩⟩
  · rw [← clear]
    exact acts (loadRun_refused (check.mpr refused))
  · have none : c.noCassetteYet = true := by rw [noCassetteYet_iff, deck]; exact early
    rw [← clear]
    exact acts ((loadRun_passed some_ few (passed ∘ check.mp)).trans (if_pos none))
  · have cassette : ¬ c.noCassetteYet = true := by simp [noCassetteYet_iff, deck, empty, loading, ejecting]
    rw [← clear]
    exact acts ((loadRun_passed some_ few (passed ∘ check.mp)).trans ((if_neg cassette).trans (if_pos (nav ▸ busy))))
  · have cassette : ¬ c.noCassetteYet = true := by simp [noCassetteYet_iff, deck, empty, loading, ejecting]
    have taken := acts ((loadRun_passed some_ few (passed ∘ check.mp)).trans ((if_neg cassette).trans (if_neg (by rw [nav, idle]; decide))))
    obtain ⟨runs, goto, watches, assembly, keeps⟩ := listTaken (e := e) (l := l) hc rfl { status := .ok }
    exact ⟨_, taken, replied_answered .., by rw [runs]; rfl, by rw [runs]; rfl, by rw [runs]; rfl,
      by rw [runs]; exact List.length_map .., by rw [runs]; rfl, assembly, goto, watches, keeps⟩

/-! ### The assembly (R207) -/

theorem runLoadRequest_whole (h : n.toNat = l.length) (some_ : 1 ≤ l.length) (few : l.length ≤ 12) :
    runLoadRequest e n 1 l s = loadRun e l (clearAssembly s) := by
  simp only [runLoadRequest, h, if_true]
  exact if_neg (by omega)

theorem runLoadRequest_part (few : l.length < n.toNat) (most : n.toNat ≤ 12) : runLoadRequest e n 1 l s =
    if s.runFieldsValid e l then answer .ok { s with link.assembly := some { endAction := e, total := n.toNat, segments := l } }
    else answer .range (clearAssembly s) := by
  simp only [runLoadRequest, if_true, few, show ¬ l.length = n.toNat by omega, if_false]
  exact if_neg (by omega)

theorem runLoadRequest_second {a : Assembly} (h : s.link.assembly = some a) (hn : n.toNat = a.total) (most : a.total ≤ 12)
    (hf : first.toNat = a.segments.length + 1) (later : 1 ≤ a.segments.length) (fits : a.segments.length + l.length = a.total) :
    runLoadRequest a.endAction n first l s = loadRun a.endAction (a.segments ++ l) (clearAssembly s) := by
  have second : first ≠ 1 := by
    rintro rfl
    have one : (1 : Byte).toNat = 1 := rfl
    omega
  simp only [runLoadRequest, h, hn, hf, second, if_false, fits, and_self, if_true]
  exact if_neg (by omega)

/-- The frames that neither start an assembly nor complete the one that waits. -/
theorem runLoadRequest_unfit (h : n = 0 ∨ 12 < n.toNat ∨ (first = 1 ∧ n.toNat < l.length) ∨
    (first ≠ 1 ∧ s.link.assembly.all (fun a => decide (first.toNat ≠ a.segments.length + 1) || decide (a.endAction ≠ e) ||
      decide (a.total ≠ n.toNat) || decide (a.segments.length + l.length ≠ a.total)) = true)) :
    runLoadRequest e n first l s = answer .range (clearAssembly s) := by
  by_cases bound : n.toNat < 1 ∨ 12 < n.toNat
  · exact if_pos bound
  have counted : n ≠ 0 := by
    rintro rfl
    exact bound (.inl (by decide))
  rcases h with zero | many | ⟨rfl, short⟩ | ⟨second, all⟩
  · exact absurd zero counted
  · exact absurd (.inr many) bound
  · simp only [runLoadRequest, bound, if_false, if_true, show ¬ l.length = n.toNat by omega, show ¬ l.length < n.toNat by omega]
  · simp only [runLoadRequest, bound, second, if_false]
    cases hold : s.link.assembly with
    | none => rfl
    | some a =>
      rw [hold] at all
      simp only [Option.all_some, Bool.or_eq_true, decide_eq_true_eq] at all
      refine if_neg fun ⟨place, action, total, fits⟩ => ?_
      rcases all with ((other | other) | other) | other
      · exact other place
      · exact other action
      · exact other total
      · exact other (fits.trans total.symm)

/-- Settles O36: the assembly hands on a whole list or keeps a first part, and the list handed on meets R81's checks. -/
theorem runLoaded : Obligations.RunLoaded := by
  intro s hs bad clear handed
  refine ⟨fun e l some_ few => ?_, fun e n l some_ few more most => ⟨fun refused => ?_, fun passed => ?_⟩,
    fun a hold later most l some_ few fits => ?_, fun e n first l some_ few unfit => ?_⟩
  · have count : (byteOf l.length).toNat = l.length := byteOf_small (by omega)
    exact handedOn some_ (by omega) fun h => exec_runLoad hs some_ few ((runLoadRequest_whole count some_ (by omega)).trans h)
  · have valid : ¬ s.runFieldsValid e l = true := by rw [runFieldsValid_iff, not_not]; exact refused
    exact exec_runLoad hs some_ few ((runLoadRequest_part more most).trans (if_neg valid))
  · exact exec_runLoad hs some_ few ((runLoadRequest_part more most).trans (if_pos ((runFieldsValid_iff s e l).mpr passed)))
  · have total : (byteOf a.total).toNat = a.total := byteOf_small (by omega)
    have first : (byteOf (a.segments.length + 1)).toNat = a.segments.length + 1 := byteOf_small (by omega)
    have length : (a.segments ++ l).length = a.total := by rw [List.length_append, fits]
    exact handedOn (by omega) (by omega) fun h =>
      exec_runLoad hs some_ few ((runLoadRequest_second hold total most first later fits).trans h)
  · exact exec_runLoad hs some_ few (runLoadRequest_unfit unfit)

end Sys2Proof.Machine
end

section
/-! What a watch that stands alone in the list does at a match: its entry, the action of its firing, and what the end of the event leaves
(R74, R79, R80). -/

namespace Sys2Proof.Machine

variable {s t v x z : State} {place : Nat} {w : Watch} {f : Firing} {a b : Fired}

/-! ### The watch that stands alone (R74) -/

/-- One place of the list holds an entry, and the others are empty. -/
structure LoneWatch (place : Nat) (o : Option Watch) (s : State) : Prop where
  lo     : 1 ≤ place
  hi     : place ≤ 8
  length : s.nav.watches.length = 8
  here   : s.watch place = o
  others : ∀ n, n ≠ place → s.watch n = none

theorem watch_congr (h : t.nav.watches = s.nav.watches) (n : Nat) : t.watch n = s.watch n := by simp only [State.watch, h]

theorem LoneWatch.of {o : Option Watch} (h : LoneWatch place o s) (hw : t.nav.watches = s.nav.watches) : LoneWatch place o t :=
  ⟨h.lo, h.hi, hw ▸ h.length, (watch_congr hw _).trans h.here, fun n hn => (watch_congr hw n).trans (h.others n hn)⟩

theorem watch_withWatch_same {o : Option Watch} (lo : 1 ≤ place) (hi : place ≤ s.nav.watches.length) :
    (s.withWatch place o).watch place = o := by
  rw [watch_at lo]
  show (s.nav.watches.set (place - 1) o)[place - 1]?.join = o
  rw [List.getElem?_set_self (by omega)]
  rfl

theorem watch_withWatch_other {o : Option Watch} (lo : 1 ≤ place) {n : Nat} (hn : n ≠ place) :
    (s.withWatch place o).watch n = s.watch n := by
  unfold State.watch
  split
  · rfl
  · have apart : place - 1 ≠ n - 1 := by omega
    show ((s.nav.watches.set (place - 1) o)[n - 1]?).join = _
    rw [List.getElem?_set_ne apart]

theorem LoneWatch.withWatch {o p : Option Watch} (h : LoneWatch place o s) : LoneWatch place p (s.withWatch place p) :=
  ⟨h.lo, h.hi, (List.length_set ..).trans h.length, watch_withWatch_same h.lo (by rw [h.length]; exact h.hi),
    fun n hn => (watch_withWatch_other h.lo hn).trans (h.others n hn)⟩

/-- A walk over the places does what it does at the one that holds an entry. -/
theorem foldl_lone {g : Fired → Nat → Fired} {o : Option Watch} (skip : ∀ c n, c.state.watch n = none → g c n = c)
    (before : LoneWatch place o a.state) (after : ∀ n, n ≠ place → (g a place).state.watch n = none) :
    watchPlaces.foldl g a = g a place := by
  have walk : ∀ (l : List Nat) (c : Fired), (∀ n ∈ l, n ≠ place) → (∀ n, n ≠ place → c.state.watch n = none) → l.foldl g c = c := by
    intro l c
    induction l with
    | nil => exact fun _ _ => rfl
    | cons n l ih =>
      intro apart empty
      rw [List.foldl_cons, skip c n (empty n (apart n (List.mem_cons_self ..)))]
      exact ih (fun k hk => apart k (List.mem_cons_of_mem _ hk)) empty
  have member : place ∈ watchPlaces := by
    have lo := before.lo
    have hi := before.hi
    simp only [watchPlaces, List.mem_cons, List.not_mem_nil, or_false]
    omega
  have nodup : watchPlaces.Nodup := by decide
  obtain ⟨front, back, split⟩ := List.append_of_mem member
  rw [split] at nodup ⊢
  obtain ⟨-, rest, apart⟩ := List.nodup_append.mp nodup
  rw [List.foldl_append, List.foldl_cons, walk front a (fun n hn => apart n hn place (List.mem_cons_self ..)) before.others]
  exact walk back _ (fun n hn e => (List.nodup_cons.mp rest).1 (e ▸ hn)) after

/-! ### A match (R79, R80) -/

/-- What a match leaves of an entry: one less to count, or the entry reloaded or removed. -/
def Watch.afterMatch (w : Watch) : Option Watch :=
  if w.count ≤ 1 then (if w.again then some { w with fires := Nat.min 255 (w.fires + 1), count := w.setCount } else none)
  else some { w with count := w.count - 1 }

/-- The action that a match calls for. -/
def Watch.matchAction (w : Watch) : WatchAction := if w.count ≤ 1 then w.action else .note

/-- A match has been taken: the entry, the action, and a note at most. -/
structure MatchTaken (place : Nat) (w : Watch) (v : State) (a : Fired) : Prop where
  nav    : a.state.nav = (v.withWatch place w.afterMatch).nav
  action : a.action = w.matchAction
  line   : a.state.link.line = v.link.line
  keeps  : KeepsBut [.nav, .sending] v a.state

theorem moreRestrictive_note (c : WatchAction) : moreRestrictive .note c = c := by cases c <;> rfl

theorem fireWatch_eq (taken : v.actionsTaken = true) : ∃ k, fireWatch place w f ⟨v, .note⟩ =
    ⟨post (.watch place) k (v.withWatch place
      (if w.again then some { w with fires := Nat.min 255 (w.fires + 1), count := w.setCount } else none)), w.action⟩ := by
  unfold fireWatch
  cases w.again with
  | false =>
    simp only [taken, moreRestrictive_note, Bool.or_true, if_true]
    exact ⟨_, rfl⟩
  | true =>
    simp only [taken, moreRestrictive_note, Bool.or_true, if_true]
    exact ⟨_, rfl⟩

theorem matchWatch_taken (taken : v.actionsTaken = true) (w : Watch) (f : Firing) :
    MatchTaken place w v (matchWatch place w f ⟨v, .note⟩) := by
  have kept := matchWatch_keeps place w f ⟨v, .note⟩
  by_cases last : w.count ≤ 1
  · have fires : matchWatch place w f ⟨v, .note⟩ = fireWatch place w f ⟨v, .note⟩ := if_pos last
    obtain ⟨k, fired⟩ := fireWatch_eq (place := place) (w := w) (f := f) taken
    refine ⟨?_, ?_, ?_, kept⟩
    · rw [fires, fired, Watch.afterMatch, if_pos last]
      exact post_nav ..
    · rw [fires, fired, Watch.matchAction, if_pos last]
    · rw [fires, fired]
      exact post_line ..
  · have counts : matchWatch place w f ⟨v, .note⟩ = ⟨v.withWatch place (some { w with count := w.count - 1 }), .note⟩ := if_neg last
    refine ⟨?_, ?_, ?_, kept⟩
    · rw [counts, Watch.afterMatch, if_neg last]
    · rw [counts, Watch.matchAction, if_neg last]
    · rw [counts]
      rfl

theorem MatchTaken.lone {o : Option Watch} (h : MatchTaken place w v a) (hv : LoneWatch place o v) :
    LoneWatch place w.afterMatch a.state := hv.withWatch.of (by rw [h.nav])

/-- A match keeps what its entry watches. -/
theorem Watch.afterMatch_kind {y : Watch} (h : w.afterMatch = some y) : y.kind = w.kind := by
  unfold Watch.afterMatch at h
  split at h
  · split at h
    · cases h; rfl
    · cases h
  · cases h; rfl

/-! ### The action given (R80) -/

/-- The operator drives a threaded motion directly, with nothing in flight: the actions of the watches are taken. -/
structure Driven (s : State) : Prop where
  mech    : s.mech = .operator .direct
  idle    : NoNavigation s
  awake   : s.inStandby = false
  stands  : StandsThreaded s
  motion  : s.transport.mode ≠ .still
  resting : s.transport.target = none

theorem Driven.takes (h : Driven s) : s.actionsTaken = true := by
  simp [State.actionsTaken, h.mech, h.idle.goto, h.idle.run, h.awake]

/-- An action given as a target in a mode (R80). -/
structure ActionDone (c : WatchAction) (m : Mode) (z : State) : Prop where
  note  : c = .note → z.transport.target = none
  stop  : c = .stop → z.transport.mode = .unthreading ∧ z.transport.target = some .stop
  still : c = .still → z.transport.change = some (.servo .still) ∧ z.transport.target = some .still
  play  : c = .play → m ≠ .play → z.transport.change = some (.servo .play)

theorem releaseIfStill_moving (h : s.standsStill = false) : releaseIfStill s = s := by
  rw [releaseIfStill, h]
  exact if_neg fun e => Bool.false_ne_true e.2

/-- What the giving of the action leaves beside it. -/
structure ActionGiven (a : Fired) (z : State) : Prop where
  steered : Steered a.state z
  done    : ActionDone a.action a.state.transport.mode z

theorem actionGiven (stands : StandsThreaded a.state) (motion : a.state.transport.mode ≠ .still)
    (resting : a.state.transport.target = none) : ActionGiven a (giveAction a) := by
  obtain ⟨u, c⟩ := a
  obtain ⟨-, -, -, stopped, -, -⟩ := stands.threaded.rests
  cases c with
  | note => exact ⟨.refl u, ⟨fun _ => resting, nofun, nofun, nofun⟩⟩
  | stop =>
    have given : Given .stop u (giveTarget .stop u) := given_of_threaded stands rfl stopped
    have moving : (giveTarget .stop u).standsStill = false := by simp [State.standsStill, State.settled, given.target]
    have gives : giveAction ⟨u, .stop⟩ = giveTarget .stop u := releaseIfStill_moving moving
    rw [gives]
    exact ⟨steered_giveTarget .stop u, ⟨nofun, fun _ => ⟨given.mode.trans (if_neg stopped), given.target⟩, nofun, nofun⟩⟩
  | still =>
    have given : Given .still u (giveTarget .still u) := given_of_threaded stands rfl motion
    exact ⟨steered_giveTarget .still u, ⟨nofun, nofun, fun _ => ⟨given.change.trans (by rw [if_neg stopped]; rfl), given.target⟩, nofun⟩⟩
  | play =>
    refine ⟨steered_giveTarget .play u, ⟨nofun, nofun, nofun, fun _ other => ?_⟩⟩
    have given : Given .play u (giveTarget .play u) := given_of_threaded stands rfl other
    exact given.change.trans (by rw [if_neg stopped]; rfl)

/-! ### The end of the event (R74, R202) -/

/-- What an event has made of the watch list and the transport stands to its end, but for the fires that a note sent has reported. -/
structure WatchEnded (z t : State) : Prop where
  transport : t.transport = z.transport
  unfired   : t.nav.watches.map (·.map Watch.unfired) = z.nav.watches.map (·.map Watch.unfired)
  unsent    : z.link.line ≠ none ∨ z.link.flow = false → t.nav.watches = z.nav.watches

theorem EndedFrom.watches (h : EndedFrom z t) : WatchEnded z t :=
  ⟨h.keeps.transport, (h.keeps.same .nav (by decide)).2.2, fun q => by rw [h.unsent q]⟩

theorem EndedFrom.watches_read {r : Option MarkRecord} (h : EndedFrom (noteRead r z) t) : WatchEnded z t := by
  obtain ⟨nav, line⟩ := noteRead_sent r z
  have read := noteRead_keeps r z
  have flow : (noteRead r z).link.flow = z.link.flow := (read.same .reception (by decide)).2.2.2.1
  exact ⟨h.keeps.transport.trans read.transport, by rw [(h.keeps.same .nav (by decide)).2.2, nav],
    fun q => by rw [h.unsent (by rw [line, flow]; exact q), nav]⟩

/-- An entry of the list. -/
def State.entry (s : State) (place : Nat) : Option Watch := (s.nav.watches[place - 1]?).join

theorem LoneWatch.entry {o : Option Watch} (h : LoneWatch place o s) : s.entry place = o := (watch_at h.lo s).symm.trans h.here

theorem entry_unfired (h : t.nav.watches.map (·.map Watch.unfired) = s.nav.watches.map (·.map Watch.unfired)) (place : Nat) :
    (t.entry place).map Watch.unfired = (s.entry place).map Watch.unfired := by
  have at_ : ∀ u : State, (u.entry place).map Watch.unfired = ((u.nav.watches.map (·.map Watch.unfired))[place - 1]?).join := by
    intro u
    rw [State.entry, List.getElem?_map]
    cases u.nav.watches[place - 1]? with
    | none => rfl
    | some o => cases o <;> rfl
  rw [at_ t, at_ s, h]

/-- An entry stands at the end of the event: but for its fires, and whole where no note could be sent. -/
def State.entryStands (s : State) (place : Nat) (x : Watch) (t : State) : Prop :=
  (t.entry place).map Watch.unfired = some x.unfired ∧ (s.link.line ≠ none ∨ s.link.flow = false → t.entry place = some x)

/-- The line of two states is as busy, and their notes flow alike. -/
def SameLine (s t : State) : Prop := t.link.line = s.link.line ∧ t.link.flow = s.link.flow

theorem SameLine.trans (h : SameLine s t) (k : SameLine t v) : SameLine s v := ⟨k.1.trans h.1, k.2.trans h.2⟩

theorem sameLine_of_keeps (hl : t.link.line = s.link.line) {l : List Part} (h : KeepsBut l s t)
    (hr : Part.reception ∉ l := by decide) : SameLine s t := ⟨hl, (h.same .reception hr).2.2.2.1⟩

theorem WatchEnded.stands (h : WatchEnded z t) (line : SameLine s z) {y : Watch} (lone : LoneWatch place (some y) z) :
    s.entryStands place y t := by
  obtain ⟨busy, flow⟩ := line
  refine ⟨(entry_unfired h.unfired place).trans (by rw [lone.entry]; rfl), fun q => ?_⟩
  have same : t.entry place = z.entry place := by rw [State.entry, State.entry, h.unsent (by rw [busy, flow]; exact q)]
  rw [same, lone.entry]

theorem WatchEnded.empty (h : WatchEnded z t) (lone : LoneWatch place none z) : t.entry place = none := by
  have unfired := entry_unfired h.unfired place
  rw [lone.entry] at unfired
  exact Option.map_eq_none_iff.mp unfired

/-- What the end of the event shows of a match: the entry counted down, or fired with its action given. -/
structure Matched (place : Nat) (s : State) (w : Watch) (t : State) : Prop where
  counts : 1 < w.count → s.entryStands place { w with count := w.count - 1 } t ∧ t.transport.target = none
  fires  : w.count = 1 → (w.again = false → t.entry place = none) ∧
    (w.again = true → (t.entry place).map Watch.unfired = some { w with count := w.setCount, fires := 0 }) ∧
    ActionDone w.action s.transport.mode t

/-- A match whose action has been given, seen from the end of its event. -/
theorem matched {o : Option Watch} (taken : MatchTaken place w v a) (driven : Driven v) (lone : LoneWatch place o v)
    (line : SameLine s v) (mode : v.transport.mode = s.transport.mode) (ended : WatchEnded (giveAction a) t) : Matched place s w t := by
  have deck : a.state.transport = v.transport := taken.keeps.transport
  have given : ActionGiven a (giveAction a) := actionGiven (driven.stands.of deck) (by rw [deck]; exact driven.motion)
    (by rw [deck]; exact driven.resting)
  have alone : LoneWatch place w.afterMatch (giveAction a) := (taken.lone lone).of (by rw [given.steered.nav])
  have quiet : SameLine s (giveAction a) :=
    line.trans ((sameLine_of_keeps taken.line taken.keeps).trans (sameLine_of_keeps given.steered.line given.steered.keeps))
  have done : ActionDone w.matchAction s.transport.mode t := by
    have done := given.done
    rw [taken.action, deck, mode] at done
    exact ⟨fun e => by rw [ended.transport]; exact done.note e, fun e => by rw [ended.transport]; exact done.stop e,
      fun e => by rw [ended.transport]; exact done.still e, fun e => by rw [ended.transport]; exact done.play e⟩
  refine ⟨fun more => ?_, fun one => ⟨fun once => ?_, fun again => ?_, ?_⟩⟩
  · rw [Watch.afterMatch, if_neg (by omega)] at alone
    rw [Watch.matchAction, if_neg (by omega)] at done
    exact ⟨ended.stands quiet alone, done.note rfl⟩
  · rw [Watch.afterMatch, if_pos (by omega), once] at alone
    exact ended.empty alone
  · rw [Watch.afterMatch, if_pos (by omega), if_pos again] at alone
    exact (ended.stands quiet alone).1
  · rw [Watch.matchAction, if_pos (by omega)] at done
    exact done

end Sys2Proof.Machine
end

section
/-! O35: the events that a watch standing alone meets: a pulse read, a pulse written, a change of the recording speed and an estimate
computation (R76 to R80). -/

namespace Sys2Proof.Machine

variable {s t v z : State} {place : Nat} {w : Watch} {f : Firing} {a : Fired} {d : Direction} {shape : Shape}

/-! ### A pulse offered (R76, R77, R79) -/

/-- What the watches make of a step, and then of the mark that came with it. -/
def offered (r : Option MarkRecord) (d : Direction) (v : State) : Fired :=
  r.elim (offerWatches (.counter v.tape.counter d) ⟨v, .note⟩) fun r =>
    offerWatches (.mark r) (offerWatches (.counter v.tape.counter d) ⟨v, .note⟩)

theorem offered_none (d : Direction) (v : State) : offered none d v = offerWatches (.counter v.tape.counter d) ⟨v, .note⟩ := by
  simp only [offered, Option.elim_none]

theorem offered_some (r : MarkRecord) (d : Direction) (v : State) :
    offered (some r) d v = offerWatches (.mark r) (offerWatches (.counter v.tape.counter d) ⟨v, .note⟩) := by
  simp only [offered, Option.elim_some]

/-- With nothing else to navigate a pulse comes to the action of its firings. -/
theorem navigate_offered {r : Option MarkRecord} (h : NoNavigation (offered r d v).state) :
    navigate (some d) r v = giveAction (offered r d v) := by
  cases r with
  | none =>
    rw [offered_none] at h ⊢
    simp only [navigate, Option.elim_none, Option.elim_some, gotoStep_idle h, runStep_idle h]
  | some r =>
    rw [offered_some] at h ⊢
    simp only [navigate, Option.elim_some, gotoStep_idle h, runStep_idle h, gotoMark_idle h, runMark_idle h]

/-- Entries that do not match leave the offer as it is. -/
theorem offerWatches_unmatched (h : ∀ n w, a.state.watch n = some w → w.matched f = false) : offerWatches f a = a := by
  refine foldl_of_fixed (fun n => ?_) _
  unfold offerPlace
  split
  · next w at_ => rw [h n w at_]; rfl
  · rfl

theorem LoneWatch.unmatched {o : Option Watch} (h : LoneWatch place o a.state) (hf : ∀ w, o = some w → w.matched f = false) :
    offerWatches f a = a := by
  refine offerWatches_unmatched fun n w at_ => ?_
  by_cases here : n = place
  · exact hf w (by rw [← at_, here, h.here])
  · rw [h.others n here] at at_
    cases at_

/-- The match of the one entry is all that an offer comes to. -/
theorem offerWatches_lone (lone : LoneWatch place (some w) v) (taken : v.actionsTaken = true) (hf : w.matched f = true) :
    offerWatches f ⟨v, .note⟩ = matchWatch place w f ⟨v, .note⟩ := by
  have match_ : offerPlace f ⟨v, .note⟩ place = matchWatch place w f ⟨v, .note⟩ := by
    have at_ : v.watch place = some w := lone.here
    simp only [offerPlace, at_, hf, if_true]
  rw [← match_]
  refine foldl_lone (a := ⟨v, .note⟩) (fun c n none => by simp only [offerPlace, none]) lone ?_
  rw [match_]
  exact ((matchWatch_taken taken w f).lone lone).others

theorem Watch.matched_of_counter {c : Int} {p : DirectionFilter} (h : w.kind = .counter c p) (r : MarkRecord) : w.matched (.mark r) = false := by
  simp only [Watch.matched, h]

/-- A watch of marks, by what its kind asks of a mark that is read (R77). -/
theorem Watch.matched_of_mark (h : w.kind = .markAny ∨ ∃ m, w.kind = .markCoded m) (c : Int) (d : Direction) :
    w.matched (.counter c d) = false := by
  rcases h with h | ⟨m, h⟩ <;> simp only [Watch.matched, h]

/-- A step onto the value in a permitted direction matches whatever mark came with it (R76). -/
theorem offered_counter (lone : LoneWatch place (some w) v) (taken : v.actionsTaken = true) {c : Int} {p : DirectionFilter}
    (kind : w.kind = .counter c p) (on : w.matched (.counter v.tape.counter d) = true) (r : Option MarkRecord) :
    offered r d v = matchWatch place w (.counter v.tape.counter d) ⟨v, .note⟩ := by
  have first := offerWatches_lone lone taken on
  cases r with
  | none => rw [offered_none, first]
  | some r =>
    have left := (matchWatch_taken taken w (.counter v.tape.counter d)).lone lone
    rw [offered_some, first]
    exact left.unmatched fun y hy => Watch.matched_of_counter ((Watch.afterMatch_kind hy).trans kind) r

theorem offered_mark (lone : LoneWatch place (some w) v) (taken : v.actionsTaken = true)
    (kind : w.kind = .markAny ∨ ∃ m, w.kind = .markCoded m) (r : MarkRecord) : offered (some r) d v =
      if w.matched (.mark r) then matchWatch place w (.mark r) ⟨v, .note⟩ else ⟨v, .note⟩ := by
  have here : LoneWatch place (some w) (⟨v, .note⟩ : Fired).state := lone
  rw [offered_some, here.unmatched fun y hy => by cases hy; exact Watch.matched_of_mark kind _ _]
  split
  · next on => exact offerWatches_lone lone taken on
  · next off => exact here.unmatched fun y hy => by cases hy; exact Bool.eq_false_iff.mpr off

theorem MatchTaken.idle (h : MatchTaken place w v a) (hv : NoNavigation v) : NoNavigation a.state :=
  ⟨by rw [h.nav]; exact hv.goto, by rw [h.nav]; exact hv.run⟩

/-- The pulse hands over a state in which the operator still drives directly. -/
theorem PulseHanded.driven (h : PulseHanded d s v) (hs : Driven s) : Driven v :=
  { mech := h.mech.trans hs.mech
    idle := ⟨by rw [h.goto, Goto.tracked_idle hs.idle.goto]; exact hs.idle.goto,
      by rw [h.run, Run.tracked_idle hs.idle.run]; exact hs.idle.run⟩
    awake := by rw [State.inStandby, h.power]; exact hs.awake
    stands := ⟨by rw [h.mode]; exact hs.stands.mode, h.change.trans hs.stands.change⟩
    motion := by rw [h.mode]; exact hs.motion
    resting := h.target.trans hs.resting }

theorem PulseHanded.sameLine (h : PulseHanded d s v) : SameLine s v := ⟨by rw [h.link], by rw [h.link]⟩

/-- A pulse read in a motion, up to the action that its offers have come to. -/
theorem exec_offeredPulse (hb : s.power.state ≠ .backup) (hy : Steady s) (hdir : s.transport.mode.direction = some d)
    (hr : s.transport.mode ≠ .record) (hon : s.countsOn d = true) (hv : v = handPulse shape d s)
    (offers : offered (s.pulseDecoded shape d).2 d v = a) (idle : NoNavigation a.state) (kept : KeepsBut [.nav, .sending] v a.state)
    (given : Steered a.state (giveAction a)) : ∃ t, exec (.controlPulseRead shape) s = .next t ∧ t.tape.counter = s.nextCount d ∧
      WatchEnded (giveAction a) t := by
  have handed : PulseHanded d s v := hv ▸ pulseHanded hon
  have read := pulseRead_navigates (shape := shape) hon
  rw [← hv, navigate_offered (offers ▸ idle), offers] at read
  have power : (giveAction a).power = s.power := given.keeps.power.trans (kept.power.trans handed.power)
  have noted := noteRead_keeps (s.pulseDecoded shape d).2 (giveAction a)
  have ended := endedFrom_event (b := s) (u := noteRead (s.pulseDecoded shape d).2 (giveAction a)) (.inl hy.sequence)
    (hy.notStopping.of (noted.power.trans power))
  refine ⟨_, (exec_controlPulseRead hb hdir hr).trans (by rw [read]), ?_, ended.watches_read⟩
  exact ended.counter.trans ((noted.same .counter (by decide)).1.trans
    (given.counter.trans ((kept.same .counter (by decide)).1.trans handed.counter)))

/-- A match by a pulse that is read, seen from the end of its event. -/
theorem exec_matchingPulse (hb : s.power.state ≠ .backup) (hy : Steady s) (hs : Driven s) (hdir : s.transport.mode.direction = some d)
    (hr : s.transport.mode ≠ .record) (hon : s.countsOn d = true) (lone : LoneWatch place (some w) s)
    (offers : ∀ v, PulseHanded d s v → ∃ f, offered (s.pulseDecoded shape d).2 d v = matchWatch place w f ⟨v, .note⟩) :
    ∃ t, exec (.controlPulseRead shape) s = .next t ∧ t.tape.counter = s.nextCount d ∧ Matched place s w t := by
  obtain ⟨v, hv⟩ : ∃ v, v = handPulse shape d s := ⟨_, rfl⟩
  have handed : PulseHanded d s v := hv ▸ pulseHanded hon
  have driven := handed.driven hs
  obtain ⟨f, match_⟩ := offers v handed
  have taken := matchWatch_taken (place := place) driven.takes w f
  have deck := taken.keeps.transport
  have given := actionGiven (driven.stands.of deck) (by rw [deck]; exact driven.motion) (by rw [deck]; exact driven.resting)
  obtain ⟨t, acts, counter, ended⟩ := exec_offeredPulse hb hy hdir hr hon hv match_ (taken.idle driven.idle) taken.keeps given.steered
  exact ⟨t, acts, counter, matched taken driven (lone.of handed.watches) handed.sameLine handed.mode ended⟩

/-- A pulse that matches nothing leaves the entry, and gives no target. -/
theorem exec_passingPulse (hb : s.power.state ≠ .backup) (hy : Steady s) (hs : Driven s) (hdir : s.transport.mode.direction = some d)
    (hr : s.transport.mode ≠ .record) (hon : s.countsOn d = true) (lone : LoneWatch place (some w) s)
    (offers : ∀ v, PulseHanded d s v → offered (s.pulseDecoded shape d).2 d v = ⟨v, .note⟩) :
    ∃ t, exec (.controlPulseRead shape) s = .next t ∧ s.entryStands place w t ∧ t.transport.target = none := by
  obtain ⟨v, hv⟩ : ∃ v, v = handPulse shape d s := ⟨_, rfl⟩
  have handed : PulseHanded d s v := hv ▸ pulseHanded hon
  have driven := handed.driven hs
  obtain ⟨t, acts, -, ended⟩ := exec_offeredPulse hb hy hdir hr hon hv (offers v handed) driven.idle (.refl _ _) (Steered.refl v)
  exact ⟨t, acts, ended.stands handed.sameLine (lone.of handed.watches), by rw [ended.transport]; exact driven.resting⟩

/-! ### A pulse written (R76, R77) -/

theorem drift_line (s : State) : (drift s).link.line = s.link.line := by
  simp only [drift]
  split
  · rfl
  · exact post_line ..

theorem countPulse_line (h : NoNavigation s) (d : Direction) : (countPulse d s).link.line = s.link.line := by
  rw [countPulse_eq h]
  split
  · rfl
  · exact drift_line _

theorem advanceWriter_line (s : State) : (advanceWriter s).link.line = s.link.line := by
  simp only [advanceWriter]
  split
  · rfl
  · split
    · rfl
    · exact post_line ..

/-- Nothing that a pulse written offers is a mark that is read (R77). -/
theorem navigate_unread (idle : NoNavigation v) (lone : LoneWatch place (some w) v)
    (kind : w.kind = .markAny ∨ ∃ m, w.kind = .markCoded m) (step : Option Direction) : navigate step none v = v := by
  cases step with
  | none => rfl
  | some d =>
    have here : LoneWatch place (some w) (⟨v, .note⟩ : Fired).state := lone
    have first : offered none d v = ⟨v, .note⟩ := by
      rw [offered_none]
      exact here.unmatched fun y hy => by cases hy; exact Watch.matched_of_mark kind _ _
    rw [navigate_offered (by rw [first]; exact idle), first]
    rfl

/-- A pulse written leaves a watch of marks, and the transport, as they were. -/
theorem exec_controlPulseWrite_unread (hb : s.power.state ≠ .backup) (hy : Steady s) (idle : NoNavigation s)
    (lone : LoneWatch place (some w) s) (record : s.transport.mode = .record)
    (kind : w.kind = .markAny ∨ ∃ m, w.kind = .markCoded m) :
    ∃ t, exec .controlPulseWrite s = .next t ∧ s.entryStands place w t ∧ t.transport = s.transport := by
  obtain ⟨p, hp⟩ : ∃ p : Pins, p = { s.pins with written := some s.writtenShape } := ⟨_, rfl⟩
  have pinned : NoNavigation (s.withPins p) := idle.of
  obtain ⟨v, hv⟩ : ∃ v, v = advanceWriter (countPulse .forward (s.withPins p)) := ⟨_, rfl⟩
  have pulse := counted pinned .forward
  have nav : v.nav = s.nav := by rw [hv, advanceWriter_nav, pulse.nav]; rfl
  have line : v.link.line = s.link.line := by rw [hv, advanceWriter_line, countPulse_line pinned]; rfl
  have kept : KeepsBut [.pins, .counter, .estimate, .marks, .sending] s v :=
    hv ▸ ((withPins_keeps p s).mono (by simp)).trans ((pulse.keeps.mono (by simp)).trans ((advanceWriter_keeps _).mono (by simp)))
  have alone : LoneWatch place (some w) v := lone.of (by rw [nav])
  have written : pulseWritten s = v := by
    have navigated : pulseWritten s = navigate (stepFrom s.tape.counter .forward v) none v := by rw [hv, hp]; rfl
    rw [navigated]
    exact navigate_unread (idle.of nav) alone kind _
  have acts : exec .controlPulseWrite s = .next (endDeckEvent s v) := by
    show Host.Outcome.next (if s.transport.mode = .record then deckEvent pulseWritten s else s) = _
    rw [if_pos record, deckEvent_running hb, written]
  have ended := endedFrom_event (b := s) (u := v) (.inl hy.sequence) (hy.notStopping.of kept.power)
  exact ⟨_, acts, ended.watches.stands (sameLine_of_keeps line kept) alone, ended.keeps.transport.trans kept.transport⟩

/-! ### R evaluated (R78) -/

/-- What the end of the event shows of a REMAIN watch that R has been held against. -/
structure Evaluated (place threshold r : Nat) (s : State) (w : Watch) (t : State) : Prop where
  above : threshold ≤ r → s.entryStands place { w with side := .above } t ∧ t.transport.target = none
  below : r < threshold → w.side ≠ .above → s.entryStands place { w with side := .below } t ∧ t.transport.target = none
  falls : r < threshold → w.side = .above → Matched place s { w with side := .below } t

variable {threshold r : Nat}

theorem remainPlace_above (at_ : v.watch place = some w) (kind : w.kind = .remain threshold) (h : threshold ≤ r) :
    remainPlace r ⟨v, .note⟩ place = ⟨v.withWatch place (some { w with side := .above }), .note⟩ := by
  have high : ¬ r < threshold := by omega
  simp only [remainPlace, at_, kind, high, if_false]

theorem remainPlace_below (at_ : v.watch place = some w) (kind : w.kind = .remain threshold) (h : r < threshold) (side : w.side ≠ .above) :
    remainPlace r ⟨v, .note⟩ place = ⟨v.withWatch place (some { w with side := .below }), .note⟩ := by
  simp only [remainPlace, at_, kind, h, side, if_true, if_false]

theorem remainPlace_falls (at_ : v.watch place = some w) (kind : w.kind = .remain threshold) (h : r < threshold) (side : w.side = .above) :
    remainPlace r ⟨v, .note⟩ place = matchWatch place { w with side := .below } (.remain r) ⟨v, .note⟩ := by
  simp only [remainPlace, at_, kind, h, side, if_true]

/-- What the evaluation makes of the one entry, before its action is given. -/
theorem remainPlace_lone (lone : LoneWatch place (some w) v) (taken : v.actionsTaken = true) (kind : w.kind = .remain threshold) (r : Nat) :
    ∃ o, LoneWatch place o (remainPlace r ⟨v, .note⟩ place).state := by
  rcases Nat.lt_or_ge r threshold with low | high
  · by_cases side : w.side = .above
    · rw [remainPlace_falls lone.here kind low side]
      exact ⟨_, (matchWatch_taken taken _ _).lone lone⟩
    · rw [remainPlace_below lone.here kind low side]
      exact ⟨_, lone.withWatch⟩
  · rw [remainPlace_above lone.here kind high]
    exact ⟨_, lone.withWatch⟩

theorem evaluateRemain_lone (lone : LoneWatch place (some w) v) (taken : v.actionsTaken = true) (kind : w.kind = .remain threshold)
    (hr : v.remaining v.transport.recordSpeed = some r) : evaluateRemain v = giveAction (remainPlace r ⟨v, .note⟩ place) := by
  obtain ⟨o, after⟩ := remainPlace_lone lone taken kind r
  have walk : watchPlaces.foldl (remainPlace r) ⟨v, .note⟩ = remainPlace r ⟨v, .note⟩ place :=
    foldl_lone (a := ⟨v, .note⟩) (fun c n none => by simp only [remainPlace, none]) lone after.others
  simp only [evaluateRemain, hr, walk]

/-- The evaluation touches the watch list, and the transport where an action is given. -/
theorem evaluateRemain_steers (driven : Driven v) (lone : LoneWatch place (some w) v) (kind : w.kind = .remain threshold)
    (hr : v.remaining v.transport.recordSpeed = some r) : KeepsBut (.nav :: stillParts) v (evaluateRemain v) := by
  have kept := remainPlace_keeps r ⟨v, .note⟩ place
  have deck := kept.transport
  have given := actionGiven (driven.stands.of deck) (by rw [deck]; exact driven.motion) (by rw [deck]; exact driven.resting)
  rw [evaluateRemain_lone lone driven.takes kind hr]
  exact (kept.mono (by simp [stillParts])).trans (given.steered.keeps.mono fun _ => List.mem_cons_of_mem _)

/-- R held against the one entry, seen from the end of the event (R78). -/
theorem evaluated (driven : Driven v) (lone : LoneWatch place (some w) v) (kind : w.kind = .remain threshold)
    (hr : v.remaining v.transport.recordSpeed = some r) (line : SameLine s v) (mode : v.transport.mode = s.transport.mode)
    (ended : WatchEnded (evaluateRemain v) t) : Evaluated place threshold r s w t := by
  rw [evaluateRemain_lone lone driven.takes kind hr] at ended
  refine ⟨fun high => ?_, fun low side => ?_, fun low side => ?_⟩
  · rw [remainPlace_above lone.here kind high] at ended
    exact ⟨ended.stands line lone.withWatch, (congrArg Transport.target ended.transport).trans driven.resting⟩
  · rw [remainPlace_below lone.here kind low side] at ended
    exact ⟨ended.stands line lone.withWatch, (congrArg Transport.target ended.transport).trans driven.resting⟩
  · rw [remainPlace_falls lone.here kind low side] at ended
    exact matched (matchWatch_taken driven.takes _ _) driven lone line mode ended

end Sys2Proof.Machine
end

section
/-! O35: the evaluations of R by a REC_SPEED change and by an estimate computation, and the watches settled (R36, R76 to R80). -/

namespace Sys2Proof.Machine

variable {s t v : State} {place threshold r : Nat} {w : Watch} {d : Direction} {shape : Shape}

/-! ### R at a change of the recording speed (R17, R78) -/

theorem recSpeed_evaluates {x : Byte} {c : Speed} (hc : Speed.ofByte x = some c) (change : c ≠ s.transport.recordSpeed)
    (known : s.tape.fraction.isSome = true) :
    serve .recSpeed [x] s = (evaluateRemain (postTape (setSpeed c s)), { status := .ok }) := by
  have request : serve .recSpeed [x] s = answer .ok (if (c != s.transport.recordSpeed) && (setSpeed c s).tape.fraction.isSome
      then evaluateRemain (postTape (setSpeed c s)) else setSpeed c s) := by
    show recSpeedRequest x s = _
    simp only [recSpeedRequest, hc]
    rfl
  rw [request, setSpeed_tape, known, bne_iff_ne.mpr change]
  rfl

theorem fraction_of_remaining {c : Speed} (h : s.remaining c = some r) : s.tape.fraction.isSome = true := by
  cases f : s.tape.fraction with
  | some f => rfl
  | none => simp [State.remaining, State.estimate, f] at h

theorem remaining_congr (h : t.estimate = s.estimate) (c : Speed) : t.remaining c = s.remaining c := by simp only [State.remaining, h]

/-- R at the new speed is held against the watch (R78; log 47). -/
theorem exec_recSpeed_evaluates (hs : PortReady s) (hy : Steady s) (driven : Driven s) (lone : LoneWatch place (some w) s)
    (kind : w.kind = .remain threshold) {x : Byte} {c : Speed} (hc : Speed.ofByte x = some c) (change : c ≠ s.transport.recordSpeed)
    (hr : s.remaining c = some r) : ∃ t, exec (.recSpeed x) s = .next t ∧ Evaluated place threshold r s w t := by
  obtain ⟨v, hv⟩ : ∃ v, v = postTape (setSpeed c s) := ⟨_, rfl⟩
  have kept : KeepsBut [.transport, .estimate, .sending] s v :=
    hv ▸ ((setSpeed_keeps c s).mono (by simp)).trans ((postTape_keeps _).mono (by simp))
  have transport : v.transport = { s.transport with recordSpeed := c } :=
    hv ▸ (postTape_keeps (setSpeed c s)).transport.trans (setSpeed_transport c s)
  have nav : v.nav = s.nav := by rw [hv]; simp [postTape, setSpeed]
  have line : v.link.line = s.link.line := by rw [hv]; simp [postTape, setSpeed, postMode]
  have drivenV : Driven v :=
    { mech := kept.mech.trans driven.mech
      idle := driven.idle.of nav
      awake := by rw [State.inStandby, kept.power]; exact driven.awake
      stands := ⟨by rw [transport]; exact driven.stands.mode, by rw [transport]; exact driven.stands.change⟩
      motion := by rw [transport]; exact driven.motion
      resting := by rw [transport]; exact driven.resting }
  have estimate : v.estimate = s.estimate := by rw [hv]; simp [State.estimate, postTape, setSpeed_tape]
  have remains : v.remaining v.transport.recordSpeed = some r := by rw [transport, remaining_congr estimate]; exact hr
  have alone : LoneWatch place (some w) v := lone.of (by rw [nav])
  have served := recSpeed_evaluates hc change (fraction_of_remaining hr)
  rw [← hv] at served
  have power := (evaluateRemain_steers drivenV alone kind remains).power.trans kept.power
  have ended := endedFrom_request (b := s) (.inl hy.sequence) (hy.notStopping.of power) .recSpeed { status := .ok }
  exact ⟨_, congrArg Host.Outcome.next (requestFrame_settled hs rfl rfl served),
    evaluated drivenV alone kind remains (sameLine_of_keeps line kept) (by rw [transport]) ended.watches⟩

/-! ### R at an estimate computation (R36, R78) -/

variable {reel : Reel} {i : Nat}

/-- A pulse that makes an estimate computation refreshes the period of its reel (R30, R36). -/
theorem EstimateDue.refreshes (h : EstimateDue s reel i) : reelPulsed reel i s = refreshed (s.pulseTaken reel i) := by
  have time : s.pulseTime reel i = s.intervalEnd reel i := pulseTime_opened h.opened i
  have now : (leapTo (s.intervalEnd reel i) s).now = s.intervalEnd reel i := leapTo_now_of_le h.ahead
  have period : ((s.reel reel).append i).sum = (s.reel reel).freshPeriod i := ReelMeter.sum_append ..
  obtain ⟨low, high⟩ : 40 ≤ ((s.reel reel).append i).sum ∧ ((s.reel reel).append i).sum ≤ 60000 := by rw [period]; exact h.valid
  have heard : (s.reel reel).noise i = false := by
    rw [← Bool.not_eq_true, ReelMeter.noise_iff h.opened h.four]
    omega
  have accepted : (s.reel reel).accept i (s.intervalEnd reel i) = (s.reel reel).refreshedBy i (s.intervalEnd reel i) := by
    have after := ReelMeter.after_four h.opened h.four low (s.intervalEnd reel i)
    rwa [ReelMeter.after, heard, if_neg Bool.false_ne_true, if_pos high, period] at after
  have refreshes : (s.reel reel).refreshes i = true := by
    rw [ReelMeter.refreshes, h.opened, ReelMeter.periodOf_four h.four]
    rfl
  simp only [reelPulsed, acceptPulse, time, leapTo_reel, now, heard, accepted, refreshes, Bool.false_eq_true, if_false, if_true]
  rfl

theorem drift_nav (h : NoNavigation s) : (drift s).nav = s.nav := by
  rw [drift_eq h]
  split
  · rfl
  · simp [postTape]

/-- A reel pulse of a machine with nothing to navigate leaves the navigation records and the line. -/
theorem pulseTaken_sent (h : NoNavigation s) (reel : Reel) (i : Nat) :
    (s.pulseTaken reel i).nav = s.nav ∧ (s.pulseTaken reel i).link.line = s.link.line := by
  obtain ⟨q, hq⟩ : ∃ q, q = pulseSeen reel ((leapTo (s.intervalEnd reel i) s).withReel reel
    ((s.reel reel).refreshedBy i (s.intervalEnd reel i))) := ⟨_, rfl⟩
  have nav : q.nav = s.nav := by
    rw [← leapTo_nav h (s.intervalEnd reel i), hq]
    cases reel <;> rfl
  have line : q.link.line = s.link.line := by
    rw [hq]
    cases reel <;> rfl
  have taken : s.pulseTaken reel i = driftByReel q := by rw [hq]; rfl
  rw [taken, ← nav, ← line]
  unfold driftByReel
  split
  · exact ⟨rfl, rfl⟩
  · split
    · exact ⟨drift_nav (h.of nav), drift_line q⟩
    · exact ⟨rfl, rfl⟩

theorem estimateComputation_sent (s : State) :
    (estimateComputation s).nav = s.nav ∧ (estimateComputation s).link.line = s.link.line := by
  simp only [estimateComputation]
  split
  · exact ⟨rfl, rfl⟩
  · split
    · exact ⟨by simp [postTape], by simp [postTape]⟩
    · exact ⟨rfl, rfl⟩

/-- The state in which R is evaluated at an estimate computation. -/
structure EstimateMade (s e : State) : Prop where
  keeps     : KeepsBut [.time, .transport, .counter, .reels, .estimate, .nav, .sending] s e
  transport : ∃ p q, e.transport = { s.transport with lastReelPulse := p, lastTakeUpPulse := q }
  nav       : e.nav = s.nav
  line      : e.link.line = s.link.line
  known     : ∃ r, e.remaining s.transport.recordSpeed = some r

theorem estimateMade (h : EstimateDue s reel i) (idle : NoNavigation s) :
    EstimateMade s (estimateComputation (s.pulseTaken reel i)) ∧
      refreshed (s.pulseTaken reel i) = evaluateFit (evaluateRemain (estimateComputation (s.pulseTaken reel i))) := by
  obtain ⟨v, hv⟩ : ∃ v, v = s.pulseTaken reel i := ⟨_, rfl⟩
  have kept : KeepsBut [.time, .transport, .counter, .reels, .estimate, .nav, .sending] s v := hv ▸ pulseTaken_keeps s reel i
  have stands : EstimateStands s v := hv ▸ pulseTaken_estimate s reel i
  obtain ⟨p, q, transport⟩ : ∃ p q, v.transport = { s.transport with lastReelPulse := p, lastTakeUpPulse := q } :=
    hv ▸ pulseTaken_transport s reel i
  obtain ⟨now, reels, others⟩ := pulseTaken_reels s reel i
  rw [← hv] at now reels others
  obtain ⟨nav, line⟩ := pulseTaken_sent idle reel i
  rw [← hv] at nav line
  obtain ⟨c, known⟩ := Option.ne_none_iff_exists'.mp h.known
  have cls : v.tape.cls = some c := stands.cls.trans known
  have valid : v.bothValid = true :=
    bothValid_of (r := reel) (by rw [reels]; rfl) fun o apart => by rw [others o apart]; exact h.other o apart
  have time : v.now = s.intervalEnd reel i := now.trans (max_eq_right h.ahead)
  have due : v.estimateDue = true := by
    have passed : secondPassed v.tape.lastEstimate v.now = true := by rw [stands.lastEstimate, time]; exact h.second
    simp [State.estimateDue, State.estimating, cls, valid, passed, transport, h.motion]
  have computed : refreshed v = evaluateFit (evaluateRemain (estimateComputation v)) := by
    simp only [refreshed, refreshIdentification_of_not (not_identifying_of_known cls), due, if_true]
  have estimate := estimateComputation_keeps v
  obtain ⟨sentNav, sentLine⟩ := estimateComputation_sent v
  obtain ⟨n, m, tape⟩ := estimateComputation_tape cls
  rw [← hv]
  refine ⟨⟨kept.trans (estimate.mono (by simp)), ⟨p, q, estimate.transport.trans transport⟩, sentNav.trans nav, sentLine.trans line, ?_⟩,
    computed⟩
  simp only [State.remaining, State.estimate, tape, cls]
  exact ⟨_, rfl⟩

/-- R at an estimate computation is held against the watch, and R at the event's end is the same (R78). -/
theorem exec_reelPulse_evaluates (hb : s.power.state ≠ .backup) (hy : Steady s) (driven : Driven s) (hp : NoPrograms s)
    (lone : LoneWatch place (some w) s) (kind : w.kind = .remain threshold) (h : EstimateDue s reel i) :
    ∃ t, exec (.reelPulse reel i) s = .next t ∧
      ∃ r, t.remaining s.transport.recordSpeed = some r ∧ Evaluated place threshold r s w t := by
  obtain ⟨made, refreshed_⟩ := estimateMade h driven.idle
  obtain ⟨e, he⟩ : ∃ e, e = estimateComputation (s.pulseTaken reel i) := ⟨_, rfl⟩
  rw [← he] at made refreshed_
  obtain ⟨p, q, transport⟩ := made.transport
  obtain ⟨r, remains⟩ := made.known
  have drivenE : Driven e :=
    { mech := made.keeps.mech.trans driven.mech
      idle := driven.idle.of made.nav
      awake := by rw [State.inStandby, made.keeps.power]; exact driven.awake
      stands := ⟨by rw [transport]; exact driven.stands.mode, by rw [transport]; exact driven.stands.change⟩
      motion := by rw [transport]; exact driven.motion
      resting := by rw [transport]; exact driven.resting }
  have alone : LoneWatch place (some w) e := lone.of (by rw [made.nav])
  have held : e.remaining e.transport.recordSpeed = some r := by rw [transport]; exact remains
  have steers := evaluateRemain_steers drivenE alone kind held
  have pulsed : reelPulsed reel i s = evaluateRemain e := by
    rw [h.refreshes, refreshed_, evaluateFit_idle (hp.of (steers.sched.trans made.keeps.sched))]
  have acts := exec_reelPulse hb h.cassette reel i
  rw [pulsed] at acts
  have ended := endedFrom_event (b := s) (u := evaluateRemain e) (.inl hy.sequence)
    (hy.notStopping.of (steers.power.trans made.keeps.power))
  have estimate : (evaluateRemain e).estimate = e.estimate := by
    obtain ⟨cls, -, -, -, -, fraction, -⟩ := steers.same .estimate (by decide)
    simp only [State.estimate, cls, fraction]
  exact ⟨_, acts, r, by rw [remaining_congr (ended.estimate.trans estimate)]; exact remains,
    evaluated drivenE alone kind held (sameLine_of_keeps made.line made.keeps) (by rw [transport]) ended.watches⟩

/-! ### The watches settled -/

/-- A counter watch of a direction that its filter permits matches the step onto its value (R76). -/
theorem Watch.matched_step {c : Int} (h : w.kind = .counter c .both ∨ w.kind = .counter c (if d = .forward then .forward else .reverse)) :
    ∃ p, w.kind = .counter c p ∧ w.matched (.counter c d) = true := by
  rcases h with h | h
  · exact ⟨_, h, by simp [Watch.matched, h, DirectionFilter.permits]⟩
  · refine ⟨_, h, ?_⟩
    cases d <;> simp [Watch.matched, h, DirectionFilter.permits]

/-- A pulse that completes a mark is matched by a watch of marks as the mark is admitted (R77). -/
theorem exec_markPulse (hb : s.power.state ≠ .backup) (hy : Steady s) (hs : Driven s) (hdir : s.transport.mode.direction = some d)
    (hr : s.transport.mode ≠ .record) (hon : s.countsOn d = true) (lone : LoneWatch place (some w) s) {r : MarkRecord}
    (decoded : (s.pulseDecoded shape d).2 = some r) (kind : w.kind = .markAny ∨ ∃ m, w.kind = .markCoded m) :
    ∃ t, exec (.controlPulseRead shape) s = .next t ∧ (w.matched (.mark r) = true → Matched place s w t) ∧
      (w.matched (.mark r) = false → s.entryStands place w t ∧ t.transport.target = none) := by
  have offers : ∀ v, PulseHanded d s v → offered (s.pulseDecoded shape d).2 d v =
      if w.matched (.mark r) then matchWatch place w (.mark r) ⟨v, .note⟩ else ⟨v, .note⟩ := fun v h => by
    rw [decoded]
    exact offered_mark (lone.of h.watches) (h.driven hs).takes kind r
  cases on : w.matched (.mark r) with
  | true =>
    obtain ⟨t, acts, -, fired⟩ := exec_matchingPulse hb hy hs hdir hr hon lone fun v h =>
      ⟨_, (offers v h).trans (if_pos on)⟩
    exact ⟨t, acts, fun _ => fired, nofun⟩
  | false =>
    obtain ⟨t, acts, stands⟩ := exec_passingPulse hb hy hs hdir hr hon lone fun v h =>
      (offers v h).trans (if_neg (by rw [on]; decide))
    exact ⟨t, acts, nofun, fun _ => stands⟩

theorem Mode.of_direction {m : Mode} (h : m.direction = some d) : m.threaded = true ∧ m ≠ .still := by
  refine ⟨?_, fun still => ?_⟩
  · cases m <;> first | rfl | cases h
  · rw [still] at h
    cases h

/-- Settles O35: an event comes to the one entry, its action is given at the event's end, and what a note reports is left out. -/
theorem counterWatchFires : Obligations.CounterWatchFires := by
  intro s hb _ hy idle mech hc ht full d hdir place lo hi w here others next entry stands matched evaluated
  obtain ⟨threaded, motion⟩ := Mode.of_direction hdir
  have driven : Driven s := ⟨mech, idle, hy.not_inStandby, ⟨threaded, hc⟩, motion, ht⟩
  have lone : LoneWatch place (some w) s := by
    refine ⟨lo, hi, full, (watch_at lo s).trans here, fun n hn => ?_⟩
    by_cases zero : n = 0
    · rw [zero]
      rfl
    rw [watch_at (by omega)]
    by_cases within : n - 1 < 8
    · exact others (n - 1) within (by omega)
    · rw [List.getElem?_eq_none (by omega)]
      rfl
  have ahead : s.nextCount d = next := by cases d <;> rfl
  have on : next.natAbs ≤ 36000 * s.settings.frameRate - 1 → s.countsOn d = true := fun bound => countsOn_of_bound (by rw [ahead]; exact bound)
  have fired : ∀ {x t}, Matched place s x t → matched x t := fun h => ⟨h.counts, fun one =>
    have ⟨once, again, done⟩ := h.fires one
    ⟨once, again, done.note, done.stop, done.still, done.play⟩⟩
  have weighed : ∀ {threshold r t}, Evaluated place threshold r s w t → evaluated threshold r t := fun h =>
    ⟨h.above, h.below, fun low side => fired (h.falls low side)⟩
  refine ⟨fun hr bound kind => ?_, fun hr shape bound r decoded => ?_, fun record kind => ?_, fun threshold kind => ⟨?_, ?_⟩⟩
  · obtain ⟨p, kind, step⟩ := Watch.matched_step kind
    obtain ⟨t, acts, counter, match_⟩ := exec_matchingPulse (shape := .narrow) hb hy driven hdir hr (on bound) lone fun v h => by
      have stood : v.tape.counter = next := h.counter.trans ahead
      exact ⟨_, offered_counter (lone.of h.watches) (h.driven driven).takes kind (by rw [stood]; exact step) _⟩
    exact ⟨t, acts, counter.trans ahead, fired match_⟩
  · have read : (s.pulseDecoded shape d).2 = some r := by rw [State.pulseDecoded, ahead]; exact decoded
    refine ⟨fun kind => ?_, fun f kind => ?_⟩
    · obtain ⟨t, acts, admitted, passed⟩ := exec_markPulse hb hy driven hdir hr (on bound) lone read (.inl kind)
      have reads : w.matched (.mark r) = true ↔ r.kind ≠ .damaged := by simp only [Watch.matched, kind, bne_iff_ne]
      exact ⟨t, acts, fun yes => fired (admitted (reads.mpr yes)), fun no => passed (Bool.eq_false_iff.mpr (no ∘ reads.mp))⟩
    · obtain ⟨t, acts, admitted, passed⟩ := exec_markPulse hb hy driven hdir hr (on bound) lone read (.inr ⟨f, kind⟩)
      have reads : w.matched (.mark r) = f.admits r := by simp only [Watch.matched, kind]
      exact ⟨t, acts, fun yes => fired (admitted (reads.trans yes)), fun no => passed (reads.trans (Bool.eq_false_iff.mpr no))⟩
  · exact exec_controlPulseWrite_unread hb hy idle lone record kind
  · intro port x c hx change r hr
    obtain ⟨t, acts, held⟩ := exec_recSpeed_evaluates port hy driven lone kind hx change hr
    exact ⟨t, acts, weighed held⟩
  · intro programs reel i due
    obtain ⟨t, acts, r, remains, held⟩ := exec_reelPulse_evaluates hb hy driven programs lone kind due
    exact ⟨t, acts, r, remains, weighed held⟩

end Sys2Proof.Machine
end

section
/-! What the statements of the tuner and of the scan share: the notes that a unit has told, the tuning that has begun (R95 to R97), the parts
that the operations of the two units may change, and the ends of their events and requests. -/

namespace Sys2Proof.Machine

variable {s t u v : State}

/-! ### Notes told (R202, R203) -/

section
variable {k : NoteKey} {c : List Byte}

theorem Announced.of (h : Announced k c s) (outbox : t.link.outbox = s.link.outbox) (line : t.link.line = s.link.line) : Announced k c t := by
  rw [Announced, outbox, line]
  exact h

/-- A note told stays told when another is posted. -/
theorem Announced.post (h : Announced k c s) {j : NoteKey} (hj : j ≠ k) (d : List Byte) : Announced k c (post j d s) := by
  unfold Machine.post
  split
  · exact h
  · exact h.imp (postInto_mem hj) id

theorem Announced.chooseFrame (h : Announced k c s) (hk : k ≠ .tape) : Announced k c (chooseFrame s) := by
  rcases h with waits | ⟨f, line, told⟩
  · exact announced_chooseFrame hk waits
  · have busy : Machine.chooseFrame s = s := if_pos (.inr (by simp [line]))
    rw [busy]
    exact .inr ⟨f, line, told⟩

theorem Announced.answered (h : Announced k c s) (hk : k ≠ .tape) (q : RequestKind) (r : Reply) : Announced k c (answered q r s) :=
  (h.of (t := putReply (replyFrame q r) s) rfl rfl).chooseFrame hk

end

/-- The TUNE note with the present working tuning is told. -/
def TuneTold (s : State) : Prop := Announced .tune s.tuningBytes s

/-- The SCAN note with the present scan record is told. -/
def ScanTold (s : State) : Prop := Announced .scan s.scanBytes s

theorem tuningBytes_congr (tuner : t.tuner = s.tuner) (scan : t.scan = s.scan) (claim : t.tunerOf = s.tunerOf) :
    t.tuningBytes = s.tuningBytes := by
  simp only [State.tuningBytes, State.tunedFrequency, tuner, scan, claim]

theorem scanBytes_congr (scan : t.scan = s.scan) : t.scanBytes = s.scanBytes := by simp only [State.scanBytes, scan]

theorem postTune_told (hb : s.power.state ≠ .backup) : TuneTold (postTune s) := by
  rw [TuneTold, tuningBytes_congr (s := s) (by simp) (by simp) (by simp)]
  exact .inl (post_noted hb ..)

theorem postScan_told (hb : s.power.state ≠ .backup) : ScanTold (postScan s) := by
  rw [ScanTold, scanBytes_congr (s := s) (by simp)]
  exact .inl (post_noted hb ..)

theorem TuneTold.chooseFrame (h : TuneTold s) : TuneTold (chooseFrame s) := by
  rw [TuneTold, tuningBytes_congr (s := s) (by simp) (by simp) (by simp)]
  exact Announced.chooseFrame h (by decide)

theorem TuneTold.answered (h : TuneTold s) (k : RequestKind) (r : Reply) : TuneTold (answered k r s) :=
  TuneTold.chooseFrame (s := putReply (replyFrame k r) s) (Announced.of h rfl rfl)

theorem ScanTold.chooseFrame (h : ScanTold s) : ScanTold (chooseFrame s) := by
  rw [ScanTold, scanBytes_congr (s := s) (by simp)]
  exact Announced.chooseFrame h (by decide)

theorem ScanTold.answered (h : ScanTold s) (k : RequestKind) (r : Reply) : ScanTold (answered k r s) :=
  ScanTold.chooseFrame (s := putReply (replyFrame k r) s) (Announced.of h rfl rfl)

/-- The scan's note is told past a TUNE note. -/
theorem ScanTold.postTune (h : ScanTold s) : ScanTold (postTune s) := by
  rw [ScanTold, scanBytes_congr (s := s) (by simp)]
  exact Announced.post h (by decide) _

theorem ScanTold.setTunerClaim (h : ScanTold s) (x : TunerClaim) : ScanTold (setTunerClaim x s) := by
  unfold Machine.setTunerClaim
  split
  · exact h
  · exact ScanTold.postTune (s := { s with tunerOf := x }) (Announced.of h rfl rfl)

theorem ScanTold.beginTuning (h : ScanTold s) (sel : Selection) : ScanTold (beginTuning sel s) :=
  ScanTold.postTune (s := { s with tuner := _ }) (Announced.of h rfl rfl)

theorem setTunerClaim_told (hb : s.power.state ≠ .backup) {x : TunerClaim} (h : s.tunerOf ≠ x) : TuneTold (setTunerClaim x s) := by
  rw [setTunerClaim, if_neg h]
  exact postTune_told (s := { s with tunerOf := x }) hb

/-! ### The parts that change -/

theorem withScan_keeps (x : Scan) (s : State) : KeepsBut [.scan] s { s with scan := x } := by
  refine ⟨fun q hq => ?_⟩
  cases q <;> simp_all [SamePart]

theorem withPreset_keeps (n : Nat) (p : Option Preset) (s : State) : KeepsBut [.tuner] s (s.withPreset n p) := withTuner_keeps ..

/-- The tuner's record is written and its note posted. -/
theorem postTuner_keeps (x : Tuner) (s : State) : KeepsBut [.tuner, .sending] s (postTune { s with tuner := x }) :=
  ((withTuner_keeps x s).mono (by simp)).trans ((postTune_keeps _).mono (by simp))

theorem beginTuning_keeps (sel : Selection) (s : State) : KeepsBut [.tuner, .sending] s (beginTuning sel s) := postTuner_keeps ..

theorem endScan_keeps (e : ScanEnding) (by_ : Option ScanStopper) (s : State) : KeepsBut [.scan, .sending] s (endScan e by_ s) :=
  ((withScan_keeps _ s).mono (by simp)).trans ((postScan_keeps _).mono (by simp))

theorem endScanToDirect_keeps (e : ScanEnding) (by_ : Option ScanStopper) (s : State) :
    KeepsBut [.tuner, .scan, .tunerOf, .sending] s (endScanToDirect e by_ s) :=
  ((endScan_keeps e by_ s).mono (by simp)).trans
    (((setTunerClaim_keeps .direct _).mono (by simp)).trans ((retune_keeps _).mono (by simp)))

theorem loadScan_keeps (f : Nat) (s : State) : KeepsBut [.tuner, .scan] s (loadScan f s) :=
  ((withScan_keeps { s.scan with current := some f, dwellStart := s.now } s).mono (by simp)).trans ((withTuner_keeps _ _).mono (by simp))

theorem stepScan_keeps (f : Nat) (s : State) : KeepsBut [.tuner, .scan] s (stepScan f s) :=
  ((withScan_keeps _ s).mono (by simp)).trans (loadScan_keeps ..)

/-! ### A tuning begun (R95 to R97) -/

theorem TuningBegun.of {sel : Selection} (h : TuningBegun sel s t) (tuner : u.tuner = t.tuner) (now : u.now = t.now) (told : TuneTold u) :
    TuningBegun sel s u := by
  have entry : ∀ n, u.preset n = t.preset n := fun n => by simp only [State.preset, tuner]
  constructor
  case note => exact told
  all_goals simp only [tuner, now, entry]
  exacts [h.selection, h.state, h.start, h.unsettled, h.correction, h.limit, h.copy, h.kept, h.line, h.preset, h.direct]

/-- What a tuning keeps and where the line input leaves the synthesiser is read from the state before, whatever its table holds. -/
theorem TuningBegun.since {sel : Selection} (h : TuningBegun sel v t) (same : v.tuner = { s.tuner with presets := v.tuner.presets }) :
    TuningBegun sel s t := by
  have kept := h.kept
  have line := h.line
  rw [same] at kept line
  exact { h with kept := kept, line := line }

theorem TuningBegun.chooseFrame {sel : Selection} (h : TuningBegun sel s t) : TuningBegun sel s (chooseFrame t) :=
  h.of (by simp) (by simp) (TuneTold.chooseFrame h.note)

theorem TuningBegun.answered {sel : Selection} (h : TuningBegun sel s t) (k : RequestKind) (r : Reply) :
    TuningBegun sel s (answered k r t) :=
  TuningBegun.chooseFrame (t := putReply (replyFrame k r) t) (h.of rfl rfl (Announced.of h.note rfl rfl))

theorem saturateFrequency_within {v : Int} (lo : 900 ≤ v) (hi : v ≤ 17200) : saturateFrequency v = v.toNat := by
  have low : ¬ v < Config.lowestFrequency := Int.not_lt.mpr lo
  have high : ¬ Config.highestFrequency < v := Int.not_lt.mpr hi
  rw [saturateFrequency, clampTo, if_neg low, if_neg high]

@[simp] theorem beginTuning_presets (sel : Selection) (s : State) : (beginTuning sel s).tuner.presets = s.tuner.presets := by
  simp [beginTuning]

theorem beginTuning_preset (sel : Selection) (s : State) (n : Nat) : (beginTuning sel s).preset n = s.preset n := by simp [State.preset]

/-- A tuning takes the base frequency and the AFT from the entry that its selection names (R95), and nothing from the line input (R97). -/
theorem beginTuning_begun (hb : s.power.state ≠ .backup) (sel : Selection) : TuningBegun sel s (beginTuning sel s) := by
  have told : TuneTold (beginTuning sel s) := postTune_told (s := { s with tuner := _ }) hb
  constructor
  case note => exact told
  case line =>
    rintro rfl
    simp [beginTuning, State.entryOf, State.preset]
  case preset =>
    rintro n rfl p entry lo hi
    rw [beginTuning_preset] at entry
    simp [beginTuning, State.entryOf, entry, saturateFrequency_within lo hi]
  case direct =>
    rintro f rfl
    simp [beginTuning, State.entryOf]
  all_goals simp [beginTuning]

/-! ### The end of an event (R33, R38, R192) -/

/-- What an event of the tuner or of the scan may change. -/
def tunerParts : List Part := [.time, .pins, .nav, .tuner, .scan, .tunerOf, .sending]

/-- Nothing of the tuner and of the scan is watched for at the end of an event. -/
theorem Undue.kept (h : Undue s) (k : KeepsBut tunerParts s t) : Undue t := by
  obtain ⟨supply, takeUp⟩ := k.same .reels (by decide)
  obtain ⟨cls, -, candidate, idCount, lastIdent, fraction, held, -⟩ := k.same .estimate (by decide)
  have transport := k.transport (by decide)
  exact h.of (by rw [transport]) (by rw [transport]) (by rw [transport]) (by rw [transport]) (k.mech (by decide)) (k.power (by decide))
    supply takeUp cls fraction held idCount candidate lastIdent

theorem deckEvent_tuner {act : State → State} (hb : s.power.state ≠ .backup) (hd : Undue s) (k : KeepsBut tunerParts s (act s)) :
    deckEvent act s = chooseFrame (act s) := by
  rw [deckEvent_running hb, (hd.kept k).endDeckEvent (sequence_same (by rw [k.transport (by decide)]))]

/-- A timer of the tuner or of the scan is taken at its limit, and the end of the event adds nothing. -/
theorem timerEvent_tuner {act : State → State} (hb : s.power.state ≠ .backup) (hd : Undue s) (limit : Nat)
    (k : KeepsBut tunerParts (leapTo limit s) (act (leapTo limit s))) :
    timerEvent (some limit) act s = chooseFrame (act (leapTo limit s)) :=
  deckEvent_tuner (act := fun v => act (leapTo limit v)) hb hd (((leapTo_keeps limit s).mono (by simp [tunerParts])).trans k)

theorem sent_keeps {l : List Part} (k : KeepsBut l s t) (h : .sending ∈ l) : KeepsBut l s (chooseFrame t) :=
  k.trans ((chooseFrame_keeps t).mono (by simpa using h))

theorem answered_sent_keeps {l : List Part} (k : KeepsBut l s t) (h : .sending ∈ l) (q : RequestKind) (r : Reply) :
    KeepsBut l s (answered q r t) :=
  k.trans ((answered_keeps q r t).mono (by simpa using h))

/-! ### Checks in their order (R94, R112) -/

/-- A request is refused by the first of its checks that fails, and taken when none does. -/
def checked (checks : List (Bool × Status)) (s : State) (taken : State × Reply) : State × Reply :=
  (firstFailing checks).elim taken fun st => answer st s

section
variable {checks : List (Bool × Status)} {taken : State × Reply}

theorem checked_nil : checked [] s taken = taken := rfl

theorem checked_cons (bad : Bool) (st : Status) : checked ((bad, st) :: checks) s taken = if bad then answer st s else checked checks s taken := by
  cases bad <;> rfl

theorem checked_refused {st : Status} (h : firstFailing checks = some st) : checked checks s taken = answer st s := by rw [checked, h]; rfl

theorem checked_taken (h : firstFailing checks = none) : checked checks s taken = taken := by rw [checked, h]; rfl

end

/-- A request that settles nothing is answered from what its owner makes of it. -/
theorem exec_served {k : RequestKind} {p : List Byte} {c : Instr} {u : State} {r : Reply} (hs : PortReady s)
    (frame : exec c s = .next (requestFrame k p s)) (settles : k.settles = false) (length : k.admitsLength p.length = true)
    (h : serve k p s = (u, r)) : exec c s = .next (answered k r u) := by
  rw [frame, requestFrame_served hs settles length, h]

/-! ### What an answer leaves -/

section
variable (k : RequestKind) (r : Reply) (s : State)

@[simp] theorem answered_tuner : (answered k r s).tuner = s.tuner := (answered_keeps ..).tuner
@[simp] theorem answered_scan : (answered k r s).scan = s.scan := (answered_keeps ..).scan
@[simp] theorem answered_tunerOf : (answered k r s).tunerOf = s.tunerOf := (answered_keeps ..).tunerOf

end

end Sys2Proof.Machine
end

section
/-! O39: TUNE in its four forms, and the preset that a step resolves to (R94, R98, R104, R117). -/

namespace Sys2Proof.Machine

variable {s t u v : State}

/-! ### The request (R94) -/

theorem word16_bytes (v : Word16) : word16 (byteOf (v.toNat / 256 ^ 1)) (byteOf (v.toNat / 256 ^ 0)) = v := by
  apply BitVec.eq_of_toNat_eq
  simp only [word16, byteOf, BitVec.toNat_append, BitVec.toNat_ofNat]
  have hv := v.isLt
  rw [← Nat.shiftLeft_add_eq_or_of_lt (by omega), Nat.shiftLeft_eq]
  omega

/-- The checks of R94, with whether a request names something out of range, and whether it resolves to nothing. -/
def tuneChecks (range noSuch : Bool) (s : State) : List (Bool × Status) :=
  [(range, .range), (s.inStandby, .notReady), (s.tunerOf.isTimer, .busyTimer), (noSuch, .noSuch)]

/-- A request names a form, or something out of range, and the form resolves to a selection, or to nothing. -/
structure Names (form preset : Byte) (frequency : Word16) (s : State) (sel : Selection) (range noSuch : Bool) : Prop where
  named    : (tuneForm form preset frequency).isNone = range
  resolves : ∀ g, tuneForm form preset frequency = some g → s.resolve g = if noSuch then none else some sel

/-- What a TUNE of a selection does when it is not refused: the tuning at hand is kept, or a new one begun. -/
def tuneTaken (sel : Selection) (s : State) : State × Reply :=
  if sel = s.tuner.selection ∧ s.tuner.state ≠ .idle ∧ s.tunerOf ≠ .scan then answer .ok (setTunerClaim .direct s)
  else answer .accepted (beginTuning sel (setTunerClaim .direct (cutScan .replaced none s)))

theorem Names.request {form preset : Byte} {frequency : Word16} {sel : Selection} {range noSuch : Bool}
    (h : Names form preset frequency s sel range noSuch) :
    tuneRequest form preset frequency s = checked (tuneChecks range noSuch s) s (tuneTaken sel s) := by
  obtain ⟨named, resolves⟩ := h
  simp only [tuneChecks, checked_cons, checked_nil, tuneRequest, ← named]
  cases parsed : tuneForm form preset frequency with
  | none => rfl
  | some g =>
    simp only [resolves g parsed]
    cases noSuch <;> rfl

/-! ### What is tuned -/

theorem names_preset (b : Byte) (s : State) :
    Names 1 b (word16 0 0) s (.preset b.toNat) (decide (99 < b.toNat)) (b != 0 && s.preset b.toNat == none) := by
  have form : tuneForm 1 b (word16 0 0) = if b.toNat ≤ 99 then some (.preset b.toNat) else none := rfl
  by_cases inside : b.toNat ≤ 99
  · rw [if_pos inside] at form
    refine ⟨by rw [form, decide_eq_false (by omega)]; rfl, fun g named => ?_⟩
    obtain rfl := Option.some.inj (form.symm.trans named)
    have zero : b.toNat = 0 ↔ b = 0 := by bv_omega
    simp only [State.resolve, zero]
    by_cases line : b = 0
    · simp [line]
    · cases s.preset b.toNat with
      | none => simp
      | some p => simp
  · rw [if_neg inside] at form
    exact ⟨by rw [form, decide_eq_true (by omega)]; rfl, fun g named => by rw [form] at named; cases named⟩

theorem names_direct (f : Word16) (s : State) :
    Names 4 0 f s (.direct f.toNat) (decide (f.toNat < 900) || decide (17200 < f.toNat)) false := by
  have form : tuneForm 4 0 f = if 900 ≤ f.toNat ∧ f.toNat ≤ 17200 then some (.direct f.toNat) else none := rfl
  by_cases inside : 900 ≤ f.toNat ∧ f.toNat ≤ 17200
  · rw [if_pos inside] at form
    refine ⟨by rw [form, decide_eq_false (by omega), decide_eq_false (by omega)]; rfl, fun g named => ?_⟩
    obtain rfl := Option.some.inj (form.symm.trans named)
    rfl
  · rw [if_neg inside] at form
    refine ⟨?_, fun g named => by rw [form] at named; cases named⟩
    rw [form, ← Bool.decide_or, decide_eq_true (by omega)]
    rfl

theorem names_up {found : Option Nat} (h : s.stepUp = found) :
    Names 2 0 (word16 0 0) s (.preset (found.getD 0)) false found.isNone := by
  refine ⟨rfl, fun g named => ?_⟩
  obtain rfl : TuneForm.up = g := Option.some.inj named
  rw [State.resolve, h]
  cases found <;> rfl

theorem names_down {found : Option Nat} (h : s.stepDown = found) :
    Names 3 0 (word16 0 0) s (.preset (found.getD 0)) false found.isNone := by
  refine ⟨rfl, fun g named => ?_⟩
  obtain rfl : TuneForm.down = g := Option.some.inj named
  rw [State.resolve, h]
  cases found <;> rfl

/-! ### The walk of a step (R98) -/

theorem preset_at {n : Nat} (h : n ≠ 0) (s : State) : s.preset n = (s.tuner.presets[n - 1]?).join := if_neg h

theorem eligible_within {n : Nat} (full : s.tuner.presets.length = 99) (h : s.eligible n = true) : 1 ≤ n ∧ n ≤ 99 := by
  have used : s.preset n ≠ none := fun empty => by simp [State.eligible, empty] at h
  have first : n ≠ 0 := fun zero => used (if_pos zero)
  refine ⟨Nat.one_le_iff_ne_zero.mpr first, ?_⟩
  by_contra past
  rw [preset_at first, List.getElem?_eq_none (by omega)] at used
  exact used rfl

/-- A walk of ninety-nine places stops at the first that is eligible. -/
theorem walk_finds {place : Nat → Nat} {p : Nat → Bool} {k : Nat} (within : k < 99) (here : p (place k) = true)
    (before : ∀ j, j < k → p (place j) = false) : ((List.range 99).map place).find? p = some (place k) := by
  have found : (List.range 99).find? (p ∘ place) = some k :=
    List.find?_range_eq_some.mpr ⟨here, List.mem_range.mpr within, fun j hj => by simp [before j hj]⟩
  rw [List.find?_map, found]
  rfl

theorem walk_misses {place : Nat → Nat} {p : Nat → Bool} (none_ : ∀ k, k < 99 → p (place k) = false) :
    ((List.range 99).map place).find? p = none := by
  simpa using none_

/-- Where the walk of STEP_UP sets out: the preset selected, and from 0 otherwise. -/
def Selection.below : Selection → Nat
  | .preset n => n
  | .direct _ => 0

/-- Where the walk of STEP_DOWN sets out: the preset selected, and from 100 otherwise. -/
def Selection.above (sel : Selection) : Nat := if sel.below = 0 then 100 else sel.below

theorem stepUp_eq (s : State) :
    s.stepUp = ((List.range 99).map fun k => (s.tuner.selection.below + k) % 99 + 1).find? s.eligible := by
  rw [State.stepUp]
  cases s.tuner.selection <;> rfl

theorem stepDown_eq (s : State) :
    s.stepDown = ((List.range 99).map fun k => (s.tuner.selection.above + 196 - k) % 99 + 1).find? s.eligible := by
  rw [State.stepDown]
  cases s.tuner.selection <;> rfl

theorem stepUp_first {n : Nat} (full : s.tuner.presets.length = 99) (start : s.tuner.selection.below ≤ 99) (eligible : s.eligible n = true)
    (first : ∀ k, k ≤ 99 → s.eligible k = true → (n + 98 - s.tuner.selection.below) % 99 ≤ (k + 98 - s.tuner.selection.below) % 99) :
    s.stepUp = some n := by
  rw [stepUp_eq]
  generalize s.tuner.selection.below = a at start first ⊢
  obtain ⟨lo, hi⟩ := eligible_within full eligible
  have here : (a + (n + 98 - a) % 99) % 99 + 1 = n := by omega
  have found := walk_finds (place := fun k => (a + k) % 99 + 1) (p := s.eligible) (k := (n + 98 - a) % 99) (Nat.mod_lt _ (by decide))
    (by rw [here]; exact eligible) fun j earlier => by
      by_contra other
      have := first _ (by omega) (Bool.not_eq_false _ ▸ other)
      omega
  rw [found, here]

theorem stepDown_first {n : Nat} (full : s.tuner.presets.length = 99) (start : s.tuner.selection.below ≤ 99)
    (eligible : s.eligible n = true)
    (first : ∀ k, k ≤ 99 → s.eligible k = true → (s.tuner.selection.above + 98 - n) % 99 ≤ (s.tuner.selection.above + 98 - k) % 99) :
    s.stepDown = some n := by
  have from_ : 1 ≤ s.tuner.selection.above ∧ s.tuner.selection.above ≤ 100 := by
    unfold Selection.above
    split <;> omega
  rw [stepDown_eq]
  generalize s.tuner.selection.above = a at from_ first ⊢
  obtain ⟨lo, hi⟩ := eligible_within full eligible
  have here : (a + 196 - (a + 98 - n) % 99) % 99 + 1 = n := by omega
  have found := walk_finds (place := fun k => (a + 196 - k) % 99 + 1) (p := s.eligible) (k := (a + 98 - n) % 99) (Nat.mod_lt _ (by decide))
    (by rw [here]; exact eligible) fun j earlier => by
      by_contra other
      have := first _ (by omega) (Bool.not_eq_false _ ▸ other)
      omega
  rw [found, here]

theorem steps_nowhere (none_ : ∀ k, k ≤ 99 → s.eligible k = false) : s.stepUp = none ∧ s.stepDown = none := by
  rw [stepUp_eq, stepDown_eq]
  exact ⟨walk_misses fun k _ => none_ _ (by omega), walk_misses fun k _ => none_ _ (by omega)⟩

/-! ### What TUNE leaves (R95, R104, R117) -/

theorem cutScan_idle (e : ScanEnding) (by_ : Option ScanStopper) (h : s.scan.state = .idle) : cutScan e by_ s = s := by
  simp [cutScan, Scan.inFlight, h]

theorem cutScan_flying (e : ScanEnding) (by_ : Option ScanStopper) (h : s.scan.state ≠ .idle) : cutScan e by_ s = endScan e by_ s := by
  simp [cutScan, Scan.inFlight, h]

theorem endScan_told (hb : s.power.state ≠ .backup) (e : ScanEnding) (by_ : Option ScanStopper) : ScanTold (endScan e by_ s) :=
  postScan_told (s := { s with scan := _ }) hb

/-- The scan record of a scan that ends (R117). -/
def Scan.ended (c : Scan) (e : ScanEnding) (by_ : Option ScanStopper) : Scan :=
  { c with
    state := .idle, step := none, current := none, window := none, best := none
    resume := if e = .complete ∨ e = .full then none else c.step, lastEnding := some e, stoppedBy := by_ }

theorem endScan_scan (e : ScanEnding) (by_ : Option ScanStopper) (s : State) : (endScan e by_ s).scan = s.scan.ended e by_ := by
  simp [endScan, Scan.ended]

/-- A tuning begun under the direct activity, once the scan is out of the way and the claim taken. -/
structure DirectTuning (sel : Selection) (v u : State) : Prop where
  claim   : u.tunerOf = .direct
  begun   : TuningBegun sel v u
  presets : u.tuner.presets = v.tuner.presets
  scan    : u.scan = v.scan
  told    : ScanTold v → ScanTold u
  keeps   : KeepsBut [.tuner, .tunerOf, .sending] v u

theorem tunedDirectly (hb : v.power.state ≠ .backup) (sel : Selection) : DirectTuning sel v (beginTuning sel (setTunerClaim .direct v)) where
  claim := ((beginTuning_keeps ..).tunerOf).trans (by simp)
  begun := (beginTuning_begun (s := setTunerClaim .direct v) (by simpa using hb) sel).since (by simp)
  presets := by simp
  scan := ((beginTuning_keeps ..).scan).trans (by simp)
  told h := (h.setTunerClaim _).beginTuning _
  keeps := ((setTunerClaim_keeps .direct v).mono (by simp)).trans ((beginTuning_keeps ..).mono (by simp))

theorem exec_tunes (hs : PortReady s) {form preset : Byte} {frequency : Word16} {sel : Selection} {range noSuch : Bool}
    {c : Instr} {payload : List Byte} (frame : exec c s = .next (requestFrame .tune payload s))
    (length : RequestKind.tune.admitsLength payload.length = true)
    (served : serve .tune payload s = tuneRequest form preset frequency s) (h : Names form preset frequency s sel range noSuch) :
    (∀ st, firstFailing (tuneChecks range noSuch s) = some st → exec c s = .next (answered .tune { status := st } s)) ∧
      (firstFailing (tuneChecks range noSuch s) = none →
        exec c s = .next (answered .tune (tuneTaken sel s).2 (tuneTaken sel s).1)) :=
  ⟨fun _ refused => exec_served hs frame rfl length (served.trans (h.request.trans (checked_refused refused))),
    fun passed => exec_served hs frame rfl length (served.trans (h.request.trans (checked_taken passed)))⟩

theorem tuneTaken_kept {sel : Selection} (same : s.tuner.selection = sel) (on : s.tuner.state ≠ .idle) (claim : s.tunerOf ≠ .scan) :
    tuneTaken sel s = answer .ok (setTunerClaim .direct s) := if_pos ⟨same.symm, on, claim⟩

theorem tuneTaken_begins {sel : Selection} (h : (s.tuner.selection ≠ sel ∨ s.tuner.state = .idle) ∨ s.tunerOf = .scan) :
    tuneTaken sel s = answer .accepted (beginTuning sel (setTunerClaim .direct (cutScan .replaced none s))) := by
  refine if_neg fun ⟨same, on, claim⟩ => ?_
  rcases h with (other | off) | scans
  · exact other same.symm
  · exact on off
  · exact claim scans

/-- Settles O39: a form resolves to a selection by its table entry or by its walk, and what is not refused keeps the tuning or begins one. -/
theorem tuneServed : Obligations.TuneServed := by
  intro s hs served start top
  have hb := hs.runs
  have serves : ∀ {form preset : Byte} {frequency : Word16} {sel : Selection} {range noSuch : Bool} {c : Instr} {payload : List Byte},
      exec c s = .next (requestFrame .tune payload s) → RequestKind.tune.admitsLength payload.length = true →
      serve .tune payload s = tuneRequest form preset frequency s →
      Names form preset frequency s sel range noSuch → served sel range noSuch (exec c s) := by
    intro form preset frequency sel range noSuch c payload frame length asked names
    obtain ⟨refused, passed⟩ := exec_tunes hs frame length asked names
    refine ⟨refused, fun checks => ⟨fun same on claim => ?_, fun other idle => ?_, fun claim flying => ?_⟩⟩
    · have taken := passed checks
      rw [tuneTaken_kept same on claim] at taken
      exact ⟨_, taken, replied_answered .tune { status := .ok } _, by simp [answer],
        answered_sent_keeps (setTunerClaim_keeps .direct s) (by simp) _ _⟩
    · have taken := passed checks
      rw [tuneTaken_begins (.inl other), cutScan_idle _ _ idle] at taken
      have tuned := tunedDirectly hb sel
      exact ⟨_, taken, replied_answered .tune { status := .accepted } _, by simpa [answer] using tuned.claim, tuned.begun.answered _ _,
        by simp [answer], answered_sent_keeps tuned.keeps (by simp) _ _⟩
    · have taken := passed checks
      rw [tuneTaken_begins (.inr claim), cutScan_flying _ _ flying] at taken
      have cut := endScan_keeps .replaced none s
      have tuned := tunedDirectly (v := endScan .replaced none s) (by rw [cut.power]; exact hb) sel
      have scan := tuned.scan.trans (endScan_scan .replaced none s)
      refine ⟨_, taken, replied_answered .tune { status := .accepted } _, by simpa [answer] using tuned.claim,
        (tuned.begun.since (by rw [cut.tuner])).answered _ _, ?_, ?_, ?_, ?_, ?_, (tuned.told (endScan_told hb _ _)).answered _ _,
        answered_sent_keeps ((cut.mono (by simp)).trans (tuned.keeps.mono (by simp))) (by simp) _ _⟩
      · simp [answer, cut.tuner]
      all_goals simp [answer, scan, Scan.ended]
  refine ⟨fun b => serves rfl rfl rfl (names_preset b s),
    fun f => serves rfl rfl (congrArg (tuneRequest 4 0 · s) (word16_bytes f)) (names_direct f s), fun full last => ⟨fun n eligible first => ?_,
    fun n eligible first => ?_, fun none_ => ?_⟩⟩
  · exact serves rfl rfl rfl (names_up (stepUp_first full last eligible first))
  · exact serves rfl rfl rfl (names_down (stepDown_first full last eligible first))
  · obtain ⟨up, down⟩ := steps_nowhere none_
    exact ⟨serves rfl rfl rfl (names_up up), serves rfl rfl rfl (names_down down)⟩

end Sys2Proof.Machine
end

section
/-! O40 and O41: the tuner's lock, loss and re-check, and an AFT reading (R95 to R100). -/

namespace Sys2Proof.Machine

variable {s t u v : State}

/-! ### The lock condition (R95, R97) -/

theorem lockCondition_iff (s : State) :
    s.lockCondition = true ↔ s.pins.sync = true ∧ (s.tuner.selection = .preset 0 ∨ 4 ≤ s.pins.strength.toNat) := by
  simp [State.lockCondition]

theorem lockCondition_congr (pins : t.pins = s.pins) (selection : t.tuner.selection = s.tuner.selection) :
    t.lockCondition = s.lockCondition := by
  simp only [State.lockCondition, pins, selection]

theorem lockTest_tuning (idle : s.scan.state = .idle) (tuning : s.tuner.state = .tuning) :
    lockTest s = if s.tuner.settled ∧ s.lockCondition then enterLocked s else s := by
  simp [lockTest, Scan.inFlight, idle, tuning]

/-- The record of a lock that is watched: the failure counts from its first time (R100). -/
def State.lockWatched (s : State) : Tuner :=
  { s.tuner with failSince := if s.lockCondition then none else some (s.tuner.failSince.getD s.now) }

theorem lockTest_locked (idle : s.scan.state = .idle) (locked : s.tuner.state = .locked) :
    lockTest s = { s with tuner := s.lockWatched } := by
  simp [lockTest, Scan.inFlight, idle, locked, State.lockWatched]

theorem lockTest_rests (h : s.tuner.state = .idle ∨ s.tuner.state = .noSignal) : lockTest s = s := by
  unfold lockTest
  split
  · rfl
  · rcases h with h | h <;> rw [h]

theorem enterLocked_keeps (s : State) : KeepsBut [.tuner, .sending] s (enterLocked s) := postTuner_keeps ..

theorem enterNoSignal_keeps (s : State) : KeepsBut [.tuner, .sending] s (enterNoSignal s) := postTuner_keeps ..

/-! ### LOCKED and NO_SIGNAL entered (R95, R100) -/

/-- LOCKED has been entered at a time from a record of the tuner, and told. -/
structure LockedAt (at_ : Nat) (x : Tuner) (t : State) : Prop where
  now   : t.now = at_
  tuner : t.tuner = { x with state := .locked, aftSince := at_, failSince := none }
  told  : TuneTold t

/-- NO_SIGNAL has been entered at a time from a record of the tuner, and told. -/
structure FadedAt (at_ : Nat) (x : Tuner) (t : State) : Prop where
  now   : t.now = at_
  tuner : t.tuner = { x with state := .noSignal, latch := x.latch || x.state == .locked, failSince := none, recheckSince := at_ }
  told  : TuneTold t

theorem enterLocked_locked (hb : v.power.state ≠ .backup) (lock : v.lockCondition = true) :
    LockedAt v.now v.tuner (chooseFrame (enterLocked v)) where
  now := by simp [enterLocked]
  tuner := by simp [enterLocked, lock]
  told := TuneTold.chooseFrame (postTune_told (s := { v with tuner := _ }) hb)

theorem enterNoSignal_faded (hb : v.power.state ≠ .backup) : FadedAt v.now v.tuner (chooseFrame (enterNoSignal v)) where
  now := by simp [enterNoSignal]
  tuner := by simp [enterNoSignal]
  told := TuneTold.chooseFrame (postTune_told (s := { v with tuner := _ }) hb)

/-! ### The events (R95, R100) -/

theorem exec_signalStrengthChange (hb : s.power.state ≠ .backup) (hd : NothingDue s) (x : BitVec 4) :
    exec (.signalStrengthChange x) s = .next (chooseFrame (lockTest { s with pins.strength := x })) := by
  have undue : Undue { s with pins.strength := x } := hd.undue.of
  exact congrArg Host.Outcome.next
    (deckEvent_tuner (s := { s with pins.strength := x }) hb undue ((lockTest_keeps _).mono (by simp [tunerParts])))

/-- A timer of the tuner or of the scan is taken in the state that its limit finds, and nothing but what it does there follows. -/
structure TunerTimed (limit : Nat) (act : State → State) (s v : State) : Prop where
  now  : v.now = limit
  leap : KeepsBut [.time, .nav] s v
  runs : v.power.state ≠ .backup
  acts : timerEvent (some limit) act s = chooseFrame (act v)

theorem tunerTimer {limit : Nat} {act : State → State} (hb : s.power.state ≠ .backup) (hd : Undue s)
    (keeps : ∀ v, KeepsBut [.tuner, .scan, .tunerOf, .sending] v (act v)) (ahead : s.now ≤ limit) : ∃ v, TunerTimed limit act s v :=
  ⟨leapTo limit s, leapTo_now_of_le ahead, leapTo_keeps limit s, hb,
    timerEvent_tuner hb hd limit ((keeps _).mono (by simp [tunerParts]))⟩

section
variable {limit : Nat} {act : State → State} (h : TunerTimed limit act s v)
include h

theorem TunerTimed.tuner : v.tuner = s.tuner := h.leap.tuner

theorem TunerTimed.lockCondition : v.lockCondition = s.lockCondition := lockCondition_congr h.leap.pins (by rw [h.tuner])

theorem TunerTimed.keeps (k : KeepsBut [.tuner, .sending] v (act v)) : KeepsBut [.time, .tuner, .nav, .sending] s (chooseFrame (act v)) :=
  sent_keeps ((h.leap.mono (by simp)).trans (k.mono (by simp))) (by simp)

end

theorem tunerIn_idle (idle : s.scan.state = .idle) (x : TunerState) : s.tunerIn x = (s.tuner.state == x) := by
  simp [State.tunerIn, Scan.inFlight, idle]

/-- The tuner's settling is over (R95). -/
def State.settle (s : State) : State := { s with tuner.settled := true }

/-- The re-check has come (R100). -/
def State.rechecked (s : State) : State := { s with tuner.recheckSince := s.now }

theorem settle_lockCondition (s : State) : s.settle.lockCondition = s.lockCondition := lockCondition_congr rfl rfl

theorem rechecked_lockCondition (s : State) : s.rechecked.lockCondition = s.lockCondition := lockCondition_congr rfl rfl

theorem endSettling_eq (idle : s.scan.state = .idle) (tuning : s.tuner.state = .tuning) :
    endSettling s = if s.lockCondition then enterLocked s.settle else s.settle := by
  have tested : endSettling s = if s.settle.tuner.settled ∧ s.settle.lockCondition then enterLocked s.settle else s.settle :=
    lockTest_tuning (s := s.settle) idle tuning
  rw [tested, settle_lockCondition]
  simp [State.settle]

theorem recheck_eq (s : State) : recheck s = if s.lockCondition then enterLocked s.rechecked else s.rechecked := by
  rw [← rechecked_lockCondition]
  rfl

theorem endSettling_keeps (s : State) : KeepsBut [.tuner, .sending] s (endSettling s) :=
  ((withTuner_keeps _ s).mono (by simp)).trans (lockTest_keeps _)

theorem recheck_keeps (s : State) : KeepsBut [.tuner, .sending] s (recheck s) := by
  have checked : KeepsBut [.tuner, .sending] s s.rechecked := (withTuner_keeps _ s).mono (by simp)
  rw [recheck_eq]
  split
  · exact checked.trans (enterLocked_keeps _)
  · exact checked

section
variable (idle : s.scan.state = .idle)
include idle

theorem exec_tunerSettleEnd (tuning : s.tuner.state = .tuning) (unsettled : s.tuner.settled = false) :
    exec .tunerSettleEnd s = .next (timerEvent (some (s.tuner.tuningStart + 100 * 12288)) endSettling s) := by
  refine congrArg (fun l => Host.Outcome.next (timerEvent l endSettling s)) ?_
  rw [State.settleLimit, tunerIn_idle idle, tuning, unsettled]
  rfl

theorem exec_tuningTimeout (tuning : s.tuner.state = .tuning) :
    exec .tuningTimeout s = .next (timerEvent (some (s.tuner.tuningStart + 800 * 12288)) enterNoSignal s) := by
  refine congrArg (fun l => Host.Outcome.next (timerEvent l enterNoSignal s)) ?_
  rw [State.tuningLimit, tunerIn_idle idle, tuning]
  rfl

theorem exec_signalLossTimeout (locked : s.tuner.state = .locked) {since : Nat} (failing : s.tuner.failSince = some since) :
    exec .signalLossTimeout s = .next (timerEvent (some (since + 500 * 12288)) enterNoSignal s) := by
  refine congrArg (fun l => Host.Outcome.next (timerEvent l enterNoSignal s)) ?_
  rw [State.lossLimit, tunerIn_idle idle, locked, failing]
  rfl

theorem exec_noSignalRecheck (faded : s.tuner.state = .noSignal) :
    exec .noSignalRecheck s = .next (timerEvent (some (s.tuner.recheckSince + 500 * 12288)) recheck s) := by
  refine congrArg (fun l => Host.Outcome.next (timerEvent l recheck s)) ?_
  rw [State.recheckLimit, tunerIn_idle idle, faded]
  rfl

theorem exec_aftReading (locked : s.tuner.state = .locked) (inUse : s.tuner.aftInUse = true) (r : Discriminator) :
    exec (.aftReading r) s =
      .next (timerEvent (some (s.tuner.aftSince + 200 * 12288)) (aftRead r) { s with pins.discriminator := r }) := by
  refine congrArg (fun l => Host.Outcome.next (timerEvent l (aftRead r) { s with pins.discriminator := r })) ?_
  rw [State.aftLimit, tunerIn_idle idle, locked, inUse]
  rfl

end

/-- What a change of the strength makes of the tuner's record: LOCKED is entered, a failing lock is watched, or nothing happens (R95, R100). -/
structure StrengthFollowed (v t : State) : Prop where
  found   : v.tuner.state = .tuning → v.tuner.settled = true → v.lockCondition = true → LockedAt v.now v.tuner t
  waits   : v.tuner.state = .tuning → (v.tuner.settled = false ∨ v.lockCondition = false) → t.tuner = v.tuner
  watched : v.tuner.state = .locked → t.tuner = v.lockWatched
  rests   : v.tuner.state = .idle ∨ v.tuner.state = .noSignal → t.tuner = v.tuner

theorem lockTest_followed (hb : v.power.state ≠ .backup) (idle : v.scan.state = .idle) : StrengthFollowed v (chooseFrame (lockTest v)) where
  found tuning settled met := by
    rw [lockTest_tuning idle tuning, if_pos ⟨settled, met⟩]
    exact enterLocked_locked hb met
  waits tuning waits := by
    have unmet : ¬ (v.tuner.settled = true ∧ v.lockCondition = true) := by
      rintro ⟨settled, met⟩
      rcases waits with h | h
      · rw [h] at settled; cases settled
      · rw [h] at met; cases met
    rw [lockTest_tuning idle tuning, if_neg unmet, chooseFrame_tuner]
  watched locked := by rw [lockTest_locked idle locked, chooseFrame_tuner]
  rests h := by rw [lockTest_rests h, chooseFrame_tuner]

/-- Settles O40: each event is the test of the lock condition, or what follows on its time, at the present or at the limit reached. -/
theorem tunerFollowsSignal : Obligations.TunerFollowsSignal := by
  intro s hb hd idle lock locked faded
  have lockedOf : ∀ {at_ : Nat} {x : Tuner} {t : State}, LockedAt at_ x t →
      x = { s.tuner with settled := x.settled, recheckSince := x.recheckSince } → locked at_ t := fun h same => by
    refine ⟨h.now, ?_, h.told⟩
    rw [h.tuner, same]
  have fadedOf : ∀ {at_ : Nat} {latch : Bool} {x : Tuner} {t : State}, FadedAt at_ x t → x = s.tuner →
      (s.tuner.latch || s.tuner.state == .locked) = latch → faded at_ latch t := by
    rintro at_ _ _ t h rfl rfl
    exact ⟨h.now, h.tuner, h.told⟩
  have lock_iff : s.lockCondition = true ↔ lock := lockCondition_iff s
  refine ⟨fun x => ?_, fun tuning => ?_, fun on since failing ahead => ?_, fun off => ?_⟩
  · obtain ⟨v, hv⟩ : ∃ v : State, v = { s with pins.strength := x } := ⟨_, rfl⟩
    have strength : exec (.signalStrengthChange x) s = .next (chooseFrame (lockTest v)) := hv ▸ exec_signalStrengthChange hb hd x
    have changed : KeepsBut [.pins] s v := hv ▸ withPins_keeps _ s
    have pins : v.pins = { s.pins with strength := x } := hv ▸ rfl
    have now : v.now = s.now := hv ▸ rfl
    have tuner := changed.tuner
    have condition : v.lockCondition = true ↔ s.pins.sync ∧ (s.tuner.selection = .preset 0 ∨ 4 ≤ x.toNat) := by
      rw [lockCondition_iff, tuner, pins]
    have tested := lockTest_keeps v
    have followed := lockTest_followed (v := v) (by rw [changed.power]; exact hb) (by rw [changed.scan, idle])
    obtain ⟨found, waits, watched, rests⟩ := followed
    rw [tuner] at found waits watched rests
    refine ⟨_, strength, by simp [tested.pins, pins], ⟨fun tuning settled held => ?_, fun tuning unmet => waits tuning ?_, fun on held => ?_,
      fun on fails => ?_, rests⟩, sent_keeps ((changed.mono (by simp)).trans (tested.mono (by simp))) (by simp)⟩
    · exact lockedOf (now ▸ found tuning settled (condition.mpr held)) rfl
    · exact unmet.imp_right fun fails => Bool.eq_false_iff.mpr (fails ∘ condition.mp)
    · rw [watched on, State.lockWatched, if_pos (condition.mpr held), tuner]
    · rw [watched on, State.lockWatched, if_neg (fails ∘ condition.mp), tuner, now]
  · refine ⟨fun unsettled ahead => ?_, fun ahead => ?_⟩
    · obtain ⟨v, timed⟩ := tunerTimer hb hd.undue (fun v => (endSettling_keeps v).mono (by simp)) ahead
      have acts := (exec_tunerSettleEnd idle tuning unsettled).trans (congrArg _ timed.acts)
      have tested := endSettling_eq (s := v) (by rw [timed.leap.scan, idle]) (by rw [timed.tuner, tuning])
      refine ⟨_, acts, ?_, fun met => ?_, fun unmet => ?_, timed.keeps (endSettling_keeps v)⟩
      · rw [tested]
        split <;> simp [enterLocked, State.settle]
      · have met := lock_iff.mpr met
        rw [← timed.lockCondition] at met
        rw [tested, if_pos met]
        have found := enterLocked_locked (v := v.settle) timed.runs (by rw [settle_lockCondition, met])
        exact lockedOf (timed.now ▸ found) (by rw [State.settle, timed.tuner])
      · rw [← lock_iff, ← timed.lockCondition] at unmet
        rw [tested, if_neg unmet]
        exact ⟨by simp [State.settle, timed.now], by simp [State.settle, timed.tuner, tuning]⟩
    · obtain ⟨v, timed⟩ := tunerTimer hb hd.undue (fun v => (enterNoSignal_keeps v).mono (by simp)) ahead
      have acts := (exec_tuningTimeout idle tuning).trans (congrArg _ timed.acts)
      exact ⟨_, acts, fadedOf (timed.now ▸ enterNoSignal_faded timed.runs) timed.tuner (by simp [tuning]), timed.keeps (enterNoSignal_keeps v)⟩
  · obtain ⟨v, timed⟩ := tunerTimer hb hd.undue (fun v => (enterNoSignal_keeps v).mono (by simp)) ahead
    have acts := (exec_signalLossTimeout idle on failing).trans (congrArg _ timed.acts)
    exact ⟨_, acts, fadedOf (timed.now ▸ enterNoSignal_faded timed.runs) timed.tuner (by simp [on]), timed.keeps (enterNoSignal_keeps v)⟩
  · intro limit ahead
    obtain ⟨v, timed⟩ := tunerTimer hb hd.undue (fun v => (recheck_keeps v).mono (by simp)) ahead
    have acts := (exec_noSignalRecheck idle off).trans (congrArg _ timed.acts)
    refine ⟨_, acts, fun met => ?_, fun unmet => ?_, timed.keeps (recheck_keeps v)⟩
    · have met := lock_iff.mpr met
      rw [← timed.lockCondition] at met
      rw [recheck_eq, if_pos met]
      have found := enterLocked_locked (v := v.rechecked) timed.runs (by rw [rechecked_lockCondition, met])
      exact lockedOf (timed.now ▸ found) (by rw [State.rechecked, timed.tuner])
    · rw [← lock_iff, ← timed.lockCondition] at unmet
      rw [recheck_eq, if_neg unmet]
      exact ⟨(chooseFrame_now _).trans timed.now, by rw [chooseFrame_tuner, State.rechecked, timed.tuner, timed.now]⟩

/-! ### The AFT (R96, R99) -/

/-- AFT at limit after a reading (R99). -/
def Tuner.limited (x : Tuner) (r : Discriminator) : Bool :=
  if aftStep x.correction r = x.correction ∧ r ≠ .centred then true
  else if (aftStep x.correction r).natAbs < x.correction.natAbs then false
  else x.atLimit

/-- The working tuning with the correction of a reading, before the synthesiser follows it. -/
def Tuner.corrected (x : Tuner) (r : Discriminator) (now : Nat) : Tuner :=
  { x with correction := aftStep x.correction r, atLimit := x.limited r, aftSince := now }

/-- The working tuning after a reading: a change of the tuned frequency reloads the synthesiser. -/
def Tuner.aftRead (x : Tuner) (r : Discriminator) (now : Nat) : Tuner :=
  { x.corrected r now with synth := if (x.corrected r now).tuned = x.tuned then x.synth else (x.corrected r now).tuned }

theorem aftRead_eq (r : Discriminator) (s : State) :
    aftRead r s = if s.tuner.limited r = s.tuner.atLimit then { s with tuner := s.tuner.aftRead r s.now }
      else postTune { s with tuner := s.tuner.aftRead r s.now } := rfl

theorem aftRead_keeps (r : Discriminator) (s : State) : KeepsBut [.tuner, .sending] s (aftRead r s) := by
  rw [aftRead_eq]
  split
  · exact (withTuner_keeps _ s).mono (by simp)
  · exact postTuner_keeps ..

theorem aftRead_tuner (r : Discriminator) (s : State) : (aftRead r s).tuner = s.tuner.aftRead r s.now := by
  rw [aftRead_eq]
  split <;> simp

/-- A change of AFT at limit is told (R99). -/
theorem aftRead_told (hb : s.power.state ≠ .backup) (r : Discriminator) (h : s.tuner.limited r ≠ s.tuner.atLimit) :
    TuneTold (aftRead r s) := by
  rw [aftRead_eq, if_neg h]
  exact postTune_told (s := { s with tuner := _ }) hb

theorem aftStep_eq {c : Int} (within : c.natAbs ≤ 8) (r : Discriminator) :
    aftStep c r = match r with
      | .high => min 8 (c + 1)
      | .low => max (-8) (c - 1)
      | .centred => c := by
  cases r <;> simp only [aftStep] <;> split <;> omega

theorem Tuner.aftRead_synth_same {x : Tuner} {r : Discriminator} (now : Nat) (h : aftStep x.correction r = x.correction) :
    (x.aftRead r now).synth = x.synth := by
  simp [Tuner.aftRead, Tuner.corrected, Tuner.tuned, h]

theorem tuned_within {x : Tuner} {b : Nat} (base : x.base = some b) (lo : 908 ≤ b) (hi : b ≤ 17192) (within : x.correction.natAbs ≤ 8) :
    x.tuned = some (b + x.correction).toNat := by
  rw [Tuner.tuned, base]
  exact congrArg some (saturateFrequency_within (by omega) (by omega))

theorem Tuner.aftRead_synth_moved {x : Tuner} {r : Discriminator} (now : Nat) {b : Nat} (base : x.base = some b) (lo : 908 ≤ b)
    (hi : b ≤ 17192) (within : x.correction.natAbs ≤ 8) (h : aftStep x.correction r ≠ x.correction) :
    (x.aftRead r now).synth = some (b + aftStep x.correction r).toNat := by
  have stepped := aftStep_within x.correction r within
  have before := tuned_within base lo hi within
  have after := tuned_within (x := x.corrected r now) base lo hi stepped
  have apart : (x.corrected r now).tuned ≠ x.tuned := by
    rw [before, after]
    refine fun same => h ?_
    have : (b + aftStep x.correction r).toNat = (b + x.correction).toNat := Option.some.inj same
    omega
  exact (if_neg apart).trans after

/-- Settles O41: the correction steps within its bound, the synthesiser follows the tuned frequency, and a change of the limit flag is told. -/
theorem aftCorrects : Obligations.AftCorrects := by
  intro s hb hd idle on inUse within ahead r c c'
  have undue : Undue { s with pins.discriminator := r } := hd.undue.of
  obtain ⟨v, timed⟩ := tunerTimer (s := { s with pins.discriminator := r }) hb undue (fun v => (aftRead_keeps r v).mono (by simp)) ahead
  have acts := (exec_aftReading idle on inUse r).trans (congrArg _ timed.acts)
  have stepped : aftStep s.tuner.correction r = c' := aftStep_eq within r
  have tuner : v.tuner = s.tuner := timed.tuner
  have record : (chooseFrame (aftRead r v)).tuner = s.tuner.aftRead r v.now := by rw [chooseFrame_tuner, aftRead_tuner, tuner]
  have now : (chooseFrame (aftRead r v)).now = v.now := (chooseFrame_now _).trans ((aftRead_keeps r v).same .time (by decide)).1
  have pins : (chooseFrame (aftRead r v)).pins = { s.pins with discriminator := r } :=
    (chooseFrame_pins _).trans (((aftRead_keeps r v).pins).trans timed.leap.pins)
  have keeps : KeepsBut [.time, .pins, .tuner, .nav, .sending] s (chooseFrame (aftRead r v)) :=
    ((withPins_keeps _ s).mono (by simp)).trans ((timed.keeps (aftRead_keeps r v)).mono (by simp))
  refine ⟨_, acts, now.trans timed.now, pins, ?_, ?_, ?_, ?_, ?_, ?_, ?_, keeps⟩
  all_goals rw [record]
  · rw [now, ← stepped]
    rfl
  · exact fun same => Tuner.aftRead_synth_same _ (stepped.trans same)
  · intro b base lo hi moved
    rw [← stepped] at moved ⊢
    exact Tuner.aftRead_synth_moved _ base lo hi within moved
  · exact fun same pressed => if_pos ⟨stepped.trans same, pressed⟩
  · rw [← stepped]
    intro back
    have moved : ¬ (aftStep s.tuner.correction r = s.tuner.correction ∧ r ≠ .centred) := fun ⟨same, _⟩ => by rw [same] at back; omega
    exact (if_neg moved).trans (if_pos back)
  · rw [← stepped]
    intro stands
    have settled : ¬ (aftStep s.tuner.correction r = s.tuner.correction ∧ r ≠ .centred) := fun ⟨same, pressed⟩ =>
      stands.elim pressed fun out => by rw [same] at out; omega
    have outward : ¬ (aftStep s.tuner.correction r).natAbs < s.tuner.correction.natAbs := by
      rcases stands with rfl | out
      · exact Nat.lt_irrefl _
      · omega
    exact (if_neg settled).trans (if_neg outward)
  · intro changed
    exact TuneTold.chooseFrame (aftRead_told timed.runs r (by rw [tuner]; exact changed))

end Sys2Proof.Machine
end

section
/-! O42: PRESET_WRITE, PRESET_CLEAR and OUTPUT_SELECT (R90, R91, R102, R103, R106). -/

namespace Sys2Proof.Machine

variable {s t u v : State}

/-! ### A preset written (R90, R102, R103) -/

/-- A record differs from the entry of its preset in frequency, fine tune or AFT enabled (R102). -/
def State.rewrites (s : State) (n : Nat) (p : Preset) : Bool :=
  (s.preset n).all fun q => q.frequency != p.frequency || q.fineTune != p.fineTune || q.aft != p.aft

/-- The write of a record concerns the working tuning (R102). -/
def State.retunes (s : State) (n : Nat) (p : Preset) : Prop :=
  s.tuner.selection = .preset n ∧ s.tuner.state ≠ .idle ∧ s.rewrites n p = true

theorem writePreset_eq (n : Nat) (p : Preset) (s : State) : writePreset n p s = tuningWrite n (s.rewrites n p) (s.withPreset n (some p)) := by
  have changes : s.rewrites n p = (s.preset n).elim true fun q =>
      q.frequency != p.frequency || q.fineTune != p.fineTune || q.aft != p.aft := by
    rw [State.rewrites]
    cases s.preset n <;> rfl
  rw [changes]
  rfl

theorem writePreset_stands {n : Nat} {p : Preset} (h : ¬ s.retunes n p) : writePreset n p s = s.withPreset n (some p) := by
  rw [writePreset_eq]
  refine if_pos ?_
  simp only [State.retunes, not_and, Bool.not_eq_true] at h
  by_cases same : s.tuner.selection = .preset n
  · by_cases off : s.tuner.state = .idle
    · simp [State.withPreset, off]
    · simp [h same off]
  · simp [State.withPreset, same]

theorem writePreset_retunes {n : Nat} {p : Preset} (h : s.retunes n p) : writePreset n p s =
    match s.tunerOf with
    | .free | .direct => retune (s.withPreset n (some p))
    | .scan => s.withPreset n (some p)
    | .timer _ => if s.tuner.copy = .stale then s.withPreset n (some p)
      else postTune { s.withPreset n (some p) with tuner.copy := .stale } := by
  obtain ⟨same, on, changed⟩ := h
  have concerned : (!s.rewrites n p || (s.withPreset n (some p)).tuner.selection != .preset n ||
      (s.withPreset n (some p)).tuner.state == .idle) = false := by simp [changed, State.withPreset, same, on]
  rw [writePreset_eq, tuningWrite, concerned]
  rfl

theorem writePreset_presets (n : Nat) (p : Preset) (s : State) :
    (writePreset n p s).tuner.presets = s.tuner.presets.set (n - 1) (some p) := by
  by_cases h : s.retunes n p
  · rw [writePreset_retunes h]
    cases s.tunerOf with
    | free | direct => simp [retune, State.withPreset]
    | scan => rfl
    | timer x =>
      dsimp only
      split <;> simp [State.withPreset]
  · rw [writePreset_stands h]
    rfl

/-- What a write of the table leaves of the working tuning, as it is concerned or not (R102, R103). -/
structure TableWritten (concerned : Prop) (s t : State) : Prop where
  retuned : concerned → s.tunerOf = .free ∨ s.tunerOf = .direct → TuningBegun s.tuner.selection s t
  staled  : concerned → s.tunerOf.isTimer = true →
    t.tuner = { s.tuner with presets := t.tuner.presets, copy := .stale } ∧ (s.tuner.copy = .current → TuneTold t)
  stands  : ¬ concerned ∨ s.tunerOf = .scan → t.tuner = { s.tuner with presets := t.tuner.presets }
  keeps   : KeepsBut [.tuner, .sending] s t

/-- Under a claim that is free or direct the selection is tuned again (R102). -/
theorem TableWritten.ofRetune {c : Prop} (concerned : c) (free : s.tunerOf = .free ∨ s.tunerOf = .direct)
    (begun : TuningBegun s.tuner.selection s t) (keeps : KeepsBut [.tuner, .sending] s t) : TableWritten c s t where
  retuned _ _ := begun
  staled _ timer := by rcases free with h | h <;> rw [h] at timer <;> cases timer
  stands other := by
    rcases other with not | scan
    · exact absurd concerned not
    · rcases free with h | h <;> rw [h] at scan <;> cases scan
  keeps := keeps

/-- Under the TIMER class the copy is made STALE (R103). -/
theorem TableWritten.ofStale {c : Prop} (concerned : c) (timer : s.tunerOf.isTimer = true)
    (record : t.tuner = { s.tuner with presets := t.tuner.presets, copy := .stale }) (told : s.tuner.copy = .current → TuneTold t)
    (keeps : KeepsBut [.tuner, .sending] s t) : TableWritten c s t where
  retuned _ free := by rcases free with h | h <;> rw [h] at timer <;> cases timer
  staled _ _ := ⟨record, told⟩
  stands other := by
    rcases other with not | scan
    · exact absurd concerned not
    · rw [scan] at timer; cases timer
  keeps := keeps

/-- Where the write is not the working tuning's, or a scan has the tuner, the table alone is written. -/
theorem TableWritten.ofTable {c : Prop} (other : ¬ c ∨ s.tunerOf = .scan) (record : t.tuner = { s.tuner with presets := t.tuner.presets })
    (keeps : KeepsBut [.tuner, .sending] s t) : TableWritten c s t where
  retuned concerned free := by
    rcases other with not | scan
    · exact absurd concerned not
    · rw [scan] at free; simp at free
  staled concerned timer := by
    rcases other with not | scan
    · exact absurd concerned not
    · rw [scan] at timer; cases timer
  stands _ := record
  keeps := keeps

theorem writePreset_written (hb : s.power.state ≠ .backup) (n : Nat) (p : Preset) :
    TableWritten (s.retunes n p) s (writePreset n p s) := by
  have table := (withPreset_keeps n (some p) s).mono (m := [.tuner, .sending]) (by simp)
  have retuned : KeepsBut [.tuner, .sending] s (retune (s.withPreset n (some p))) ∧
      TuningBegun s.tuner.selection s (retune (s.withPreset n (some p))) :=
    ⟨table.trans (retune_keeps _), TuningBegun.since (beginTuning_begun (s := s.withPreset n (some p)) hb _) rfl⟩
  by_cases h : s.retunes n p
  · rw [writePreset_retunes h]
    cases claim : s.tunerOf with
    | free => exact .ofRetune h (.inl claim) retuned.2 retuned.1
    | direct => exact .ofRetune h (.inr claim) retuned.2 retuned.1
    | scan => exact .ofTable (.inr claim) rfl table
    | timer x =>
      dsimp only
      split
      · next stale => exact .ofStale h (by rw [claim]; rfl) (by simp [State.withPreset, ← stale]) (fun c => by rw [stale] at c; cases c) table
      · exact .ofStale h (by rw [claim]; rfl) (by simp [State.withPreset])
          (fun _ => postTune_told (s := { s.withPreset n (some p) with tuner.copy := .stale }) hb) (table.trans (postTuner_keeps _ _))
  · rw [writePreset_stands h]
    exact .ofTable (.inl h) rfl table

theorem TableWritten.answered {c : Prop} (h : TableWritten c s t) (k : RequestKind) (r : Reply) : TableWritten c s (answered k r t) where
  retuned concerned free := (h.retuned concerned free).answered k r
  staled concerned timer := by
    obtain ⟨record, told⟩ := h.staled concerned timer
    rw [answered_tuner]
    exact ⟨record, fun current => (told current).answered k r⟩
  stands other := by rw [answered_tuner]; exact h.stands other
  keeps := answered_sent_keeps h.keeps (by simp) k r

/-! ### PRESET_WRITE (R90) -/

theorem presetOf_within {b : Byte} (lo : 1 ≤ b.toNat) (hi : b.toNat ≤ 99) : presetOf b = some b.toNat := if_pos ⟨lo, hi⟩

theorem presetOf_outside {b : Byte} (h : b.toNat < 1 ∨ 99 < b.toNat) : presetOf b = none := if_neg (by omega)

/-- The record that a PRESET_WRITE asks for, its fine tune clamped (R90). -/
def askedPreset (f : Word16) (fine flags len : Byte) (chars : List Byte) : Preset :=
  { frequency := f.toNat, fineTune := max (-15) (min 15 fine.toInt), aft := flags.getLsbD 0, skip := flags.getLsbD 1,
    lock := flags.getLsbD 2, label := chars.take len.toNat }

/-- The fields that R90's check refuses. -/
def presetRefused (preset : Byte) (f : Word16) (flags len : Byte) (chars : List Byte) : Prop :=
  preset.toNat < 1 ∨ 99 < preset.toNat ∨ f.toNat < 900 ∨ 17200 < f.toNat ∨ 7 < flags.toNat ∨ 6 < len.toNat ∨
    (chars.take len.toNat).any (fun c => decide (63 < c.toNat)) = true

theorem clampTo_eq (v : Int) : clampTo (-15) 15 v = max (-15) (min 15 v) := by
  unfold clampTo
  split
  · omega
  · split <;> omega

section
variable {preset : Byte} {f : Word16} {flags len : Byte} {chars : List Byte}

theorem presetWriteRequest_refused (fine : Byte) (h : presetRefused preset f flags len chars) :
    presetWriteRequest preset f fine flags len chars s = answer .range s := by
  rw [presetRefused, ← or_assoc] at h
  by_cases outside : preset.toNat < 1 ∨ 99 < preset.toNat
  · simp only [presetWriteRequest, presetOf_outside outside]
  · simp only [presetWriteRequest, presetOf_within (b := preset) (by omega) (by omega)]
    exact if_pos (h.resolve_left outside)

theorem presetWriteRequest_written (fine : Byte) (h : ¬ presetRefused preset f flags len chars) :
    presetWriteRequest preset f fine flags len chars s =
      answer (if max (-15) (min 15 fine.toInt) = fine.toInt then .ok else .clamped)
        (writePreset preset.toNat (askedPreset f fine flags len chars) s) := by
  rw [presetRefused, ← or_assoc, not_or] at h
  obtain ⟨inside, fields⟩ := h
  simp only [presetWriteRequest, presetOf_within (b := preset) (by omega) (by omega), clampTo_eq]
  exact if_neg fields

end

/-! ### PRESET_CLEAR (R91) -/

/-- A preset is emptied; one that is selected leaves its frequency as the selection (R91). -/
def clearPreset (n : Nat) (s : State) : State :=
  if s.tuner.selection = .preset n then postTune { s.withPreset n none with tuner.selection := .direct (s.directAfterClear n) }
  else s.withPreset n none

/-- The checks of R91. -/
def clearChecks (n : Nat) (s : State) : List (Bool × Status) :=
  [(decide (n < 1) || decide (99 < n), .range), (s.preset n == none, .noSuch), (s.references n != 0, .inUse)]

theorem presetClearRequest_eq (preset : Byte) (s : State) :
    presetClearRequest preset s = checked (clearChecks preset.toNat s) s (answer .ok (clearPreset preset.toNat s)) := by
  simp only [clearChecks, checked_cons, checked_nil, ← Bool.decide_or, decide_eq_true_eq]
  by_cases outside : preset.toNat < 1 ∨ 99 < preset.toNat
  · rw [if_pos outside, presetClearRequest, presetOf_outside outside]
  · rw [if_neg outside, presetClearRequest, presetOf_within (by omega) (by omega)]
    simp only [beq_iff_eq, bne_iff_ne]
    rfl

theorem clearPreset_keeps (n : Nat) (s : State) : KeepsBut [.tuner, .sending] s (clearPreset n s) := by
  have table := (withPreset_keeps n none s).mono (m := [.tuner, .sending]) (by simp)
  unfold clearPreset
  split
  · exact table.trans (postTuner_keeps _ _)
  · exact table

theorem clearPreset_tuner (n : Nat) (s : State) : (clearPreset n s).tuner = { s.tuner with
    presets := s.tuner.presets.set (n - 1) none
    selection := if s.tuner.selection = .preset n then .direct (s.directAfterClear n) else s.tuner.selection } := by
  unfold clearPreset
  split <;> simp [State.withPreset]

theorem clearPreset_told {n : Nat} (hb : s.power.state ≠ .backup) (h : s.tuner.selection = .preset n) : TuneTold (clearPreset n s) := by
  rw [clearPreset, if_pos h]
  exact postTune_told (s := { s.withPreset n none with tuner.selection := _ }) hb

/-- The frequency that a cleared preset leaves is the base frequency, wherever no bound has cut the tuned one (R91). -/
theorem directAfterClear_base {n b : Nat} (idle : s.scan.state = .idle) (base : s.tuner.base = some b) (lo : 908 ≤ b) (hi : b ≤ 17192)
    (within : s.tuner.correction.natAbs ≤ 8) : s.directAfterClear n = b := by
  have back : (((b + s.tuner.correction).toNat : Nat) : Int) - s.tuner.correction = b := by omega
  rw [State.directAfterClear, base, tuned_within base lo hi within]
  simp only [Scan.inFlight, idle, bne_self_eq_false, Bool.false_eq_true, if_false, back]
  exact (saturateFrequency_within (by omega) (by omega)).trans (by omega)

/-! ### OUTPUT_SELECT (R106) -/

def askedOutput (b : Byte) : OutputSetting := if b = 1 then .auto else if b = 2 then .tuner else .tape

theorem outputSelectRequest_refused {b : Byte} (h : b.toNat < 1 ∨ 3 < b.toNat) : outputSelectRequest b s = answer .range s := by
  rw [outputSelectRequest, (valueAt_none_iff _ _).mpr h]

theorem outputSelectRequest_taken {b : Byte} (lo : 1 ≤ b.toNat) (hi : b.toNat ≤ 3) :
    outputSelectRequest b s = answer .ok (postTune { s with tuner.output := askedOutput b }) := by
  rcases byte_one_two_three lo hi with rfl | rfl | rfl <;> rfl

/-! ### The statement -/

/-- Settles O42: the three requests are refused by their checks, and otherwise write the table or the output. -/
theorem presetTable : Obligations.PresetTable := by
  intro s hs full
  have hb := hs.runs
  refine ⟨fun preset f fine flags len c1 c2 c3 c4 c5 c6 => ?_, fun preset => ?_, fun b => ⟨fun out => ?_, fun lo hi => ?_⟩⟩
  · intro n label v p range run
    have served : ∀ {st u}, presetWriteRequest preset f fine flags len [c1, c2, c3, c4, c5, c6] s = answer st u →
        run = .next (answered .presetWrite { status := st } u) := fun asked => by
      refine exec_served (p := preset :: (bytesOf 2 f.toNat ++ [fine, flags, len, c1, c2, c3, c4, c5, c6])) hs rfl rfl rfl (Eq.trans ?_ asked)
      exact congrArg (presetWriteRequest preset · fine flags len [c1, c2, c3, c4, c5, c6] s) (word16_bytes f)
    refine ⟨fun refused => served (presetWriteRequest_refused fine refused), fun passed => ?_⟩
    have written := (writePreset_written hb n (askedPreset f fine flags len [c1, c2, c3, c4, c5, c6])).answered .presetWrite
      { status := if v = fine.toInt then .ok else .clamped }
    refine ⟨_, served (presetWriteRequest_written fine passed), replied_answered .presetWrite _ _, ?_, written.keeps,
      fun concerned free => concerned.1 ▸ written.retuned concerned free, written.staled, written.stands⟩
    rw [answered_tuner, writePreset_presets]
    rfl
  · intro n checks
    have served : ∀ {st u}, presetClearRequest preset s = answer st u → exec (.presetClear preset) s =
        .next (answered .presetClear { status := st } u) := fun asked => exec_served hs rfl rfl rfl asked
    refine ⟨fun st refused => served ((presetClearRequest_eq preset s).trans (checked_refused refused)), fun passed => ?_⟩
    have tuner : (answered .presetClear { status := .ok } (clearPreset n s)).tuner = _ := (answered_tuner ..).trans (clearPreset_tuner n s)
    refine ⟨_, served ((presetClearRequest_eq preset s).trans (checked_taken passed)), replied_answered .presetClear { status := .ok } _, ?_, ?_, ?_,
      ?_, answered_sent_keeps (clearPreset_keeps n s) (by simp) _ _⟩
    · rw [tuner]
    · rw [tuner]
    · intro other
      rw [tuner]
      exact if_neg other
    · intro selected idle b base lo hi within
      refine ⟨?_, (clearPreset_told hb selected).answered _ _⟩
      rw [tuner]
      exact (if_pos selected).trans (congrArg _ (directAfterClear_base idle base lo hi within))
  · exact exec_served hs rfl rfl rfl (outputSelectRequest_refused out)
  · have keeps := postTuner_keeps { s.tuner with output := askedOutput b } s
    refine ⟨_, exec_served hs rfl rfl rfl (outputSelectRequest_taken lo hi), replied_answered .outputSelect { status := .ok } _, ?_,
      (postTune_told (s := { s with tuner.output := askedOutput b }) hb).answered _ _, answered_sent_keeps keeps (by simp) _ _⟩
    rw [answered_tuner, postTune_tuner]
    rfl

end Sys2Proof.Machine
end

section
/-! O43: SCAN_START of both forms and SCAN_STOP (R104, R112, R117, R118). -/

namespace Sys2Proof.Machine

variable {s t u v : State}

/-! ### A scan that ends hands the tuner over (R104, R117) -/

/-- A scan has ended, and the claim and a tuning of the selection are the direct activity's. -/
structure HandedOver (e : ScanEnding) (by_ : Option ScanStopper) (s t : State) : Prop where
  scan    : t.scan = s.scan.ended e by_
  claim   : t.tunerOf = .direct
  begun   : TuningBegun s.tuner.selection s t
  presets : t.tuner.presets = s.tuner.presets
  told    : ScanTold t
  keeps   : KeepsBut [.tuner, .scan, .tunerOf, .sending] s t

theorem endScanToDirect_hands (hb : s.power.state ≠ .backup) (e : ScanEnding) (by_ : Option ScanStopper) :
    HandedOver e by_ s (endScanToDirect e by_ s) := by
  have cut := endScan_keeps e by_ s
  have selection : (setTunerClaim .direct (endScan e by_ s)).tuner.selection = s.tuner.selection := by rw [setTunerClaim_tuner, cut.tuner]
  have tuned := tunedDirectly (v := endScan e by_ s) (by rw [cut.power]; exact hb) s.tuner.selection
  have ended : endScanToDirect e by_ s = beginTuning s.tuner.selection (setTunerClaim .direct (endScan e by_ s)) := by
    rw [endScanToDirect, retune, selection]
  rw [ended]
  exact ⟨tuned.scan.trans (endScan_scan ..), tuned.claim, tuned.begun.since (by rw [cut.tuner]), tuned.presets.trans (by rw [cut.tuner]),
    tuned.told (endScan_told hb _ _), (cut.mono (by simp)).trans (tuned.keeps.mono (by simp))⟩

theorem HandedOver.chooseFrame {e : ScanEnding} {by_ : Option ScanStopper} (h : HandedOver e by_ s t) : HandedOver e by_ s (chooseFrame t) where
  scan := by rw [chooseFrame_scan, h.scan]
  claim := by rw [chooseFrame_tunerOf, h.claim]
  begun := h.begun.chooseFrame
  presets := by rw [chooseFrame_tuner, h.presets]
  told := h.told.chooseFrame
  keeps := sent_keeps h.keeps (by simp)

theorem HandedOver.answered {e : ScanEnding} {by_ : Option ScanStopper} (h : HandedOver e by_ s t) (k : RequestKind) (r : Reply) :
    HandedOver e by_ s (answered k r t) where
  scan := by rw [answered_scan, h.scan]
  claim := by rw [answered_tunerOf, h.claim]
  begun := h.begun.answered k r
  presets := by rw [answered_tuner, h.presets]
  told := h.told.answered k r
  keeps := answered_sent_keeps h.keeps (by simp) k r

/-! ### SCAN_START (R112) -/

/-- The scan record of a scan that begins at a step frequency (R112, R113). -/
def Scan.fresh (first : Nat) (found : List (Nat × Nat)) (now : Nat) : Scan :=
  { state := .stepping, step := some first, current := some first, window := none, best := none, finds := 0,
    resume := none, lastEnding := none, stoppedBy := none, found := found, dwellStart := now }

theorem startScan_eq (first : Nat) (found : List (Nat × Nat)) (s : State) : startScan first found s =
    postScan { s with
      tuner := { s.tuner with state := .tuning, synth := some first, failSince := none }, scan := .fresh first found s.now } := rfl

/-- A scan that begins takes the TUNER claim (R104). -/
def takeScan (first : Nat) (found : List (Nat × Nat)) (s : State) : State := setTunerClaim .scan (startScan first found s)

theorem startScan_keeps (first : Nat) (found : List (Nat × Nat)) (s : State) :
    KeepsBut [.tuner, .scan, .sending] s (startScan first found s) := by
  rw [startScan_eq]
  refine KeepsBut.after ((postScan_keeps _).mono (by simp)) ⟨fun q hq => ?_⟩
  cases q <;> simp_all [SamePart]

/-- What an accepted SCAN_START leaves. -/
structure ScanBegun (first : Nat) (found : List (Nat × Nat)) (s t : State) : Prop where
  claim : t.tunerOf = .scan
  scan  : t.scan = .fresh first found s.now
  tuner : t.tuner = { s.tuner with state := .tuning, synth := some first, failSince := none }
  told  : ScanTold t
  tune  : s.tunerOf ≠ .scan → TuneTold t
  keeps : KeepsBut [.tuner, .scan, .tunerOf, .sending] s t

theorem takeScan_begun (hb : s.power.state ≠ .backup) (first : Nat) (found : List (Nat × Nat)) (k : RequestKind) (r : Reply) :
    ScanBegun first found s (answered k r (takeScan first found s)) := by
  have started := startScan_keeps first found s
  have told : ScanTold (startScan first found s) := postScan_told (s := { s with tuner := _, scan := _ }) hb
  exact {
    claim := by simp [takeScan]
    scan := by simp [takeScan, startScan_eq]
    tuner := by simp [takeScan, startScan_eq]
    told := (told.setTunerClaim _).answered k r
    tune := fun other => (setTunerClaim_told (by rw [started.power]; exact hb) (by rw [started.tunerOf]; exact other)).answered k r
    keeps := answered_sent_keeps ((started.mono (by simp)).trans ((setTunerClaim_keeps .scan _).mono (by simp))) (by simp) k r }

/-- The checks of R112 but for the last, a RESUME with no resume point. -/
def scanChecks (s : State) : List (Bool × Status) :=
  [(s.inStandby, .notReady), (s.tunerOf.isTimer, .busyTimer), (s.scan.inFlight, .busy)]

theorem scanStartRequest_fresh (s : State) :
    scanStartRequest 1 s = checked (scanChecks s) s (answer .accepted (takeScan 900 [] s)) := by
  simp only [scanChecks, checked_cons, checked_nil]
  rfl

theorem scanStartRequest_resume (s : State) : scanStartRequest 2 s =
    checked (scanChecks s ++ [(s.scan.resume == none, .noSuch)]) s
      (answer .accepted (takeScan (s.scan.resume.getD 0) s.scan.found s)) := by
  have asked : scanStartRequest 2 s = checked (scanChecks s) s (match s.scan.resume with
      | none => answer .noSuch s
      | some f => answer .accepted (takeScan f s.scan.found s)) := by
    simp only [scanChecks, checked_cons, checked_nil]
    rfl
  rw [asked]
  simp only [scanChecks, List.cons_append, List.nil_append, checked_cons, checked_nil]
  cases s.scan.resume <;> rfl

/-! ### The statement -/

/-- Settles O43: an accepted start sets the record up and takes the claim, and a stop hands both over. -/
theorem scanServed : Obligations.ScanServed := by
  intro s hs begun checks
  have hb := hs.runs
  have fresh : ∀ {st u}, scanStartRequest 1 s = answer st u → exec .scanStartFresh s = .next (answered .scanStart { status := st } u) :=
    fun asked => exec_served hs rfl rfl rfl asked
  have resumes : ∀ {st u}, scanStartRequest 2 s = answer st u → exec .scanStartResume s = .next (answered .scanStart { status := st } u) :=
    fun asked => exec_served hs rfl rfl rfl asked
  have begins : ∀ {first found o}, o = .next (answered .scanStart { status := .accepted } (takeScan first found s)) → begun first found o := by
    rintro first found _ rfl
    have starts := takeScan_begun hb first found .scanStart { status := .accepted }
    exact ⟨_, rfl, replied_answered .scanStart { status := .accepted } _, starts.claim, starts.scan, starts.tuner, starts.told, starts.tune,
      starts.keeps⟩
  refine ⟨fun st refused => fresh ((scanStartRequest_fresh s).trans (checked_refused refused)),
    fun passed => begins (fresh ((scanStartRequest_fresh s).trans (checked_taken passed))),
    fun st refused => resumes ((scanStartRequest_resume s).trans (checked_refused refused)), fun f point passed => ?_, fun idle => ?_,
    fun flying => ?_⟩
  · have all : firstFailing (scanChecks s ++ [(s.scan.resume == none, .noSuch)]) = none := by
      rw [firstFailing_append, show firstFailing (scanChecks s) = none from passed, point]
      rfl
    have taken := (scanStartRequest_resume s).trans (checked_taken all)
    rw [point] at taken
    exact begins (resumes taken)
  · have nothing : scanStopRequest s = answer .noSuch s := by simp [scanStopRequest, Scan.inFlight, idle]
    exact exec_served hs rfl rfl rfl nothing
  · have stopped : scanStopRequest s = answer .ok (endScanToDirect .stopped (some .scanStop) s) := by
      simp [scanStopRequest, Scan.inFlight, flying]
    have hands := (endScanToDirect_hands hb .stopped (some .scanStop)).answered .scanStop { status := .ok }
    exact ⟨_, exec_served hs rfl rfl rfl stopped, replied_answered .scanStop { status := .ok } _, hands.claim, hands.scan, hands.begun,
      hands.presets, hands.told, hands.keeps⟩

end Sys2Proof.Machine
end

section
/-! O44: the end of a dwell in STEPPING and in PEAK_SEARCH (R104, R113 to R117). -/

namespace Sys2Proof.Machine

variable {s t u v : State}

/-! ### The found list (R115) -/

/-- Two frequencies less than 20 channel steps apart conflict. -/
theorem conflicts_eq (x : Nat) (e : Nat × Nat) : conflicts x e = !(decide (e.1 + 20 ≤ x) || decide (x + 20 ≤ e.1)) := by
  simp only [conflicts, Bool.not_or, ← decide_not, Nat.not_le]

/-- The entries that a find at a frequency conflicts with. -/
def rivals (x : Nat) (l : List (Nat × Nat)) : List (Nat × Nat) :=
  l.filter fun e => !(decide (e.1 + 20 ≤ x) || decide (x + 20 ≤ e.1))

/-- The entries that a find at a frequency leaves in their places. -/
def others (x : Nat) (l : List (Nat × Nat)) : List (Nat × Nat) := l.filter fun e => decide (e.1 + 20 ≤ x) || decide (x + 20 ≤ e.1)

theorem rivals_eq (x : Nat) (l : List (Nat × Nat)) : l.filter (conflicts x) = rivals x l := by simp only [rivals, ← conflicts_eq]

theorem others_eq (x : Nat) (l : List (Nat × Nat)) : (l.filter fun e => !conflicts x e) = others x l := by
  simp only [others, conflicts_eq, Bool.not_not]

theorem rivals_others_length (x : Nat) (l : List (Nat × Nat)) : l.length = (rivals x l).length + (others x l).length := by
  rw [← rivals_eq, ← others_eq]
  exact List.length_eq_length_filter_add (conflicts x)

theorem insertEntry_perm (e : Nat × Nat) (l : List (Nat × Nat)) : (insertEntry e l).Perm (e :: l) := by
  induction l with
  | nil => exact .refl _
  | cons h t ih =>
    unfold insertEntry
    split
    · exact .refl _
    · exact (ih.cons h).trans (.swap ..)

theorem enterFind_discards {x strength : Nat} {l : List (Nat × Nat)}
    (h : ((rivals x l).all fun e => decide (e.2 < strength)) = false) : enterFind x strength l = none := by
  rw [enterFind, rivals_eq]
  exact if_neg (by rw [h]; decide)

theorem enterFind_enters {x strength : Nat} {l : List (Nat × Nat)} (beats : ((rivals x l).all fun e => decide (e.2 < strength)) = true)
    (room : l.length ≤ 98 ∨ rivals x l ≠ []) : enterFind x strength l = some (insertEntry (x, strength) (others x l)) := by
  rw [enterFind, rivals_eq, others_eq]
  have place : ¬ (rivals x l = [] ∧ 99 ≤ l.length) := by
    rintro ⟨none_, full⟩
    rcases room with short | some_
    · omega
    · exact some_ none_
  exact (if_pos beats).trans (if_neg place)

/-- The list grows to ninety-nine entries by the find that conflicts with none of ninety-eight (R115, R116). -/
theorem entered_full (x strength : Nat) (l : List (Nat × Nat)) :
    (decide (l.length < (insertEntry (x, strength) (others x l)).length) &&
      (insertEntry (x, strength) (others x l)).length == 99) = true ↔ rivals x l = [] ∧ l.length = 98 := by
  have parts := rivals_others_length x l
  rw [insertEntry_length, Bool.and_eq_true, decide_eq_true_eq, beq_iff_eq, ← List.length_eq_zero_iff]
  omega

/-! ### The walk goes on, or ends (R113, R116, R117) -/

/-- A state on the way from a dwell's end to the next step: the scan holds a found list and a number of finds, and nothing is decided. -/
structure Walking (found : List (Nat × Nat)) (finds : Nat) (s v : State) : Prop where
  runs  : v.power.state ≠ .backup
  found : v.scan.found = found
  finds : v.scan.finds = finds
  keeps : KeepsBut [.time, .nav, .scan, .sending] s v

/-- The walk has gone on to a step frequency (R113). -/
structure SteppedTo (f : Nat) (found : List (Nat × Nat)) (finds : Nat) (s t : State) : Prop where
  state   : t.scan.state = .stepping
  step    : t.scan.step = some f
  current : t.scan.current = some f
  synth   : t.tuner.synth = some f
  window  : t.scan.window = none
  found   : t.scan.found = found
  dwell   : t.scan.dwellStart = t.now
  keeps   : KeepsBut [.time, .nav, .tuner, .scan, .sending] s t
  finds   : t.scan.finds = finds

/-- The walk has come to an end of its own (R117). -/
structure WalkEnded (e : ScanEnding) (found : List (Nat × Nat)) (finds : Nat) (s t : State) : Prop where
  scan    : ∃ c : Scan, c.found = found ∧ c.finds = finds ∧ t.scan = { c.ended e none with resume := none }
  claim   : t.tunerOf = .direct
  begun   : TuningBegun s.tuner.selection s t
  presets : t.tuner.presets = s.tuner.presets
  told    : ScanTold t
  keeps   : KeepsBut [.time, .nav, .tuner, .scan, .tunerOf, .sending] s t

theorem WalkEnded.found {e : ScanEnding} {found : List (Nat × Nat)} {finds : Nat} (h : WalkEnded e found finds s t) : t.scan.found = found := by
  obtain ⟨c, found, -, scan⟩ := h.scan
  rw [scan]
  exact found

theorem WalkEnded.finds {e : ScanEnding} {found : List (Nat × Nat)} {finds : Nat} (h : WalkEnded e found finds s t) : t.scan.finds = finds := by
  obtain ⟨c, -, finds, scan⟩ := h.scan
  rw [scan]
  exact finds

section
variable {found : List (Nat × Nat)} {finds : Nat} (h : Walking found finds s v)
include h

theorem Walking.steps (f : Nat) : SteppedTo f found finds s (chooseFrame (stepScan f v)) where
  state := by simp [stepScan, loadScan]
  step := by simp [stepScan, loadScan]
  current := by simp [stepScan, loadScan]
  synth := by simp [stepScan, loadScan]
  window := by simp [stepScan, loadScan]
  found := by simp [stepScan, loadScan, h.found]
  dwell := by simp [stepScan, loadScan]
  keeps := sent_keeps ((h.keeps.mono (by simp)).trans ((stepScan_keeps f v).mono (by simp))) (by simp)
  finds := by simp [stepScan, loadScan, h.finds]

theorem Walking.ends {e : ScanEnding} (own : e = .complete ∨ e = .full) :
    WalkEnded e found finds s (chooseFrame (endScanToDirect e none v)) := by
  have hands := (endScanToDirect_hands h.runs e none).chooseFrame
  have tuner := h.keeps.tuner
  have begun := hands.begun.since (s := s) (by rw [tuner])
  rw [tuner] at begun
  exact {
    scan := ⟨v.scan, h.found, h.finds, by rw [hands.scan, Scan.ended, if_pos own]⟩
    claim := hands.claim
    begun := begun
    presets := hands.presets.trans (by rw [tuner])
    told := hands.told
    keeps := (h.keeps.mono (by simp)).trans (hands.keeps.mono (by simp)) }

/-- The walk goes on to the next step frequency, the last at 17,200, after which the scan is complete (R113, R117). -/
theorem Walking.walks (f : Nat) :
    (f < 17200 → SteppedTo (min (f + 5) 17200) found finds s (chooseFrame (walkOn f v))) ∧
      (17200 ≤ f → WalkEnded .complete found finds s (chooseFrame (walkOn f v))) := by
  refine ⟨fun more => ?_, fun last => ?_⟩
  · rw [walkOn, if_pos (show f < Config.highestFrequency from more)]
    exact h.steps _
  · rw [walkOn, if_neg (show ¬ f < Config.highestFrequency from Nat.not_lt.mpr last)]
    exact h.ends (.inl rfl)

/-- The walk goes on past a find (R116). -/
theorem Walking.passes (f x : Nat) :
    (max (x + 20) (f + 5) ≤ 17200 → SteppedTo (max (x + 20) (f + 5)) found finds s (chooseFrame (passFind f x v))) ∧
      (17200 < max (x + 20) (f + 5) → WalkEnded .complete found finds s (chooseFrame (passFind f x v))) := by
  have pass : passFind f x v = if 17200 < max (x + 20) (f + 5) then endScanToDirect .complete none v else stepScan (max (x + 20) (f + 5)) v := rfl
  rw [pass]
  refine ⟨fun more => ?_, fun past => ?_⟩
  · rw [if_neg (Nat.not_lt.mpr more)]
    exact h.steps _
  · rw [if_pos past]
    exact h.ends (.inl rfl)

end

/-! ### The dwell in STEPPING (R113) -/

theorem walkOn_keeps (f : Nat) (s : State) : KeepsBut [.tuner, .scan, .tunerOf, .sending] s (walkOn f s) := by
  unfold walkOn
  split
  · exact (stepScan_keeps ..).mono (by simp)
  · exact endScanToDirect_keeps ..

theorem beginPeak_keeps (f : Nat) (s : State) : KeepsBut [.tuner, .scan, .tunerOf, .sending] s (beginPeak f s) :=
  ((withScan_keeps { s.scan with
    state := .peakSearch, window := some (Nat.max (f - 20) 900, Nat.min (f + 20) 17200), best := none } s).mono (by simp)).trans
    ((loadScan_keeps ..).mono (by simp))

theorem stepRead_keeps (s : State) : KeepsBut [.tuner, .scan, .tunerOf, .sending] s (stepRead s) := by
  unfold stepRead
  split
  · exact .refl _ _
  · split
    · exact beginPeak_keeps ..
    · exact walkOn_keeps ..

theorem stepRead_at {f : Nat} (h : s.scan.step = some f) :
    stepRead s = if 6 ≤ s.pins.strength.toNat then beginPeak f s else walkOn f s := by rw [stepRead, h]

/-! ### The dwell in PEAK_SEARCH (R114 to R116) -/

theorem passFind_keeps (f x : Nat) (s : State) : KeepsBut [.tuner, .scan, .tunerOf, .sending] s (passFind f x s) := by
  simp only [passFind]
  split
  · exact endScanToDirect_keeps ..
  · exact (stepScan_keeps ..).mono (by simp)

/-- The found list is written and the find counted, with the SCAN note (R115). -/
def enterFound (found : List (Nat × Nat)) (s : State) : State :=
  postScan { s with scan := { s.scan with found := found, finds := min 255 (s.scan.finds + 1) } }

theorem enterFound_keeps (found : List (Nat × Nat)) (s : State) : KeepsBut [.scan, .sending] s (enterFound found s) :=
  ((withScan_keeps _ s).mono (by simp)).trans ((postScan_keeps _).mono (by simp))

theorem concludePeak_faded {f : Nat} {best : Nat × Nat} (h : best.2 < 6) : concludePeak f best s = walkOn f s := if_pos h

theorem concludePeak_found {f : Nat} {best : Nat × Nat} (h : 6 ≤ best.2) : concludePeak f best s =
    match enterFind best.1 best.2 s.scan.found with
    | none => passFind f best.1 s
    | some found =>
      if decide (s.scan.found.length < found.length) && found.length == 99 then endScanToDirect .full none (enterFound found s)
      else passFind f best.1 (enterFound found s) := by
  rw [concludePeak, if_neg (Nat.not_lt.mpr h)]
  cases enterFind best.1 best.2 s.scan.found <;> rfl

theorem concludePeak_keeps (f : Nat) (best : Nat × Nat) (s : State) :
    KeepsBut [.tuner, .scan, .tunerOf, .sending] s (concludePeak f best s) := by
  rcases Nat.lt_or_ge best.2 6 with faded | found
  · rw [concludePeak_faded faded]
    exact walkOn_keeps ..
  · rw [concludePeak_found found]
    split
    · exact passFind_keeps ..
    · have entered := fun l => (enterFound_keeps l s).mono (m := [.tuner, .scan, .tunerOf, .sending]) (by simp)
      split
      · exact (entered _).trans (endScanToDirect_keeps ..)
      · exact (entered _).trans (passFind_keeps ..)

theorem peakRead_at {f c : Nat} {w : Nat × Nat} (step : s.scan.step = some f) (current : s.scan.current = some c)
    (window : s.scan.window = some w) : peakRead s =
      let best := betterReading s.scan.best (c, s.pins.strength.toNat)
      if c < w.2 then loadScan (c + 1) { s with scan.best := some best } else concludePeak f best { s with scan.best := some best } := by
  rw [peakRead, step, current, window]

theorem peakRead_keeps (s : State) : KeepsBut [.tuner, .scan, .tunerOf, .sending] s (peakRead s) := by
  have read : ∀ b, KeepsBut [.tuner, .scan, .tunerOf, .sending] s { s with scan.best := some b } := fun b =>
    (withScan_keeps { s.scan with best := some b } s).mono (by simp)
  simp only [peakRead]
  split
  · split
    · exact (read _).trans ((loadScan_keeps ..).mono (by simp))
    · exact (read _).trans (concludePeak_keeps ..)
  · exact .refl _ _

/-- A find that beats its rivals is entered, and ends the scan or is passed (R115, R116). -/
theorem Walking.enters {l : List (Nat × Nat)} {n : Nat} (h : Walking l n s v) (f : Nat) {best : Nat × Nat} (found : 6 ≤ best.2)
    (beats : ((rivals best.1 l).all fun e => decide (e.2 < best.2)) = true) (room : l.length ≤ 98 ∨ rivals best.1 l ≠ []) :
    let grown := insertEntry best (others best.1 l)
    let finds := min 255 (n + 1)
    let t := chooseFrame (concludePeak f best v)
    let next := max (best.1 + 20) (f + 5)
    t.scan.found = grown ∧ t.scan.finds = finds ∧
      (rivals best.1 l = [] ∧ l.length = 98 → WalkEnded .full grown finds s t) ∧
      (¬ (rivals best.1 l = [] ∧ l.length = 98) →
        (next ≤ 17200 → SteppedTo next grown finds s t) ∧ (17200 < next → WalkEnded .complete grown finds s t)) := by
  intro grown finds t next
  have entered : Walking grown finds s (enterFound grown v) := {
    runs := by rw [(enterFound_keeps _ _).power]; exact h.runs
    found := by simp [enterFound]
    finds := by simp [enterFound, h.finds, finds]
    keeps := h.keeps.trans ((enterFound_keeps _ _).mono (by simp)) }
  have conclude : concludePeak f best v = if rivals best.1 l = [] ∧ l.length = 98 then endScanToDirect .full none (enterFound grown v)
      else passFind f best.1 (enterFound grown v) := by
    rw [concludePeak_found found, h.found, enterFind_enters beats room]
    exact if_congr (entered_full best.1 best.2 l) rfl rfl
  by_cases full : rivals best.1 l = [] ∧ l.length = 98
  · have ends : WalkEnded .full grown finds s t := by
      simp only [t, conclude, if_pos full]
      exact entered.ends (.inr rfl)
    exact ⟨ends.found, ends.finds, fun _ => ends, fun short => absurd full short⟩
  · have passes := entered.passes f best.1
    rw [show passFind f best.1 (enterFound grown v) = concludePeak f best v by rw [conclude, if_neg full]] at passes
    rcases Nat.lt_or_ge 17200 next with past | more
    · exact ⟨(passes.2 past).found, (passes.2 past).finds, fun c => absurd c full, fun _ => passes⟩
    · exact ⟨(passes.1 more).found, (passes.1 more).finds, fun c => absurd c full, fun _ => passes⟩

/-! ### The statement -/

theorem exec_scanDwellEnd (h : s.scan.state = .stepping) :
    exec .scanDwellEnd s = .next (timerEvent (some (s.scan.dwellStart + 60 * 12288)) stepRead s) := by
  refine congrArg (fun l => Host.Outcome.next (timerEvent l stepRead s)) ?_
  rw [State.dwellLimit, h]
  rfl

theorem exec_peakDwellEnd (h : s.scan.state = .peakSearch) :
    exec .peakDwellEnd s = .next (timerEvent (some (s.scan.dwellStart + 60 * 12288)) peakRead s) := by
  refine congrArg (fun l => Host.Outcome.next (timerEvent l peakRead s)) ?_
  rw [State.dwellLimit, h]
  rfl

theorem beginPeak_scan (f : Nat) (s : State) : (chooseFrame (beginPeak f s)).scan = { s.scan with
    state := .peakSearch, window := some (max (f - 20) 900, min (f + 20) 17200), current := some (max (f - 20) 900), best := none
    dwellStart := s.now } := by
  rw [chooseFrame_scan]
  rfl

theorem beginPeak_synth (f : Nat) (s : State) : (chooseFrame (beginPeak f s)).tuner.synth = some (max (f - 20) 900) := by
  rw [chooseFrame_tuner]
  rfl

theorem loadScan_scan (f : Nat) (s : State) :
    (chooseFrame (loadScan f s)).scan = { s.scan with current := some f, dwellStart := s.now } := by
  rw [chooseFrame_scan]
  rfl

theorem loadScan_synth (f : Nat) (s : State) : (chooseFrame (loadScan f s)).tuner.synth = some f := by
  rw [chooseFrame_tuner]
  rfl

/-- A dwell in PEAK_SEARCH notes its reading, and either loads the next frequency of the window or has the search concluded (R114). -/
theorem peakRead_notes {f c : Nat} {w best : Nat × Nat} (at_ : s.scan.step = some f) (current : s.scan.current = some c)
    (window : s.scan.window = some w) (reading : betterReading s.scan.best (c, s.pins.strength.toNat) = best)
    (leap : KeepsBut [.time, .nav] s v) (runs : v.power.state ≠ .backup) :
    ∃ u : State, u.scan = { s.scan with best := some best } ∧ Walking s.scan.found s.scan.finds s u ∧
      peakRead v = if c < w.2 then loadScan (c + 1) u else concludePeak f best u := by
  have scan := leap.scan
  refine ⟨{ v with scan.best := some best }, by rw [← scan], ⟨runs, by rw [← scan], by rw [← scan], ?_⟩, ?_⟩
  · exact (leap.mono (by simp)).trans ((withScan_keeps { v.scan with best := some best } v).mono (by simp))
  · rw [← scan] at at_ current window reading
    rw [← leap.pins] at reading
    rw [peakRead_at at_ current window, reading]

/-- Settles O44: a dwell's end begins a peak search, loads the next frequency, or has the walk go on from the state it finds. -/
theorem scanWalks : Obligations.ScanWalks := by
  intro s hb hd ahead x step ended
  have stepped : ∀ {f found finds t}, SteppedTo f found finds s t → step f found t := fun h =>
    ⟨h.state, h.step, h.current, h.synth, h.window, h.found, h.dwell, h.keeps⟩
  have finished : ∀ {e found finds t}, WalkEnded e found finds s t → ended e found t := by
    intro e found finds t h
    obtain ⟨c, hc, -, scan⟩ := h.scan
    simp only [ended, scan, Scan.ended, hc, true_and]
    exact ⟨h.claim, h.begun, h.presets, h.told, h.keeps⟩
  refine ⟨fun stepping f at_ => ?_, fun searching f at_ c current w window => ?_⟩
  · obtain ⟨v, timed⟩ := tunerTimer hb hd.undue stepRead_keeps ahead
    have acts := (exec_scanDwellEnd stepping).trans (congrArg _ timed.acts)
    have scan := timed.leap.scan
    have walking : Walking s.scan.found s.scan.finds s v := ⟨timed.runs, by rw [scan], by rw [scan], timed.leap.mono (by simp)⟩
    have read : stepRead v = if 6 ≤ x then beginPeak f v else walkOn f v := by
      rw [stepRead_at (scan.symm ▸ at_), timed.leap.pins]
    have now : (chooseFrame (stepRead v)).now = v.now := (chooseFrame_now _).trans ((stepRead_keeps v).same .time (by decide)).1
    refine ⟨_, acts, now.trans timed.now, fun strong => ?_, fun weak more => ?_, fun weak last => ?_⟩
    · rw [read, if_pos strong, beginPeak_scan, beginPeak_synth, scan]
      exact ⟨rfl, at_, rfl, rfl, rfl, rfl, by rw [chooseFrame_now]; rfl, rfl⟩
    · rw [read, if_neg (Nat.not_le.mpr weak)]
      exact stepped ((walking.walks f).1 more)
    · rw [read, if_neg (Nat.not_le.mpr weak)]
      exact finished ((walking.walks f).2 last)
  · intro best rivals_ others_ beaten next
    obtain ⟨v, timed⟩ := tunerTimer hb hd.undue peakRead_keeps ahead
    have acts := (exec_peakDwellEnd searching).trans (congrArg _ timed.acts)
    obtain ⟨u, noted, walking, read⟩ := peakRead_notes (best := best) at_ current window rfl timed.leap timed.runs
    have now : (chooseFrame (peakRead v)).now = v.now := (chooseFrame_now _).trans ((peakRead_keeps v).same .time (by decide)).1
    refine ⟨_, acts, now.trans timed.now, fun inside => ?_, fun past weak more => ?_, fun past weak last => ?_, fun past strong lost => ?_,
      fun past strong beats room => ?_⟩
    · rw [read, if_pos inside, loadScan_scan, loadScan_synth, noted]
      exact ⟨searching, rfl, rfl, rfl, at_, window, rfl⟩
    · rw [read, if_neg (Nat.not_lt.mpr past), concludePeak_faded weak]
      exact stepped ((walking.walks f).1 more)
    · rw [read, if_neg (Nat.not_lt.mpr past), concludePeak_faded weak]
      exact finished ((walking.walks f).2 last)
    · have passed : concludePeak f best u = passFind f best.1 u := by
        rw [concludePeak_found strong, walking.found, enterFind_discards lost]
      rw [read, if_neg (Nat.not_lt.mpr past), passed]
      exact (walking.passes f best.1).imp (stepped ∘ ·) (finished ∘ ·)
    · rw [read, if_neg (Nat.not_lt.mpr past)]
      intro full
      obtain ⟨found, finds, fills, passes⟩ := walking.enters f strong beats room
      rw [found, finds]
      refine ⟨insertEntry_perm _ _, fun spaced => ?_, rfl, finished ∘ fills, fun short => (passes short).imp (stepped ∘ ·) (finished ∘ ·)⟩
      exact enterFind_spaced spaced (enterFind_enters beats room)

end Sys2Proof.Machine
end

section
/-! O45: SCAN_ADOPT of both modes (R102, R103, R120, R121). -/

namespace Sys2Proof.Machine

variable {s t u v : State}

/-! ### The table after a write -/

/-- The machine with another preset table. -/
def State.withTable (s : State) (table : List (Option Preset)) : State := { s with tuner.presets := table }

theorem preset_congr (h : t.tuner.presets = s.tuner.presets) (n : Nat) : t.preset n = s.preset n := by simp only [State.preset, h]

theorem writePreset_preset_same {n : Nat} (lo : 1 ≤ n) (hi : n ≤ 99) (full : s.tuner.presets.length = 99) (p : Preset) :
    (writePreset n p s).preset n = some p := by
  rw [preset_at (by omega), writePreset_presets, List.getElem?_set_self (by omega)]
  rfl

theorem writePreset_preset_other {m n : Nat} (lo : 1 ≤ n) (other : m ≠ n) (p : Preset) : (writePreset n p s).preset m = s.preset m := by
  by_cases zero : m = 0
  · simp [State.preset, zero]
  · rw [preset_at zero, preset_at zero, writePreset_presets, List.getElem?_set_ne (by omega)]

theorem writePreset_length (n : Nat) (p : Preset) (s : State) : (writePreset n p s).tuner.presets.length = s.tuner.presets.length := by
  rw [writePreset_presets, List.length_set]

theorem tuningWrite_keeps (n : Nat) (changed : Bool) (s : State) : KeepsBut [.tuner, .sending] s (tuningWrite n changed s) := by
  unfold tuningWrite
  split
  · exact .refl _ _
  · split
    · exact retune_keeps s
    · exact retune_keeps s
    · exact .refl _ _
    · split
      · exact .refl _ _
      · exact postTuner_keeps ..

theorem writePreset_keeps (n : Nat) (p : Preset) (s : State) : KeepsBut [.tuner, .sending] s (writePreset n p s) :=
  ((withPreset_keeps n (some p) s).mono (by simp)).trans (tuningWrite_keeps ..)

theorem tuningWrite_selection (n : Nat) (changed : Bool) (s : State) :
    (tuningWrite n changed s).tuner.selection = s.tuner.selection := by
  unfold tuningWrite
  split
  · rfl
  · split
    · simp [retune, beginTuning]
    · simp [retune, beginTuning]
    · rfl
    · split <;> simp

theorem writePreset_selection (n : Nat) (p : Preset) (s : State) : (writePreset n p s).tuner.selection = s.tuner.selection :=
  tuningWrite_selection ..

/-! ### The entries that are written -/

/-- Found entries are written into presets, one after another (R120). -/
def writeAll (pairs : List (Nat × (Nat × Nat))) (s : State) : State :=
  pairs.foldl (fun s e => writePreset e.1 (adoptedPreset e.2.1) s) s

@[simp] theorem writeAll_cons (e : Nat × (Nat × Nat)) (l : List (Nat × (Nat × Nat))) (s : State) :
    writeAll (e :: l) s = writeAll l (writePreset e.1 (adoptedPreset e.2.1) s) := rfl

theorem writeAll_append (l m : List (Nat × (Nat × Nat))) (s : State) : writeAll (l ++ m) s = writeAll m (writeAll l s) :=
  List.foldl_append

/-- Entries for presets 1 to 99, each preset once. -/
structure Placed (pairs : List (Nat × (Nat × Nat))) : Prop where
  within : ∀ e ∈ pairs, 1 ≤ e.1 ∧ e.1 ≤ 99
  once   : pairs.Pairwise fun a b => a.1 ≠ b.1

theorem Placed.tail {e : Nat × (Nat × Nat)} {l : List (Nat × (Nat × Nat))} (h : Placed (e :: l)) : Placed l :=
  ⟨fun a ha => h.within a (.tail _ ha), (List.pairwise_cons.mp h.once).2⟩

/-- The entries before and after one of them are for other presets. -/
theorem Placed.split {e : Nat × (Nat × Nat)} {l m : List (Nat × (Nat × Nat))} (h : Placed (l ++ e :: m)) :
    Placed l ∧ Placed m ∧ ∀ a, a ∈ l ∨ a ∈ m → a.1 ≠ e.1 := by
  obtain ⟨front, back, across⟩ := List.pairwise_append.mp h.once
  obtain ⟨apart, rest⟩ := List.pairwise_cons.mp back
  refine ⟨⟨fun a ha => h.within a (by simp [ha]), front⟩, ⟨fun a ha => h.within a (by simp [ha]), rest⟩, fun a ha => ?_⟩
  rcases ha with ha | ha
  · exact across a ha e (.head _)
  · exact (apart a ha).symm

theorem find_none_of_apart {k : Nat} {l : List (Nat × (Nat × Nat))} (h : ∀ a ∈ l, a.1 ≠ k) : l.find? (fun a => a.1 == k) = none := by
  rw [List.find?_eq_none]
  intro a ha
  simpa using h a ha

theorem writeAll_keeps (pairs : List (Nat × (Nat × Nat))) (s : State) : KeepsBut [.tuner, .sending] s (writeAll pairs s) := by
  induction pairs generalizing s with
  | nil => exact .refl _ _
  | cons e l ih => exact (writePreset_keeps ..).trans (ih _)

theorem writeAll_length (pairs : List (Nat × (Nat × Nat))) (s : State) :
    (writeAll pairs s).tuner.presets.length = s.tuner.presets.length := by
  induction pairs generalizing s with
  | nil => rfl
  | cons e l ih => rw [writeAll_cons, ih, writePreset_length]

theorem writeAll_preset {pairs : List (Nat × (Nat × Nat))} (placed : Placed pairs) (full : s.tuner.presets.length = 99) (k : Nat) :
    (writeAll pairs s).preset k = match pairs.find? (fun e => e.1 == k) with
      | some e => some (adoptedPreset e.2.1)
      | none => s.preset k := by
  induction pairs generalizing s with
  | nil => rfl
  | cons e l ih =>
    obtain ⟨lo, hi⟩ := placed.within e (.head _)
    rw [writeAll_cons, ih placed.tail ((writePreset_length ..).trans full), List.find?_cons]
    by_cases here : e.1 = k
    · have later : l.find? (fun a => a.1 == k) = none :=
        find_none_of_apart fun a ha => here ▸ ((List.pairwise_cons.mp placed.once).1 a ha).symm
      rw [later, beq_iff_eq.mpr here, ← here]
      exact writePreset_preset_same lo hi full _
    · rw [beq_eq_false_iff_ne.mpr here, writePreset_preset_other lo (Ne.symm here)]

/-- Where none of the presets written is the one selected, the table alone changes. -/
theorem writeAll_unselected {pairs : List (Nat × (Nat × Nat))} (h : ∀ e ∈ pairs, s.tuner.selection ≠ .preset e.1) :
    writeAll pairs s = s.withTable (writeAll pairs s).tuner.presets := by
  induction pairs generalizing s with
  | nil => rfl
  | cons e l ih =>
    have stands : writePreset e.1 (adoptedPreset e.2.1) s = s.withPreset e.1 (some (adoptedPreset e.2.1)) :=
      writePreset_stands fun c => h e (.head _) c.1
    rw [writeAll_cons, stands]
    exact ih (s := s.withPreset e.1 (some (adoptedPreset e.2.1))) fun a ha => h a (.tail _ ha)

/-! ### The walk of an adoption (R120) -/

theorem writable_congr {replace : Bool} {n : Nat} (entry : t.preset n = s.preset n) (slots : t.sched = s.sched) :
    t.writable replace n = s.writable replace n := by
  simp only [State.writable, entry, State.references, slots]

/-- The walk writes the entries, lowest first, into the writable presets that it meets; the presets it has not come to stay as they were. -/
theorem adoption_walk (replace : Bool) (l : List Nat) (first : ∀ n ∈ l, 1 ≤ n) (once : l.Nodup) (a : Adoption) :
    let pairs := (l.filter fun n => a.state.writable replace n).zip a.left
    l.foldl (adoptStep replace) a =
      { state := writeAll pairs a.state, written := a.written ++ pairs.map (·.1), left := a.left.drop pairs.length } := by
  intro pairs
  induction l generalizing a with
  | nil => simp [pairs, writeAll]
  | cons n l ih =>
    obtain ⟨fresh, rest⟩ := List.nodup_cons.mp once
    have ih := fun b => ih (fun m hm => first m (.tail _ hm)) rest b
    rw [List.foldl_cons, adoptStep]
    cases left : a.left with
    | nil =>
      dsimp only
      rw [ih a]
      simp [pairs, left]
    | cons e es =>
      by_cases free : a.state.writable replace n = true
      · have later : (l.filter fun m => (writePreset n (adoptedPreset e.1) a.state).writable replace m) =
            l.filter fun m => a.state.writable replace m := by
          refine List.filter_congr fun m hm => writable_congr ?_ (writePreset_keeps ..).sched
          exact writePreset_preset_other (first n (.head _)) (fun same => fresh (same ▸ hm)) _
        dsimp only
        rw [if_pos free, ih, later]
        simp [pairs, left, free]
      · dsimp only
        rw [if_neg free, ih a]
        simp [pairs, left, free]

/-! ### The working tuning after an adoption (R102, R103, R120) -/

/-- An adoption writes the preset selected, with other tuning data, while the tuner is powered. -/
def State.adoptionRetunes (s : State) (pairs : List (Nat × (Nat × Nat))) : Prop :=
  ∃ e ∈ pairs, s.retunes e.1 (adoptedPreset e.2.1)

theorem TuningBegun.withTable {sel : Selection} (h : TuningBegun sel s t) {table : List (Option Preset)}
    (entry : ∀ n, sel = .preset n → (t.withTable table).preset n = t.preset n) : TuningBegun sel s (t.withTable table) :=
  ⟨h.selection, h.state, h.start, h.unsettled, h.correction, h.limit, h.copy, h.kept, h.line,
    fun n same p used => h.preset n same p (entry n same ▸ used), h.direct, Announced.of h.note rfl rfl⟩

/-- A write between two states that differ from what it met and left in the table of other presets alone. -/
theorem TableWritten.around {c : Prop} {before after : List (Option Preset)} (h : TableWritten c (s.withTable before) u)
    (keeps : KeepsBut [.tuner, .sending] s (u.withTable after))
    (entry : ∀ n, s.tuner.selection = .preset n → (u.withTable after).preset n = u.preset n) : TableWritten c s (u.withTable after) where
  retuned concerned free := TuningBegun.withTable ((h.retuned concerned free).since rfl) entry
  staled concerned timer := by
    obtain ⟨record, told⟩ := h.staled concerned timer
    exact ⟨by rw [State.withTable, record]; rfl, fun current => Announced.of (told current) rfl rfl⟩
  stands other := by
    rw [State.withTable, h.stands other]
    rfl
  keeps := keeps

theorem rewrites_adopted (n frequency : Nat) (s : State) : s.rewrites n (adoptedPreset frequency) =
    (s.preset n).all fun q => q.frequency != frequency || q.fineTune != 0 || !q.aft := by
  simp [State.rewrites, adoptedPreset]

theorem retunes_congr {n : Nat} {p : Preset} (selection : t.tuner.selection = s.tuner.selection) (state : t.tuner.state = s.tuner.state)
    (entry : t.preset n = s.preset n) : t.retunes n p ↔ s.retunes n p := by
  simp only [State.retunes, State.rewrites, selection, state, entry]

theorem writeAll_written (hb : s.power.state ≠ .backup) {pairs : List (Nat × (Nat × Nat))} (placed : Placed pairs)
    (full : s.tuner.presets.length = 99) : TableWritten (s.adoptionRetunes pairs) s (writeAll pairs s) := by
  by_cases selected : ∃ e ∈ pairs, s.tuner.selection = .preset e.1
  · obtain ⟨e, he, same⟩ := selected
    obtain ⟨l, m, rfl⟩ := List.append_of_mem he
    obtain ⟨front, back, apart⟩ := placed.split
    obtain ⟨v, hv⟩ : ∃ v, v = writeAll l s := ⟨_, rfl⟩
    obtain ⟨u, hu⟩ : ∃ u, u = writePreset e.1 (adoptedPreset e.2.1) v := ⟨_, rfl⟩
    have elsewhere : ∀ a, a ∈ l ∨ a ∈ m → s.tuner.selection ≠ .preset a.1 := fun a ha other =>
      apart a ha (Selection.preset.inj (other.symm.trans same))
    have before : v = s.withTable v.tuner.presets := hv ▸ writeAll_unselected fun a ha => elsewhere a (.inl ha)
    have entry : v.preset e.1 = s.preset e.1 := by
      rw [hv, writeAll_preset front full, find_none_of_apart fun a ha => apart a (.inl ha)]
    have selection : u.tuner.selection = s.tuner.selection := by rw [hu, writePreset_selection, before]; rfl
    have after : writeAll m u = u.withTable (writeAll m u).tuner.presets :=
      writeAll_unselected fun a ha => by rw [selection]; exact elsewhere a (.inr ha)
    have length : u.tuner.presets.length = 99 := by rw [hu, writePreset_length, hv, writeAll_length, full]
    have concerned : s.adoptionRetunes (l ++ e :: m) ↔ (s.withTable v.tuner.presets).retunes e.1 (adoptedPreset e.2.1) := by
      rw [← before, retunes_congr (s := s) (by rw [before]; rfl) (by rw [before]; rfl) entry]
      refine ⟨fun ⟨a, ha, c⟩ => ?_, fun c => ⟨e, he, c⟩⟩
      rcases List.mem_append.mp ha with ha | ha
      · exact absurd c.1 (elsewhere a (.inl ha))
      · rcases List.mem_cons.mp ha with rfl | ha
        · exact c
        · exact absurd c.1 (elsewhere a (.inr ha))
    have written : TableWritten (s.adoptionRetunes (l ++ e :: m)) (s.withTable v.tuner.presets) u := by
      rw [propext concerned, ← before, hu]
      exact writePreset_written (by rw [before]; exact hb) _ _
    have keeps := writeAll_keeps (l ++ e :: m) s
    rw [writeAll_append, writeAll_cons, ← hv, ← hu] at keeps ⊢
    rw [after] at keeps ⊢
    refine written.around keeps fun n chosen => ?_
    obtain rfl : e.1 = n := Selection.preset.inj (same.symm.trans chosen)
    rw [← after, writeAll_preset back length, find_none_of_apart fun a ha => apart a (.inr ha)]
  · have unselected : ∀ e ∈ pairs, s.tuner.selection ≠ .preset e.1 := fun e he same => selected ⟨e, he, same⟩
    refine .ofTable (.inl fun ⟨e, he, c⟩ => unselected e he c.1) ?_ (writeAll_keeps pairs s)
    rw [writeAll_unselected unselected]
    rfl

/-! ### The request (R120) -/

/-- The presets that an adoption from p upward may write, in order. -/
def State.places (s : State) (replace : Bool) (p : Nat) : List Nat :=
  (List.range 100).filter fun n => decide (p ≤ n) && s.writable replace n

theorem places_eq {p : Nat} (hi : p ≤ 100) (replace : Bool) (s : State) :
    s.places replace p = ((List.range (100 - p)).map (p + ·)).filter fun n => s.writable replace n := by
  have split_ : List.range 100 = List.range p ++ (List.range (100 - p)).map (p + ·) := by
    rw [← List.range_add, Nat.add_sub_cancel' hi]
  have below : (List.range p).filter (fun n => decide (p ≤ n) && s.writable replace n) = [] := by
    rw [List.filter_eq_nil_iff]
    intro n hn
    simp [List.mem_range.mp hn]
  rw [State.places, split_, List.filter_append, below, List.nil_append]
  refine List.filter_congr fun n hn => ?_
  obtain ⟨k, -, rfl⟩ := List.mem_map.mp hn
  simp

/-- The presets written with the entries that they take. -/
def State.adoptedPairs (s : State) (replace : Bool) (p : Nat) : List (Nat × (Nat × Nat)) := (s.places replace p).zip s.scan.found

theorem adopt_eq {p : Nat} (lo : 1 ≤ p) (hi : p ≤ 99) (replace : Bool) (s : State) : adopt replace p s =
    { state := writeAll (s.adoptedPairs replace p) s, written := (s.adoptedPairs replace p).map (·.1),
      left := s.scan.found.drop (s.adoptedPairs replace p).length } := by
  have walked := adoption_walk replace ((List.range (100 - p)).map (p + ·))
    (fun n hn => by obtain ⟨k, -, rfl⟩ := List.mem_map.mp hn; omega)
    (List.nodup_range.map fun a b same => Nat.add_left_cancel same) { state := s, written := [], left := s.scan.found }
  rw [adopt, walked, State.adoptedPairs, places_eq (by omega)]
  rfl

theorem zip_once {l : List Nat} {m : List (Nat × Nat)} (h : l.Nodup) : (l.zip m).Pairwise fun a b => a.1 ≠ b.1 := by
  induction l generalizing m with
  | nil => exact .nil
  | cons n l ih =>
    obtain ⟨fresh, rest⟩ := List.nodup_cons.mp h
    cases m with
    | nil => exact .nil
    | cons e m =>
      refine List.pairwise_cons.mpr ⟨fun a ha same => fresh ?_, ih rest⟩
      rw [show n = a.1 from same]
      exact (List.of_mem_zip ha).1

theorem adoptedPairs_placed {p : Nat} (lo : 1 ≤ p) (replace : Bool) (s : State) : Placed (s.adoptedPairs replace p) := by
  refine ⟨fun e he => ?_, zip_once (List.nodup_range.filter _)⟩
  obtain ⟨place, passes⟩ := List.mem_filter.mp (List.of_mem_zip he).1
  rw [Bool.and_eq_true, decide_eq_true_eq] at passes
  have := List.mem_range.mp place
  omega

/-- The checks of R120. -/
def adoptChecks (p : Nat) (s : State) : List (Bool × Status) :=
  [(decide (p < 1) || decide (99 < p), .range), (s.scan.inFlight, .busy), (s.scan.found.isEmpty, .noSuch)]

/-- The counts and the ends of the presets written (R120). -/
def adoptReply (pairs : List (Nat × (Nat × Nat))) (s : State) : Reply :=
  { status := .ok
    fields := [byteOf pairs.length, byteOf (s.scan.found.length - pairs.length), byteOf ((pairs.map (·.1)).head?.getD 0),
      byteOf ((pairs.map (·.1)).getLast?.getD 0)] }

theorem scanAdoptRequest_eq {first mode : Byte} (known : mode = 1 ∨ mode = 2) (s : State) :
    scanAdoptRequest first mode s = checked (adoptChecks first.toNat s) s
      (writeAll (s.adoptedPairs (mode == 1) first.toNat) s, adoptReply (s.adoptedPairs (mode == 1) first.toNat) s) := by
  have mode_ : ¬ (mode ≠ 1 ∧ mode ≠ 2) := by tauto
  simp only [adoptChecks, checked_cons, checked_nil, ← Bool.decide_or, decide_eq_true_eq]
  by_cases outside : first.toNat < 1 ∨ 99 < first.toNat
  · rw [if_pos outside, scanAdoptRequest, presetOf_outside outside]
  · rw [if_neg outside, scanAdoptRequest, presetOf_within (by omega) (by omega)]
    simp only [mode_, if_false, adopt_eq (p := first.toNat) (by omega) (by omega), List.isEmpty_iff, adoptReply, List.length_map, List.length_drop]

/-- Settles O45: the walk is the writing of the entries it places, and the working tuning hears of the one for the preset selected. -/
theorem scanAdopts : Obligations.ScanAdopts := by
  intro s hs full first p checks adopted
  have adopts : ∀ {mode : Byte} {c : Instr}, mode = 1 ∨ mode = 2 → exec c s = .next (requestFrame .scanAdopt [first, mode] s) →
      adopted (mode == 1) (exec c s) := by
    intro mode c known frame
    dsimp -zeta only [adopted]
    intro writable places pairs written
    have same : pairs = s.adoptedPairs (mode == 1) p := rfl
    have asked : serve .scanAdopt [first, mode] s =
        checked (adoptChecks p s) s (writeAll (s.adoptedPairs (mode == 1) p) s, adoptReply (s.adoptedPairs (mode == 1) p) s) :=
      scanAdoptRequest_eq known s
    refine ⟨fun st refused => exec_served hs frame rfl rfl (asked.trans (checked_refused refused)), fun passed => ?_⟩
    have lo : 1 ≤ p := by
      by_contra zero
      simp [checks, show p < 1 by omega] at passed
    have placed := adoptedPairs_placed lo (mode == 1) s
    have table := (writeAll_written hs.runs placed full).answered .scanAdopt (adoptReply pairs s)
    refine ⟨_, exec_served hs frame rfl rfl (asked.trans (checked_taken passed)), replied_answered .scanAdopt _ _, fun k _ => ?_, ?_, table.keeps⟩
    · rw [preset_congr (congrArg Tuner.presets (answered_tuner ..)), writeAll_preset placed full]
      rfl
    · intro tuningWrite
      have concerned : s.adoptionRetunes pairs ↔ tuningWrite := by
        simp only [State.adoptionRetunes, State.retunes, rewrites_adopted]
        exact ⟨fun ⟨e, he, chosen, on, changed⟩ => ⟨on, e, he, chosen, changed⟩, fun ⟨on, e, he, chosen, changed⟩ => ⟨e, he, chosen, on, changed⟩⟩
      rw [← same, propext concerned] at table
      exact ⟨table.retuned, table.staled, table.stands⟩
  exact ⟨adopts (mode := 1) (.inl rfl) rfl, adopts (mode := 2) (.inr rfl) rfl⟩

end Sys2Proof.Machine
end

section
/-! O46: the calendar's date and time fields and its count of seconds (R124, R125, R209). A valid date names its day number and is named by
it; the time of day is the rest of a division by the day's length. -/

namespace Sys2Proof.Machine

variable {d : Date} {ls : List Nat} {x : StampBytes} {t y r k j n : Nat}

/-! ### Months and years (R124) -/

/-- A day counted from 0 falls in a month of the list. -/
theorem month_exists (h : r < ls.sum) : ∃ k j, k < ls.length ∧ j < ls.getD k 0 ∧ r = (ls.take k).sum + j := by
  induction ls generalizing r with
  | nil => simp at h
  | cons l ls ih =>
    by_cases here : r < l
    · exact ⟨0, r, by simp, by simpa using here, by simp⟩
    · obtain ⟨k, j, inside, within, e⟩ := ih (r := r - l) (by simp only [List.sum_cons] at h; omega)
      exact ⟨k + 1, j, by simpa using inside, by simpa using within, by simp only [List.take_succ_cons, List.sum_cons]; omega⟩

theorem monthOf_at (inside : k < ls.length) (within : j < ls.getD k 0) (m : Nat) :
    monthOf ls m ((ls.take k).sum + j) = (m + k, j + 1) := by
  induction ls generalizing k m with
  | nil => simp at inside
  | cons l ls ih =>
    cases k with
    | zero =>
      have here : j < l := within
      simp [monthOf, here]
    | succ k =>
      have later : ¬ l + (ls.take k).sum + j < l := by omega
      have rest : l + (ls.take k).sum + j - l = (ls.take k).sum + j := by omega
      simp only [List.take_succ_cons, List.sum_cons, monthOf, later, if_false, rest]
      rw [ih (by simpa using inside) (by simpa using within)]
      simp only [Prod.mk.injEq, and_true]
      omega

theorem monthDays_sum (y : Nat) : (monthDays y).sum = if y % 4 = 0 then 366 else 365 := by
  by_cases leap : y % 4 = 0 <;> simp [monthDays, leapYear, leap]

theorem monthDays_le (y k : Nat) : (monthDays y).getD k 0 ≤ 31 := by
  have all : ∀ l ∈ monthDays y, l ≤ 31 := by
    intro l hl
    simp only [monthDays, List.mem_cons, List.not_mem_nil, or_false] at hl
    split at hl <;> omega
  rcases Nat.lt_or_ge k (monthDays y).length with h | h
  · rw [List.getD_eq_getElem _ _ h]
    exact all _ (List.getElem_mem h)
  · rw [List.getD_eq_default _ _ h]
    exact Nat.zero_le 31

/-- Every day number lies in a year. -/
theorem year_exists (n : Nat) : ∃ y r, (r < if y % 4 = 0 then 366 else 365) ∧ n = y * 365 + (y + 3) / 4 + r := by
  by_cases leap : n % 1461 < 366
  · exact ⟨n / 1461 * 4, n % 1461, by simp [leap], by omega⟩
  · refine ⟨n / 1461 * 4 + (1 + (n % 1461 - 366) / 365), (n % 1461 - 366) % 365, ?_, by omega⟩
    rw [if_neg (by omega)]
    omega

/-- A day of a year has the date that the year's month lengths give. -/
theorem dateOfDay_inYear (h : r < if y % 4 = 0 then 366 else 365) :
    dateOfDay (y * 365 + (y + 3) / 4 + r) =
      { year := y, month := (monthOf (monthDays y) 1 r).1, day := (monthOf (monthDays y) 1 r).2 } := by
  obtain ⟨n, hn⟩ : ∃ n, n = y * 365 + (y + 3) / 4 + r := ⟨_, rfl⟩
  rw [← hn]
  by_cases leap : y % 4 = 0
  · rw [if_pos leap] at h
    have year : n / 1461 * 4 + 0 = y := by omega
    have day : n % 1461 = r := by omega
    simp only [dateOfDay, day, h, if_true, year]
  · rw [if_neg leap] at h
    have cycle : n = 1461 * (y / 4) + (y % 4 * 365 + 1 + r) := by omega
    have cycles : n / 1461 = y / 4 := Nat.div_eq_of_lt_le (by omega) (by omega)
    have late : ¬ n % 1461 < 366 := by omega
    have year : n / 1461 * 4 + (1 + (n % 1461 - 366) / 365) = y := by omega
    have day : (n % 1461 - 366) % 365 = r := by omega
    simp only [dateOfDay, late, if_false, year, day]

/-! ### Dates and day numbers (R124, R125) -/

theorem date_valid_iff : d.valid = true ↔
    d.year < 100 ∧ 1 ≤ d.month ∧ d.month ≤ 12 ∧ 1 ≤ d.day ∧ d.day ≤ (monthDays d.year).getD (d.month - 1) 0 := by
  simp only [Date.valid, Bool.and_eq_true, decide_eq_true_eq, and_assoc]

/-- The day number of a valid date names it again. -/
theorem dateOfDay_dayOfDate (h : d.valid = true) : dateOfDay (dayOfDate d) = d := by
  obtain ⟨-, first, last, one, day⟩ := date_valid_iff.1 h
  have inside : d.month - 1 < (monthDays d.year).length := show d.month - 1 < 12 by omega
  have within : d.day - 1 < (monthDays d.year).getD (d.month - 1) 0 := by omega
  have days := monthDays_sum_le d.year (d.month - 1)
  simp only [leapYear, beq_iff_eq] at days
  rw [dayOfDate, Nat.add_assoc _ (List.sum _), dateOfDay_inYear (by omega), monthOf_at inside within]
  have month : 1 + (d.month - 1) = d.month := by omega
  have inMonth : d.day - 1 + 1 = d.day := by omega
  simp only [month, inMonth]

/-- Every day of the calendar has a valid date. -/
theorem date_exists (h : n < 36525) : ∃ d : Date, d.valid = true ∧ dayOfDate d = n := by
  obtain ⟨y, r, inYear, rfl⟩ := year_exists n
  obtain ⟨k, j, inside, within, rfl⟩ := month_exists (ls := monthDays y) (by rw [monthDays_sum]; exact inYear)
  have months : k < 12 := inside
  refine ⟨{ year := y, month := k + 1, day := j + 1 }, date_valid_iff.2 ?_, ?_⟩
  · simp only [Nat.add_sub_cancel]
    omega
  · simp only [dayOfDate, Nat.add_sub_cancel]
    omega

/-! ### Seconds (R124, R209) -/

/-- The date that the bytes of a date and time carry. -/
def dateOf (x : StampBytes) : Date := { year := x.year.toNat, month := x.month.toNat, day := x.day.toNat }

/-- A date and time is taken when its date is valid and its time of day exists, and counts its seconds. -/
theorem secondsOf_eq_some : secondsOf x = some t ↔
    ((dateOf x).valid = true ∧ x.hour.toNat < 24 ∧ x.minute.toNat < 60 ∧ x.second.toNat < 60) ∧
      dayOfDate (dateOf x) * 86400 + x.hour.toNat * 3600 + x.minute.toNat * 60 + x.second.toNat = t := by
  simp only [secondsOf, dateOf, Option.ite_none_right_eq_some, Bool.and_eq_true, decide_eq_true_eq, and_assoc,
    Option.some.injEq]

/-- A field below 256 is carried by its byte. -/
theorem toNat_ofNat_byte (h : n < 256) : (BitVec.ofNat 8 n).toNat = n := by
  rw [BitVec.toNat_ofNat]
  exact Nat.mod_eq_of_lt h

/-- A second of the calendar reads back as it is carried. -/
theorem secondsOf_stampOf (h : t < 3155760000) : secondsOf (stampOf t) = some t := by
  obtain ⟨d, valid, day⟩ := date_exists (n := t / 86400) (by omega)
  have named : dateOfDay (t / 86400) = d := by rw [← day, dateOfDay_dayOfDate valid]
  obtain ⟨year, -, month, -, last⟩ := date_valid_iff.1 valid
  have short := monthDays_le d.year (d.month - 1)
  have date : dateOf (stampOf t) = d := by
    simp only [dateOf, stampOf, named]
    rw [toNat_ofNat_byte (by omega), toNat_ofNat_byte (by omega), toNat_ofNat_byte (by omega)]
  have hour : (stampOf t).hour.toNat = t % 86400 / 3600 := toNat_ofNat_byte (by omega)
  have minute : (stampOf t).minute.toNat = t % 3600 / 60 := toNat_ofNat_byte (by omega)
  have second : (stampOf t).second.toNat = t % 60 := toNat_ofNat_byte (by omega)
  rw [secondsOf_eq_some, date, hour, minute, second, day]
  exact ⟨⟨valid, by omega, by omega, by omega⟩, by omega⟩

/-- A valid date and time is the one of its count. -/
theorem stampOf_secondsOf (h : secondsOf x = some t) : stampOf t = x := by
  obtain ⟨⟨valid, hour, minute, second⟩, rfl⟩ := secondsOf_eq_some.1 h
  obtain ⟨n, hn⟩ : ∃ n, n = dayOfDate (dateOf x) * 86400 + x.hour.toNat * 3600 + x.minute.toNat * 60 + x.second.toNat := ⟨_, rfl⟩
  have days : n / 86400 = dayOfDate (dateOf x) := by omega
  have hours : n % 86400 / 3600 = x.hour.toNat := by omega
  have minutes : n % 3600 / 60 = x.minute.toNat := by omega
  have seconds : n % 60 = x.second.toNat := by omega
  rw [← hn]
  simp only [stampOf, days, hours, minutes, seconds, dateOfDay_dayOfDate valid]
  simp only [dateOf, BitVec.ofNat_toNat, BitVec.setWidth_eq]

theorem weekday_succ (n : Nat) : weekday (n + 1) = weekday n % 7 + 1 := by
  simp only [weekday]
  omega

/-- Settles O46: dates and day numbers name each other, and so do times of day and the seconds of a day. -/
theorem calendarReadsBack : Obligations.CalendarReadsBack := by
  refine ⟨fun t => secondsOf_stampOf, fun x t h => ⟨secondsOf_lt h, stampOf_secondsOf h⟩, fun t _ => ?_, rfl⟩
  rw [show (t + 86400) / 86400 = t / 86400 + 1 by omega, weekday_succ]

end Sys2Proof.Machine
end

section
/-! What the statements of the clock share: the CLOCK note told, a second boundary and a clock jump with no program that waits (R124, R126,
R154), the handover of the second between the sources (R131), and the end of an event of the clock. -/

namespace Sys2Proof.Machine

variable {s t u v : State} {n : Nat} {p : Program}

/-! ### The CLOCK note (R123, R212) -/

/-- The CLOCK note with the present clock record is told. -/
def ClockTold (s : State) : Prop := Announced .clock s.clockBytes s

theorem clockBytes_congr (h : t.clock = s.clock) : t.clockBytes = s.clockBytes := by simp only [State.clockBytes, h]

theorem postClock_told (hb : s.power.state ≠ .backup) : ClockTold (postClock s) := by
  rw [ClockTold, clockBytes_congr (s := s) (by simp)]
  exact .inl (post_noted hb ..)

theorem ClockTold.of (h : ClockTold s) (clock : t.clock = s.clock) (outbox : t.link.outbox = s.link.outbox)
    (line : t.link.line = s.link.line) : ClockTold t := by
  rw [ClockTold, clockBytes_congr clock]
  exact Announced.of h outbox line

theorem ClockTold.chooseFrame (h : ClockTold s) : ClockTold (chooseFrame s) := by
  rw [ClockTold, clockBytes_congr (s := s) (by simp)]
  exact Announced.chooseFrame h (by decide)

theorem ClockTold.answered (h : ClockTold s) (k : RequestKind) (r : Reply) : ClockTold (answered k r s) :=
  ClockTold.chooseFrame (s := putReply (replyFrame k r) s) (h.of rfl rfl rfl)

/-! ### The end of an event (R33, R38, R192) -/

/-- What the end of an event watches for is not the clock's. -/
theorem Undue.untouched {l : List Part} (h : Undue s) (k : KeepsBut l s t)
    (m : ∀ p ∈ [Part.transport, .reels, .estimate, .mech, .power], p ∉ l := by decide) : Undue t := by
  obtain ⟨supply, takeUp⟩ := k.same .reels (m _ (by simp))
  obtain ⟨cls, -, candidate, idCount, lastIdent, fraction, held, -⟩ := k.same .estimate (m _ (by simp))
  have transport := k.transport (m _ (by simp))
  exact h.of (by rw [transport]) (by rw [transport]) (by rw [transport]) (by rw [transport]) (k.mech (m _ (by simp)))
    (k.power (m _ (by simp))) supply takeUp cls fraction held idCount candidate lastIdent

/-- What the end of an event watches for reads no time of the mains. -/
theorem Undue.ofCycle (h : Undue s) (last : Nat) : Undue { s with power.lastCycle := last } := by
  refine ⟨h.held, h.ident.imp id fun same => ?_, h.standby⟩
  have tape := congrArg State.tape same
  exact congrArg (fun x => ({ s with power.lastCycle := last, tape := x } : State)) tape

theorem withClock_keeps (c : Clock) (s : State) : KeepsBut [.time, .clock] s { s with clock := c } := by
  refine ⟨fun q hq => ?_⟩
  cases q <;> simp_all [SamePart]

/-- A change of the clock that leaves the time since the last second boundary. -/
theorem withClock_keeps_time (c : Clock) (s : State) (h : c.sinceBoundary = s.clock.sinceBoundary := by rfl) :
    KeepsBut [.clock] s { s with clock := c } := by
  refine ⟨fun q hq => ?_⟩
  cases q <;> simp_all [SamePart]

/-! ### A clock jump with no program that waits (R154) -/

/-- A record that is put back as it stands is no change, and posts nothing (R153). -/
theorem putProgram_same (h : s.program n = some p) : putProgram n p s = s := by
  have slot : n ≠ 0 := fun e => by simp [State.program, e] at h
  have unchanged : p.notedChange p = false := by simp [Program.notedChange]
  have entry : s.sched.slots[n - 1]? = some (some p) := by
    simpa [State.program, slot, Option.join_eq_some_iff] using h
  have same : s.sched.slots.set (n - 1) (some p) = s.sched.slots := by
    obtain ⟨inside, e⟩ := List.getElem?_eq_some_iff.1 entry
    rw [← e, List.set_getElem_self]
  simp only [putProgram, h, Option.elim_some, unchanged, Bool.false_eq_true, if_false, State.withSlot, same]

theorem judged_done (h : p.state = .done) (c : DeferralCause) (t : Nat) : p.judged c t = p := by simp [Program.judged, h]

theorem judgeSlot_idle (h : NoPrograms s) (c : DeferralCause) (n : Nat) : judgeSlot c s n = s := by
  unfold judgeSlot
  split
  · next p hp => rw [judged_done (h.slots n p hp), putProgram_same hp]
  · rfl

/-- A jump has no part in the programs that are DONE (R155). -/
theorem clockJump_idle (h : NoPrograms s) (c : DeferralCause) : clockJump c s = s := by
  have judged : ∀ l : List Nat, l.foldl (judgeSlot c) s = s := fun l => by
    induction l with
    | nil => rfl
    | cons n l ih => rw [List.foldl_cons, judgeSlot_idle h, ih]
  rw [clockJump, judged, h.applyRules]

/-! ### A second boundary (R124, R126) -/

/-- The time moves on by one second, and wraps with the CLOCK note at the calendar's end. -/
def timeOn (s : State) : State :=
  if Config.calendarSeconds ≤ s.clock.time + 1 then postClock { s with clock.time := 0 } else { s with clock.time := s.clock.time + 1 }

/-- With no program that waits, that is all. -/
theorem secondBoundary_idle (hb : s.power.state ≠ .backup) (hp : NoPrograms s) : secondBoundary s = timeOn s := by
  have running : (s.power.state == .backup) = false := by simpa using hb
  have jump : ∀ v : State, v.sched = s.sched → clockJump .clockSet v = v := fun v hv => clockJump_idle (hp.of hv) _
  have minute : ∀ v : State, v.sched = s.sched → minuteEvent v = v := fun v hv => (hp.of hv).minuteEvent
  simp only [secondBoundary, timeOn, running, Bool.false_eq_true, if_false, hp.countSecond]
  split
  · exact jump _ (by simp)
  · split
    · exact minute _ rfl
    · rfl

theorem timeOn_keeps (s : State) : KeepsBut [.clock, .sending] s (timeOn s) := by
  have clock : ∀ time, KeepsBut [.clock, .sending] s { s with clock.time := time } := fun time =>
    (withClock_keeps_time { s.clock with time := time } s).mono (by simp)
  unfold timeOn
  split
  · exact (clock 0).trans ((postClock_keeps _).mono (by simp))
  · exact clock _

@[simp] theorem timeOn_now (s : State) : (timeOn s).now = s.now := ((timeOn_keeps s).same .time (by decide)).1
@[simp] theorem timeOn_sched (s : State) : (timeOn s).sched = s.sched := (timeOn_keeps s).sched

@[simp] theorem timeOn_clock (s : State) : (timeOn s).clock =
    { s.clock with time := if Config.calendarSeconds ≤ s.clock.time + 1 then 0 else s.clock.time + 1 } := by
  unfold timeOn
  split <;> simp

theorem timeOn_told (hb : s.power.state ≠ .backup) (wraps : Config.calendarSeconds ≤ s.clock.time + 1) : ClockTold (timeOn s) := by
  rw [timeOn, if_pos wraps]
  exact postClock_told hb

/-- One second has been counted since a state (R124, R126). -/
structure SecondCounted (s t : State) : Prop where
  inside  : s.clock.time + 1 < 3155760000 → t.clock.time = s.clock.time + 1 ∧ t.sched = s.sched
  wraps   : s.clock.time + 1 = 3155760000 → t.clock.time = 0 ∧ ClockTold t
  set     : t.clock.set = s.clock.set
  setting : t.clock.setting = s.clock.setting
  source  : t.clock.source = s.clock.source
  reading : t.clock.reading = s.clock.reading

/-- It is counted from a state whose counts toward the second alone have moved. -/
theorem timeOn_counted (hb : v.power.state ≠ .backup) (sched : v.sched = s.sched) (time : v.clock.time = s.clock.time)
    (set : v.clock.set = s.clock.set) (setting : v.clock.setting = s.clock.setting) (source : v.clock.source = s.clock.source)
    (reading : v.clock.reading = s.clock.reading) : SecondCounted s (timeOn v) := by
  constructor
  case inside =>
    intro within
    simp [time, sched, Config.calendarSeconds, Nat.not_le.2 within]
  case wraps =>
    intro last
    have wraps : Config.calendarSeconds ≤ v.clock.time + 1 := by rw [time, last]; exact Nat.le_refl _
    exact ⟨by simp [wraps], timeOn_told hb wraps⟩
  all_goals simp [set, setting, source, reading]

theorem SecondCounted.chooseFrame (h : SecondCounted s t) : SecondCounted s (chooseFrame t) := by
  obtain ⟨inside, wraps, set, setting, source, reading⟩ := h
  exact ⟨by simpa using inside, fun last => ⟨by simpa using (wraps last).1, (wraps last).2.chooseFrame⟩, by simpa using set,
    by simpa using setting, by simpa using source, by simpa using reading⟩

/-! ### The source in use (R131) -/

theorem MainsReading.cycles_isSome (r : MainsReading) : r.cycles.isSome = true ↔ r = .hz50 ∨ r = .hz60 := by
  cases r <;> simp [MainsReading.cycles]

theorem sourceDue_running (hb : s.power.state ≠ .backup) : s.sourceDue =
    if s.clock.setting = .auto ∧ (s.clock.reading = .hz50 ∨ s.clock.reading = .hz60) then .mains else .crystal := by
  simp only [State.sourceDue, MainsReading.cycles_isSome, ne_eq, hb, not_false_eq_true, true_and]

/-- The clock as the crystal takes the second over (R131). -/
def Clock.onCrystal (c : Clock) : Clock := { c with source := .crystal, cycleCount := none }

/-- The clock as the mains takes it over: the cycles that the crystal phase stands for (R131). -/
def Clock.onMains (c : Clock) : Clock :=
  { c with
    source := .mains
    cycleCount := some (min (c.reading.cycles.getD 50 - 1) (c.sinceBoundary / 375 * c.reading.cycles.getD 50 / 32768)) }

theorem recomputeSource_same (h : s.sourceDue = s.clock.source) : recomputeSource s = s := if_pos h

/-- The crystal takes over an unfinished second as it stands. -/
theorem recomputeSource_unfinished (due : s.sourceDue = .crystal) (on : s.clock.source = .mains)
    (rest : s.clock.sinceBoundary < secondUnits) : recomputeSource s = { s with clock := s.clock.onCrystal } := by
  simp [recomputeSource, due, on, Nat.not_le.2 rest, Clock.onCrystal]

/-- The crystal completes a second that the mains has not. -/
theorem recomputeSource_overdue (hb : s.power.state ≠ .backup) (hp : NoPrograms s) (due : s.sourceDue = .crystal)
    (on : s.clock.source = .mains) (late : secondUnits ≤ s.clock.sinceBoundary) : recomputeSource s =
      timeOn { s with clock := { s.clock.onCrystal with sinceBoundary := s.clock.sinceBoundary - secondUnits } } := by
  refine Eq.trans ?_ (secondBoundary_idle hb (hp.of rfl))
  simp [recomputeSource, due, on, late, crystalBoundary, Clock.onCrystal]

theorem recomputeSource_mains (due : s.sourceDue = .mains) (on : s.clock.source = .crystal) :
    recomputeSource s = { s with clock := s.clock.onMains } := by
  simp only [recomputeSource, due, on, reduceCtorEq, if_false]
  rfl

/-- The source in use has been recomputed: what R131 gives, and nothing where that is the source already. -/
structure SourceTaken (s t : State) : Prop where
  source  : t.clock.source = s.sourceDue
  same    : s.sourceDue = s.clock.source → t = s
  reading : t.clock.reading = s.clock.reading
  window  : t.clock.previous = s.clock.previous ∧ t.clock.windowCount = s.clock.windowCount ∧ t.clock.windowStart = s.clock.windowStart
  now     : t.now = s.now
  keeps   : KeepsBut [.time, .clock, .sending] s t

theorem recomputeSource_taken (hb : s.power.state ≠ .backup) (hp : NoPrograms s) : SourceTaken s (recomputeSource s) := by
  have clock : ∀ c, KeepsBut [.time, .clock, .sending] s { s with clock := c } := fun c => (withClock_keeps c s).mono (by simp)
  by_cases h : s.sourceDue = s.clock.source
  · rw [recomputeSource_same h]
    exact ⟨h.symm, fun _ => rfl, rfl, ⟨rfl, rfl, rfl⟩, rfl, .refl _ _⟩
  · cases due : s.sourceDue with
    | crystal =>
      have on : s.clock.source = .mains := by cases e : s.clock.source with
        | mains => rfl
        | crystal => exact absurd (due.trans e.symm) h
      rcases Nat.lt_or_ge s.clock.sinceBoundary secondUnits with rest | late
      · rw [recomputeSource_unfinished due on rest]
        exact ⟨due.symm, fun e => absurd e h, rfl, ⟨rfl, rfl, rfl⟩, rfl, clock _⟩
      · rw [recomputeSource_overdue hb hp due on late]
        exact ⟨by simp [due, Clock.onCrystal], fun e => absurd e h, by simp [Clock.onCrystal], by simp [Clock.onCrystal], by simp,
          (clock _).trans ((timeOn_keeps _).mono (by simp))⟩
    | mains =>
      have on : s.clock.source = .crystal := by cases e : s.clock.source with
        | mains => exact absurd (due.trans e.symm) h
        | crystal => rfl
      rw [recomputeSource_mains due on]
      exact ⟨due.symm, fun e => absurd e h, rfl, ⟨rfl, rfl, rfl⟩, rfl, clock _⟩

end Sys2Proof.Machine
end

section
/-! O48: mains cycles, second boundaries and detection windows (R124, R126, R128 to R131; log 8). -/

namespace Sys2Proof.Machine

variable {s t u v : State} {n k w : Nat}

/-! ### A mains cycle (R128, R129) -/

/-- A mains cycle has been counted in the window. -/
def cycleSeen (s : State) : State := { s with power.lastCycle := s.now, clock.windowCount := s.clock.windowCount + 1 }

theorem cycleCounted_crystal (h : s.clock.source = .crystal) : cycleCounted s = cycleSeen s := by
  unfold cycleCounted
  dsimp only
  split
  · rfl
  · next on => exact absurd (h.symm.trans on) (by decide)

/-- Under MAINS the cycle that makes the second completes it, and any other is counted toward it. -/
theorem cycleCounted_mains (hb : s.power.state ≠ .backup) (hp : NoPrograms s) (h : s.clock.source = .mains) : cycleCounted s =
    if s.clock.reading.cycles.getD 50 ≤ s.clock.cycleCount.getD 0 + 1 then
      timeOn { cycleSeen s with clock := { (cycleSeen s).clock with cycleCount := some 0, sinceBoundary := 0 } }
    else { cycleSeen s with clock.cycleCount := some (s.clock.cycleCount.getD 0 + 1) } := by
  have completed := secondBoundary_idle (s := { cycleSeen s with
    clock := { (cycleSeen s).clock with cycleCount := some 0, sinceBoundary := 0 } }) hb (hp.of rfl)
  rw [← completed]
  unfold cycleCounted
  dsimp only
  split
  · next on => exact absurd (h.symm.trans on) (by decide)
  · rfl

/-- What a mains cycle may change besides the time of the last one. -/
def cycleParts : List Part := [.time, .clock, .sending]

theorem cycleCounted_keeps (hb : s.power.state ≠ .backup) (hp : NoPrograms s) :
    KeepsBut cycleParts { s with power.lastCycle := s.now } (cycleCounted s) := by
  have clock : ∀ c, KeepsBut cycleParts { s with power.lastCycle := s.now } { s with power.lastCycle := s.now, clock := c } :=
    fun c => (withClock_keeps c { s with power.lastCycle := s.now }).mono (by simp [cycleParts])
  cases source : s.clock.source with
  | crystal =>
    rw [cycleCounted_crystal source]
    exact clock _
  | mains =>
    rw [cycleCounted_mains hb hp source]
    split
    · exact KeepsBut.after ((timeOn_keeps _).mono (by simp [cycleParts])) (clock _)
    · exact clock _

/-- MAINS_CYCLE outside BACKUP ends with nothing more than the choice of the next frame. -/
theorem exec_mainsCycle (hb : s.power.state ≠ .backup) (hd : Undue s) (hp : NoPrograms s) :
    exec .mainsCycle s = .next (chooseFrame (cycleCounted s)) := by
  have kept := cycleCounted_keeps hb hp
  have undue : Undue (cycleCounted s) := (hd.ofCycle s.now).untouched kept
  refine congrArg Host.Outcome.next ((if_neg hb).trans ?_)
  rw [deckEvent_running hb, undue.endDeckEvent (sequence_same (by rw [kept.transport]))]

/-- The cycle is counted in the window, whatever it does to the second. -/
theorem cycleCounted_window (hb : s.power.state ≠ .backup) (hp : NoPrograms s) :
    (cycleCounted s).clock.windowCount = s.clock.windowCount + 1 ∧ (cycleCounted s).now = s.now := by
  cases source : s.clock.source with
  | crystal =>
    rw [cycleCounted_crystal source]
    exact ⟨rfl, rfl⟩
  | mains =>
    rw [cycleCounted_mains hb hp source]
    split
    · simp [cycleSeen]
    · exact ⟨rfl, rfl⟩

section
variable (hb : s.power.state ≠ .backup) (hp : NoPrograms s) (on : s.clock.source = .mains)
  (hn : s.clock.reading.cycles = some n) (hk : s.clock.cycleCount = some k)
include hb hp on hn hk

theorem cycleCounted_unfinished (h : k + 1 < n) :
    (cycleCounted s).clock = { s.clock with windowCount := s.clock.windowCount + 1, cycleCount := some (k + 1) } := by
  rw [cycleCounted_mains hb hp on, hn, hk, Option.getD_some, Option.getD_some, if_neg (Nat.not_le.2 h)]
  rfl

theorem cycleCounted_finished (h : n ≤ k + 1) : (cycleCounted s).clock.cycleCount = some 0 ∧
    (cycleCounted s).clock.sinceBoundary = 0 ∧ SecondCounted s (cycleCounted s) := by
  rw [cycleCounted_mains hb hp on, hn, hk, Option.getD_some, Option.getD_some, if_pos h]
  exact ⟨by simp, by simp, timeOn_counted hb rfl rfl rfl rfl rfl rfl⟩

end

/-! ### The crystal's second (R128; log 8) -/

theorem secondUnits_eq : secondUnits = 12288000 := rfl

/-- The crystal ticks on to the end of its second. -/
theorem crystalSecond_idle (hb : s.power.state ≠ .backup) (hp : NoPrograms s) (h : s.clock.sinceBoundary ≤ 12288000) :
    crystalSecond s = timeOn { elapse (12288000 - s.clock.sinceBoundary) s with clock := { s.clock with sinceBoundary := 0 } } := by
  have whole : s.clock.sinceBoundary + (12288000 - s.clock.sinceBoundary) - 12288000 = 0 := by omega
  refine Eq.trans ?_ (secondBoundary_idle hb (hp.of rfl))
  simp only [crystalSecond, crystalBoundary, elapse_sinceBoundary, secondUnits_eq, whole]
  rfl

theorem crystalSecond_keeps (hb : s.power.state ≠ .backup) (hp : NoPrograms s) (h : s.clock.sinceBoundary ≤ 12288000) :
    KeepsBut [.time, .nav, .clock, .sending] s (crystalSecond s) := by
  rw [crystalSecond_idle hb hp h]
  exact KeepsBut.after ((timeOn_keeps _).mono (by simp)) (KeepsBut.after ((withClock_keeps _ _).mono (by simp))
    ((elapse_keeps _ s).mono (by simp)))

theorem crystalSecond_counted (hb : s.power.state ≠ .backup) (hp : NoPrograms s) (h : s.clock.sinceBoundary ≤ 12288000) :
    (crystalSecond s).now = s.now + (12288000 - s.clock.sinceBoundary) ∧ (crystalSecond s).clock.sinceBoundary = 0 ∧
      SecondCounted s (crystalSecond s) := by
  rw [crystalSecond_idle hb hp h]
  exact ⟨by simp, by simp, timeOn_counted hb rfl rfl rfl rfl rfl rfl⟩

theorem exec_secondBoundary (hb : s.power.state ≠ .backup) (hd : Undue s) (hp : NoPrograms s) (on : s.clock.source = .crystal)
    (h : s.clock.sinceBoundary ≤ 12288000) : exec .secondBoundary s = .next (chooseFrame (crystalSecond s)) := by
  have kept := crystalSecond_keeps hb hp h
  have completed : secondCompleted s = crystalSecond s := by simp only [secondCompleted, on]
  refine congrArg Host.Outcome.next ((if_neg hb).trans ?_)
  rw [deckEvent_running hb, completed, (hd.untouched kept).endDeckEvent (sequence_same (by rw [kept.transport]))]

/-! ### The detection window (R129 to R131) -/

/-- The table of R130, by the count of the window. -/
theorem nextReading_window (r : MainsReading) (previous : Option WindowClass) (n : Nat) :
    nextReading r (windowClass n) previous =
      if r = .hz50 then (if 47 ≤ n ∧ n ≤ 53 then .hz50 else .out)
      else if r = .hz60 then (if 57 ≤ n ∧ n ≤ 63 then .hz60 else .out)
      else if (47 ≤ n ∧ n ≤ 53) ∧ previous = some .hz50 then .hz50
      else if (57 ≤ n ∧ n ≤ 63) ∧ previous = some .hz60 then .hz60 else .out := by
  by_cases fifty : 47 ≤ n ∧ n ≤ 53
  · have sixty : ¬ (57 ≤ n ∧ n ≤ 63) := by omega
    cases r <;> simp [windowClass, nextReading, WindowClass.reading, fifty, sixty]
  · by_cases sixty : 57 ≤ n ∧ n ≤ 63
    · cases r <;> simp [windowClass, nextReading, WindowClass.reading, fifty, sixty]
    · cases r <;> simp [windowClass, nextReading, fifty, sixty]

/-- The clock as a window that closes at a time is counted, and the next opens (R129, R130). -/
def Clock.windowed (c : Clock) (now : Nat) : Clock :=
  { c with
    reading := nextReading c.reading (windowClass c.windowCount) c.previous, previous := some (windowClass c.windowCount)
    windowCount := 0, windowStart := some now }

/-- A window has closed: the reading, the source in use, and the CLOCK note for a change of either. -/
structure WindowClosed (s t : State) : Prop where
  clock  : ∃ u, SourceTaken { s with clock := s.clock.windowed s.now } u ∧ t.clock = u.clock
  now    : t.now = s.now
  told   : t.clock.reading ≠ s.clock.reading ∨ t.clock.source ≠ s.clock.source → ClockTold t
  keeps  : KeepsBut [.time, .clock, .sending] s t

theorem closeWindow_closed (hb : s.power.state ≠ .backup) (hp : NoPrograms s) : WindowClosed s (closeWindow s) := by
  obtain ⟨u, hu⟩ : ∃ u, u = recomputeSource { s with clock := s.clock.windowed s.now } := ⟨_, rfl⟩
  have taken : SourceTaken { s with clock := s.clock.windowed s.now } u := hu ▸ recomputeSource_taken hb (hp.of rfl)
  have kept : KeepsBut [.time, .clock, .sending] s u := ((withClock_keeps _ s).mono (by simp)).trans taken.keeps
  have closed : closeWindow s = if u.clock.reading = s.clock.reading ∧ u.clock.source = s.clock.source then u else postClock u :=
    hu ▸ rfl
  rw [closed]
  split
  · next same => exact ⟨⟨u, taken, rfl⟩, taken.now, fun other => absurd same (by tauto), kept⟩
  · exact ⟨⟨u, taken, by simp⟩, by simp [taken.now], fun _ => postClock_told (by rw [kept.power]; exact hb),
      kept.trans ((postClock_keeps u).mono (by simp))⟩

theorem windowLimit_eq (h : s.clock.windowStart = some w) : s.windowLimit = some (w + 12288000) := by
  rw [State.windowLimit, h]
  rfl

theorem exec_detectionWindowClose {limit : Nat} (hb : s.power.state ≠ .backup) (hd : Undue s) (hp : NoPrograms s)
    (hl : s.windowLimit = some limit) : exec .detectionWindowClose s = .next (chooseFrame (closeWindow (leapTo limit s))) := by
  have closed := (closeWindow_closed (s := leapTo limit s) hb (hp.of rfl)).keeps
  have kept : KeepsBut [.time, .nav, .clock, .sending] s (closeWindow (leapTo limit s)) :=
    KeepsBut.after (closed.mono (by simp)) ((leapTo_keeps limit s).mono (by simp))
  refine congrArg Host.Outcome.next ?_
  rw [hl, timerEvent_running hb, (hd.untouched kept).endDeckEvent (sequence_same (by rw [kept.transport]))]

/-! ### The statement -/

/-- What the window's close shows at its time `limit`, in the terms of the table of R130 and of R131. -/
theorem detectionWindow_shown {limit : Nat} (hb : s.power.state ≠ .backup) (hp : NoPrograms s) (hl : s.now ≤ limit) :
    let t := closeWindow (leapTo limit s)
    t.now = limit ∧ t.clock.reading = nextReading s.clock.reading (windowClass s.clock.windowCount) s.clock.previous ∧
      t.clock.previous = some (windowClass s.clock.windowCount) ∧ t.clock.windowCount = 0 ∧ t.clock.windowStart = some limit ∧
      t.clock.source = (if s.clock.setting = .auto ∧ (t.clock.reading = .hz50 ∨ t.clock.reading = .hz60) then .mains else .crystal) ∧
      (t.clock.source = s.clock.source → t.clock.time = s.clock.time ∧ t.clock.cycleCount = s.clock.cycleCount) := by
  have closed := closeWindow_closed (s := leapTo limit s) hb (hp.of rfl)
  obtain ⟨u, taken, clock⟩ := closed.clock
  have time : (leapTo limit s).now = limit := leapTo_now_of_le hl
  obtain ⟨previous, count, start⟩ := taken.window
  have source := taken.source.trans (sourceDue_running hb)
  rw [time] at start
  dsimp only
  rw [clock, taken.reading]
  refine ⟨closed.now.trans time, rfl, previous, count, start, source, fun stays => ?_⟩
  rw [taken.same (taken.source.symm.trans stays)]
  exact ⟨rfl, rfl⟩

/-- Settles O48: with no program that waits the units do no more than the clock's own rules, and the end of the event adds nothing. -/
theorem secondsCounted : Obligations.SecondsCounted := by
  intro s hb hd hp _ _ counted
  have undue := hd.undue
  have shown : ∀ t, SecondCounted s t → counted (chooseFrame t) := fun t second => by
    obtain ⟨inside, wraps, set, setting, source, reading⟩ := second.chooseFrame
    exact ⟨inside, wraps, set, setting, source, reading⟩
  refine ⟨⟨_, exec_mainsCycle hb undue hp, ?_⟩, fun on h => ⟨_, exec_secondBoundary hb undue hp on h, ?_⟩, fun w hw inTime =>
    ⟨_, exec_detectionWindowClose hb undue hp (windowLimit_eq hw), ?_⟩⟩
  · obtain ⟨window, now⟩ := cycleCounted_window hb hp
    have kept := cycleCounted_keeps hb hp
    refine ⟨by simpa using now, by simpa using kept.power, by simpa using window, fun on => ?_,
      fun on n hn k hk => ⟨fun h => ?_, fun h => ?_⟩, ?_⟩
    · rw [chooseFrame_clock, cycleCounted_crystal on]
      rfl
    · rw [chooseFrame_clock, cycleCounted_unfinished hb hp on hn hk h]
    · obtain ⟨count, phase, second⟩ := cycleCounted_finished hb hp on hn hk h
      exact ⟨by simpa using count, by simpa using phase, shown _ second⟩
    · exact sent_keeps (((withPower_keeps _ s).mono (by simp)).trans (kept.mono (by simp [cycleParts]))) (by simp)
  · obtain ⟨now, phase, second⟩ := crystalSecond_counted hb hp h
    exact ⟨by simpa using now, by simpa using phase, shown _ second,
      sent_keeps ((crystalSecond_keeps hb hp h).mono (by simp)) (by simp)⟩
  · obtain ⟨limit, hl⟩ : ∃ limit, limit = w + 12288000 := ⟨_, rfl⟩
    rw [← hl] at inTime ⊢
    obtain ⟨now, reading, previous, count, start, source, stays⟩ := detectionWindow_shown hb hp inTime
    have closed := closeWindow_closed (s := leapTo limit s) hb (hp.of rfl)
    rw [nextReading_window] at reading
    rw [reading] at source
    rw [chooseFrame_now, chooseFrame_clock]
    refine ⟨now, reading, previous, count, by rw [start, now], source, stays, fun change => (closed.told change).chooseFrame, ?_⟩
    exact sent_keeps (KeepsBut.after (closed.keeps.mono (by simp)) ((leapTo_keeps limit s).mono (by simp))) (by simp)

end Sys2Proof.Machine
end

section
/-! The occurrence search (R141, R142): a repeat program's next start, where the calendar has room for one, is the first that may be. -/

namespace Sys2Proof.Machine

variable {k : Pattern} {start first count m t : Nat} {ok : Nat → Bool} {p : Program} {l : Option LowerBound}

/-! ### Days from a first one on -/

/-- The first day is tried, then the others. -/
theorem firstOccurrence_succ (k : Pattern) (start first count : Nat) (ok : Nat → Bool) : firstOccurrence k start first (count + 1) ok =
    if k.admits start first && ok (first * 1440 + start % 1440) then some (first * 1440 + start % 1440)
    else firstOccurrence k start (first + 1) count ok := by
  simp only [firstOccurrence, ← List.range'_eq_map_range, List.range'_succ, List.findSome?_cons]
  split
  · next h =>
    split at h
    · next on => rw [if_pos on, ← h]
    · cases h
  · next h =>
    split at h
    · cases h
    · next off => rw [if_neg off]

/-- A start whose day is among those tried, and before whose day none may be, is found. -/
theorem firstOccurrence_least (day : k.admits start (m / 1440)) (minute : m % 1440 = start % 1440) (may : ok m)
    (after : first ≤ m / 1440) (before : m / 1440 < first + count)
    (least : ∀ d, first ≤ d → d < m / 1440 → (k.admits start d && ok (d * 1440 + start % 1440)) = false) :
    firstOccurrence k start first count ok = some m := by
  have whole : m / 1440 * 1440 + start % 1440 = m := by omega
  induction count generalizing first with
  | zero => omega
  | succ count ih =>
    rw [firstOccurrence_succ]
    rcases Nat.eq_or_lt_of_le after with here | later
    · simp only [here, whole, day, may, Bool.and_self, if_true]
    · rw [least first (Nat.le_refl _) later, if_neg Bool.false_ne_true]
      exact ih later (by omega) fun d hd => least d (Nat.le_of_succ_le hd)

/-! ### The search (R142) -/

/-- A pattern other than ONCE matches a day in every seven (R141). -/
theorem admits_in_week (h : k ≠ .once) (start a : Nat) : ∃ d, a ≤ d ∧ d < a + 7 ∧ k.admits start d = true := by
  cases k with
  | once => exact absurd rfl h
  | daily => exact ⟨a, Nat.le_refl a, by omega, rfl⟩
  | weekdays =>
    by_cases workday : weekday a ≤ 5
    · exact ⟨a, Nat.le_refl a, by omega, by simpa [Pattern.admits] using workday⟩
    · refine ⟨a + 2, by omega, by omega, ?_⟩
      simp only [Pattern.admits, decide_eq_true_eq]
      simp only [weekday] at workday ⊢
      omega
  | weekly =>
    refine ⟨a + (start / 1440 % 7 + 7 - a % 7) % 7, by omega, by omega, ?_⟩
    simp only [Pattern.admits, beq_iff_eq]
    omega

/-- The bound of a search in the calendar; a search without one is bounded by nothing. -/
def boundOf (l : Option LowerBound) : Nat := l.elim 0 (·.at_)

theorem mayStart_iff {bound : Nat} : p.mayStart t bound m = true ↔ p.pattern.admits p.start (m / 1440) = true ∧
    m % 1440 = p.start % 1440 ∧ bound ≤ m * 60 ∧ t + 60 ≤ (m + p.duration) * 60 ∧ (m + p.duration) * 60 < 3155760000 := by
  simp only [Program.mayStart, Bool.and_eq_true, beq_iff_eq, decide_eq_true_eq, and_assoc]

/-- The condition of R142's search on the minute of a start. -/
def searched (l : Option LowerBound) (t duration : Nat) : Nat → Bool := fun minute =>
  l.all (fun b => decide (b.at_ ≤ minute * 60)) && decide (t + 60 ≤ (minute + duration) * 60) &&
    decide ((minute + duration) * 60 < Config.calendarSeconds)

/-- It is that of a start that may be. -/
theorem searched_iff {duration minute : Nat} : searched l t duration minute = true ↔
    boundOf l ≤ minute * 60 ∧ t + 60 ≤ (minute + duration) * 60 ∧ (minute + duration) * 60 < 3155760000 := by
  have bound : (l.all fun b => decide (b.at_ ≤ minute * 60)) = true ↔ boundOf l ≤ minute * 60 := by cases l <;> simp [boundOf]
  simp only [searched, Bool.and_eq_true, bound, decide_eq_true_eq, and_assoc]
  rfl

/-- The next start lies within ten days of the first day searched, or an earlier day would do. -/
theorem nextOccurrence_soon {bound : Nat} (h : NextOccurrence p t bound m) (hk : p.pattern ≠ .once) (one : 1 ≤ p.duration)
    (after : t / 86400 - 1 ≤ first) (bounded : bound / 86400 ≤ first) : m / 1440 < first + 10 := by
  by_contra late
  obtain ⟨d, from_, within, admits⟩ := admits_in_week hk p.start (first + 2)
  obtain ⟨-, -, -, -, inside⟩ := mayStart_iff.1 h.may
  have may : p.mayStart t bound (d * 1440 + p.start % 1440) = true :=
    mayStart_iff.2 ⟨by rw [show (d * 1440 + p.start % 1440) / 1440 = d by omega]; exact admits, by omega, by omega, by omega, by omega⟩
  have least := h.first _ may
  omega

/-- R142's search finds the next start that the calendar has room for. -/
theorem occurrenceSearch_next (h : NextOccurrence p t (boundOf l) m) (hk : p.pattern ≠ .once) (hl : l.any (·.carried) = false)
    (one : 1 ≤ p.duration) (long : p.duration ≤ 600) : occurrenceSearch p.pattern p.start p.duration t l = (m, false) := by
  obtain ⟨admits, minute, bounded, left, inside⟩ := mayStart_iff.1 h.may
  obtain ⟨first, hf⟩ : ∃ first, first = Nat.max (t / 86400 - 1) (l.elim 0 fun b => b.at_ / 86400) := ⟨_, rfl⟩
  have day : (l.elim 0 fun b => b.at_ / 86400) = boundOf l / 86400 := by cases l <;> rfl
  have after : t / 86400 - 1 ≤ first := hf ▸ Nat.le_max_left ..
  have past : boundOf l / 86400 ≤ first := hf ▸ day ▸ Nat.le_max_right ..
  have soonest : first ≤ m / 1440 := by
    rw [hf, day]
    exact Nat.max_le.2 ⟨by omega, by omega⟩
  have found := firstOccurrence_least (count := 10) (first := first) (ok := searched l t p.duration) admits minute
    (searched_iff.2 ⟨bounded, left, inside⟩) soonest (nextOccurrence_soon h hk one after past) fun d _ early => by
      by_contra also
      rw [Bool.not_eq_false, Bool.and_eq_true, searched_iff] at also
      obtain ⟨matches_, may⟩ := also
      have least := h.first (d * 1440 + p.start % 1440)
        (mayStart_iff.2 ⟨by rw [show (d * 1440 + p.start % 1440) / 1440 = d by omega]; exact matches_, by omega, may⟩)
      omega
  unfold searched at found
  simp only [occurrenceSearch, hl, Bool.false_eq_true, if_false, ← hf, found]

end Sys2Proof.Machine
end

section
/-! A program that is DONE and not the active one is left alone by the scheduler's rules, whatever else they do (R150, R151, R161 to R164,
R174, R175): the rules act on the active slot, on ARMED slots and on DEFERRED ones. -/

namespace Sys2Proof.Machine

variable {s t : State} {n k : Nat} {p q : Program} {c : DeferralCause}

/-! ### The slots of the table -/

theorem slot_ne_zero (h : s.program n = some p) : n ≠ 0 := fun e => by simp [State.program, e] at h

/-- What a slot's record becomes is no other slot's. -/
theorem program_withSlot_other (hk : k ≠ 0) (hn : n ≠ k) (x : Option Program) : (s.withSlot k x).program n = s.program n := by
  unfold State.program
  split
  · rfl
  · simp only [State.withSlot]
    rw [List.getElem?_set_ne (by omega)]

theorem putProgram_program_other (hk : k ≠ 0) (hn : n ≠ k) (p : Program) : (putProgram k p s).program n = s.program n := by
  rw [program_of_sched (putProgram_sched ..), program_withSlot_other hk hn]

theorem mem_insertByRank {rank : Nat → Nat} {l : List Nat} : n ∈ insertByRank rank k l ↔ n = k ∨ n ∈ l := by
  induction l with
  | nil => simp [insertByRank]
  | cons a l ih =>
    unfold insertByRank
    split
    · simp
    · simp only [List.mem_cons, ih]
      tauto

theorem mem_sortByRank {rank : Nat → Nat} {l : List Nat} : n ∈ sortByRank rank l ↔ n ∈ l := by
  induction l with
  | nil => simp
  | cons a l ih => rw [sortByRank, List.foldr_cons, mem_insertByRank, ← sortByRank, ih, List.mem_cons]

/-! ### What leaves the scheduler alone -/

theorem wakeForTimer_keeps (s : State) : KeepsBut [.power, .sending] s (wakeForTimer s) := by
  have power : ∀ x, KeepsBut [.power, .sending] s { s with power := x } := fun x => (withPower_keeps x s).mono (by simp)
  have noted : ∀ x, KeepsBut [.power, .sending] s (postPower { s with power := x }) := fun x =>
    (power x).trans ((postPower_keeps _).mono (by simp))
  unfold wakeForTimer
  split
  · exact noted _
  · exact power _
  · exact noted _
  · exact .refl _ _

theorem giveRecord_keeps (o : RecordOrder) (s : State) : KeepsBut modeParts s (giveRecord o s) := by
  refine KeepsBut.after (giveTarget_keeps ..) ⟨fun q hq => ?_⟩
  cases q <;> simp_all [SamePart, modeParts]

theorem checkStandby_keeps (s : State) : KeepsBut [.tuner, .scan, .tunerOf, .power, .sending] s (checkStandby s) := by
  unfold checkStandby
  split
  · split
    · exact enterStandby_keeps ..
    · exact .refl _ _
  · exact .refl _ _

/-! ### A program out of reach -/

/-- The slot holds a record that is DONE, and is not the active slot. -/
structure Shelved (n : Nat) (q : Program) (s : State) : Prop where
  holds : s.program n = some q
  done  : q.state = .done
  aside : ∀ a, s.sched.active = some a → a.slot ≠ n

namespace Shelved

theorem of (h : Shelved n q s) (sched : t.sched = s.sched) : Shelved n q t :=
  ⟨(program_of_sched sched n).trans h.holds, h.done, by rw [sched]; exact h.aside⟩

theorem kept {l : List Part} (h : Shelved n q s) (k : KeepsBut l s t) (m : Part.sched ∉ l := by decide) : Shelved n q t :=
  h.of (k.sched m)

/-- The active-program record is replaced by one of another slot. -/
theorem withActive (h : Shelved n q s) {x : Option Active} (hx : ∀ a, x = some a → a.slot ≠ n) :
    Shelved n q { s with sched.active := x } := ⟨h.holds, h.done, hx⟩

theorem mapActive (h : Shelved n q s) {f : Active → Active} (hf : ∀ a, (f a).slot = a.slot) :
    Shelved n q { s with sched.active := s.sched.active.map f } := by
  refine h.withActive fun a ha => ?_
  obtain ⟨b, hb, rfl⟩ := Option.map_eq_some_iff.1 ha
  rw [hf]
  exact h.aside b hb

theorem putProgram (h : Shelved n q s) (hk : k ≠ 0) (hn : k ≠ n) (p : Program) : Shelved n q (putProgram k p s) :=
  ⟨(putProgram_program_other hk hn.symm p).trans h.holds, h.done, by rw [putProgram_active]; exact h.aside⟩

/-- A slot in another state is another slot. -/
theorem ne_of_mem (h : Shelved n q s) {st : SlotState} (hs : st ≠ .done) (hk : k ∈ s.slotsIn st) : k ≠ n := by
  rintro rfl
  obtain ⟨-, p, hp, rfl⟩ := mem_slotsIn.1 hk
  rw [h.holds, Option.some.injEq] at hp
  exact hs (hp ▸ h.done)

/-- The active program is another. -/
theorem activeProgram (h : Shelved n q s) {a : Active} (ha : s.activeProgram = some (a, p)) :
    s.sched.active = some a ∧ a.slot ≠ n ∧ a.slot ≠ 0 := by
  obtain ⟨b, active, found⟩ := Option.bind_eq_some_iff.1 ha
  obtain ⟨r, program, e⟩ := Option.map_eq_some_iff.1 found
  cases e
  exact ⟨active, h.aside _ active, slot_ne_zero program⟩

/-! ### Outcomes and deferrals (R150, R151) -/

theorem deferSlot (h : Shelved n q s) (hk : k ≠ n) (c : DeferralCause) : Shelved n q (deferSlot k c s) := by
  unfold Machine.deferSlot
  split
  · next hp => exact h.putProgram (slot_ne_zero hp) hk _
  · exact h

theorem finishSlot (h : Shelved n q s) (hk : k ≠ n) (o : Outcome) (c : Option OutcomeCause) : Shelved n q (finishSlot k o c s) := by
  unfold Machine.finishSlot
  split
  · next hp => exact h.putProgram (slot_ne_zero hp) hk _
  · exact h

theorem finishShort (h : Shelved n q s) (hk : k ≠ n) (c : OutcomeCause) : Shelved n q (finishShort k c s) := by
  unfold Machine.finishShort
  split
  · exact h.finishSlot hk _ _
  · exact h

theorem dropActive (h : Shelved n q s) : Shelved n q (dropActive s) := h.withActive (by simp)

theorem deferActive (h : Shelved n q s) (c : DeferralCause) : Shelved n q (deferActive c s) := by
  unfold Machine.deferActive
  split
  · next ha => exact h.dropActive.deferSlot (h.aside _ ha) c
  · exact h

theorem finishActive (h : Shelved n q s) (c : OutcomeCause) : Shelved n q (finishActive c s) := by
  unfold Machine.finishActive
  split
  · next ha => exact h.dropActive.finishShort (h.aside _ ha) c
  · exact h

theorem expireSlot (h : Shelved n q s) (hk : k ≠ n) : Shelved n q (expireSlot s k) := by
  unfold Machine.expireSlot
  repeat' split
  · exact h
  · exact h.finishShort hk _
  · exact h

theorem expireDeferred (h : Shelved n q s) : Shelved n q (expireDeferred s) := by
  have others : ∀ l : List Nat, (∀ k ∈ l, k ≠ n) → ∀ t, Shelved n q t → Shelved n q (l.foldl Machine.expireSlot t) := by
    intro l
    induction l with
    | nil => exact fun _ t ht => ht
    | cons k l ih =>
      exact fun hl t ht => ih (fun k hk => hl k (List.mem_cons_of_mem _ hk)) _ (ht.expireSlot (hl k List.mem_cons_self))
  exact others _ (fun k hk => h.ne_of_mem (by decide) hk) s h

/-! ### Claims and bring-up (R162, R163) -/

theorem releaseTimer (h : Shelved n q s) : Shelved n q (releaseTimer s) := by
  refine Shelved.kept (s := releaseTimerMech s) ?_ (releaseTimerTuner_keeps _)
  unfold releaseTimerMech
  split
  · exact h.kept (setMech_keeps ..)
  · exact h

theorem askTuner (h : Shelved n q s) (k : Nat) : Shelved n q (askTuner k s) := by
  refine Shelved.kept ?_ (setTunerClaim_keeps ..)
  split
  · unfold cutScan
    split
    · exact h.kept (endScan_keeps ..)
    · exact h
  · exact h

theorem askMech (h : Shelved n q s) (k : Nat) : Shelved n q (askMech k s) := by
  unfold Machine.askMech
  split
  · exact h.mapActive fun _ => rfl
  all_goals
    have ended := h.kept (endOperator_keeps .preempted .preempted s)
    exact (ended.mapActive (f := fun a => { a with mechWait := false }) fun _ => rfl).of rfl

theorem bringUp (h : Shelved n q s) (fromScan : Bool) : Shelved n q (bringUp fromScan s) := by
  unfold Machine.bringUp
  split
  · exact h
  · next a p _ =>
    have woken := h.kept (wakeForTimer_keeps s)
    have tuned : Shelved n q (tuneFor p.preset fromScan (wakeForTimer s)) := by
      unfold tuneFor
      split
      · exact woken
      · exact woken.kept (beginTuning_keeps ..)
    dsimp only
    split
    · exact woken
    · unfold holdDeck
      split
      · exact tuned.kept (giveTarget_keeps ..)
      · exact tuned

theorem makeActive (h : Shelved n q s) (hk : k ≠ n) {a : Active} (ha : a.slot = k) : Shelved n q (makeActive k a s) := by
  unfold Machine.makeActive
  split
  · exact h
  · next p hp =>
    have active : Shelved n q { s with
        sched := { s.sched with active := some a, endAction := none, abortStop := none, rewindTail := false } } :=
      ⟨h.holds, h.done, fun b hb => by cases hb; exact ha ▸ hk⟩
    exact ((active.putProgram (slot_ne_zero hp) hk _).askTuner k).askMech k

theorem makeCueing (h : Shelved n q s) (hk : k ≠ n) (late : Bool) (latest : Option DeferralCause) :
    Shelved n q (makeCueing k late latest s) := (h.makeActive hk rfl).bringUp _

/-! ### The start point (R164, R165) -/

theorem beginRecord (h : Shelved n q s) : Shelved n q (beginRecord s) := by
  unfold Machine.beginRecord
  split
  · exact h
  · next a p ha =>
    obtain ⟨-, other, slot⟩ := h.activeProgram ha
    exact Shelved.kept (Shelved.putProgram (h.withActive fun b hb => by cases hb; exact other) slot other _) (giveRecord_keeps ..)

theorem passChecks (h : Shelved n q s) : Shelved n q (passChecks s) := by
  have point := h.mapActive (f := fun a => { a with phase := .starting, pointCome := true }) fun _ => rfl
  unfold Machine.passChecks
  dsimp only
  split
  · exact point.beginRecord
  · exact point

theorem startPoint (h : Shelved n q s) : Shelved n q (startPoint Machine.passChecks s) := by
  unfold Machine.startPoint meetChecks
  split
  · exact h.mapActive fun _ => rfl
  · split
    · exact h.passChecks
    · exact (h.finishActive _).releaseTimer
    · exact (h.deferActive _).releaseTimer

/-! ### The rules (R161, R174, R175) -/

theorem cueUp (h : Shelved n q s) : Shelved n q (cueUp s) := by
  unfold Machine.cueUp
  split
  · exact h
  · split
    · exact h
    · next k head =>
      have other : k ≠ n := h.ne_of_mem (by decide) (mem_sortByRank.1 (List.mem_of_mem_head? head))
      split
      · split
        · exact h.makeCueing other _ _
        · exact h
      · exact h

theorem pick (h : Shelved n q s) (hk : k ≠ n) : Shelved n q (pick k s) := by
  unfold Machine.pick lateStart
  dsimp only
  split
  · exact h.makeCueing hk _ _
  · exact (h.makeCueing hk _ _).startPoint

theorem applyRulesFor (h : Shelved n q s) (fuel : Nat) : Shelved n q (applyRulesFor fuel s) := by
  induction fuel generalizing s with
  | zero => exact h
  | succ fuel ih =>
    unfold Machine.applyRulesFor
    split
    · exact h
    · dsimp only
      split
      · exact h.cueUp
      · have expired := h.cueUp.expireDeferred
        split
        · exact expired
        · next k head =>
          have picked := expired.pick (expired.ne_of_mem (by decide) (mem_sortByRank.1 (List.mem_of_mem_head? head)))
          split
          · exact picked
          · exact ih picked

theorem applyRules (h : Shelved n q s) : Shelved n q (applyRules s) := h.applyRulesFor 17

/-- The end of an event applies the rules once more where it ends a DECK_RESET sequence (R181). -/
theorem settleUnits (h : Shelved n q s) (b : State) : Shelved n q (settleUnits b s) := by
  have rules : Shelved n q (rulesIfFree s) := by
    unfold rulesIfFree
    split
    · exact h.applyRules
    · exact h
  have resumed : Shelved n q (if b.transport.resetInFlight && !s.transport.resetInFlight then resumeAfterReset s else s) := by
    split
    · unfold resumeAfterReset
      dsimp only
      split
      · exact rules.kept (releaseTimerTuner_keeps _)
      · exact rules
    · exact h
  exact ((resumed.kept (checkHeld_keeps _)).kept (checkIdentifying_keeps _)).kept (checkStandby_keeps _)

end Shelved

end Sys2Proof.Machine
end

section
/-! What a clock jump makes of the programs (R154 to R156): each slot is judged by itself, and the rules then act on what waits. -/

namespace Sys2Proof.Machine

variable {s t : State} {n k m time : Nat} {p q : Program} {c : DeferralCause}

/-! ### One slot -/

theorem judgeSlot_keeps (c : DeferralCause) (s : State) (k : Nat) : KeepsBut [.sched, .sending] s (judgeSlot c s k) := by
  unfold judgeSlot
  split
  · exact putProgram_keeps ..
  · exact .refl _ _

/-- A slot is judged at the new time, and no other with it. -/
theorem judgeSlot_program (c : DeferralCause) (s : State) (k n : Nat) : (judgeSlot c s k).program n =
    if n = k then (s.program n).map (·.judged c s.clock.time) else s.program n := by
  unfold judgeSlot
  split
  · next p hp =>
    split
    · next e =>
      subst e
      rw [putProgram_program hp, hp]
      rfl
    · next other => exact putProgram_program_other (slot_ne_zero hp) other _
  · next empty =>
    split
    · next e => rw [e, empty]; rfl
    · rfl

/-! ### Every slot -/

/-- The sixteen slots have been judged. -/
def judgedAll (c : DeferralCause) (s : State) : State := slotNumbers.foldl (judgeSlot c) s

/-- What the judgement of a list of slots leaves: each record judged at the present time, and nothing changed but the records. -/
structure Judged (l : List Nat) (c : DeferralCause) (s t : State) : Prop where
  program : ∀ n, t.program n = if n ∈ l then (s.program n).map (·.judged c s.clock.time) else s.program n
  sched   : t.sched = { s.sched with slots := t.sched.slots }
  length  : t.sched.slots.length = s.sched.slots.length
  clock   : t.clock = s.clock
  keeps   : KeepsBut [.sched, .sending] s t

theorem judgeSlot_judged (c : DeferralCause) (s : State) (k : Nat) : Judged [k] c s (judgeSlot c s k) := by
  refine ⟨fun n => by simp only [judgeSlot_program, List.mem_singleton], ?_, ?_, ?_, judgeSlot_keeps c s k⟩
  all_goals unfold judgeSlot
  all_goals split
  all_goals simp [State.withSlot]

theorem judgeSlots_judged (c : DeferralCause) {l : List Nat} (distinct : l.Nodup) (s : State) : Judged l c s (l.foldl (judgeSlot c) s) := by
  induction l generalizing s with
  | nil => exact ⟨fun _ => by simp, rfl, rfl, rfl, .refl _ _⟩
  | cons k l ih =>
    obtain ⟨once, distinct⟩ := List.nodup_cons.1 distinct
    have head := judgeSlot_judged c s k
    have tail := ih distinct (judgeSlot c s k)
    rw [List.foldl_cons]
    refine ⟨fun n => ?_, ?_, tail.length.trans head.length, tail.clock.trans head.clock, head.keeps.trans tail.keeps⟩
    · rw [tail.program, head.program, head.clock]
      by_cases here : n = k
      · subst here
        simp [once]
      · simp [here]
    · rw [tail.sched, head.sched]

theorem judgedAll_judged (c : DeferralCause) (s : State) : Judged slotNumbers c s (judgedAll c s) := judgeSlots_judged c (by decide) s

theorem clockJump_eq (c : DeferralCause) (s : State) : clockJump c s = applyRules (judgedAll c s) := rfl

/-- A program that the jump finishes for good is left alone by the rules that follow. -/
theorem clockJump_shelves (active : s.sched.active = none) (hl : s.sched.slots.length = 16) (hp : s.program n = some p)
    (done : (p.judged c s.clock.time).state = .done) : Shelved n (p.judged c s.clock.time) (clockJump c s) := by
  have judged := judgedAll_judged c s
  have slot : n ∈ slotNumbers := mem_slotNumbers.2 (program_bounds hl hp)
  rw [clockJump_eq]
  refine Shelved.applyRules ⟨?_, done, fun a ha => ?_⟩
  · rw [judged.program, if_pos slot, hp]
    rfl
  · rw [judged.sched, active] at ha
    cases ha

/-! ### One program waits -/

/-- No program but that of a slot can ask for the deck. -/
structure OneWaits (n : Nat) (p : Program) (s : State) : Prop where
  only   : OnlyPrograms [n] s
  active : s.sched.active = none
  holds  : s.program n = some p

theorem OneWaits.of (h : OneWaits n p s) (sched : t.sched = s.sched) : OneWaits n p t := by
  have program : ∀ k, t.program k = s.program k := program_of_sched sched
  obtain ⟨⟨others, slots, endAction, abortStop, tail⟩, active, holds⟩ := h
  exact ⟨⟨fun k p hk hp => others k p hk (program k ▸ hp), by rw [sched]; exact slots, by rw [sched]; exact endAction,
    by rw [sched]; exact abortStop, by rw [sched]; exact tail⟩, by rw [sched]; exact active, (program n).trans holds⟩

/-- With the slot empty no program would wait. -/
theorem oneWaits_of_emptied (h : NoPrograms (s.withSlot n none)) (hl : s.sched.slots.length = 16) (hp : s.program n = some p) :
    OneWaits n p s := by
  refine ⟨⟨fun k q hk hq => h.slots k q ?_, hl, h.endAction, h.abortStop, h.tail⟩, h.active, hp⟩
  rw [program_withSlot_other (slot_ne_zero hp) (by simpa using hk)]
  exact hq

/-- The judgement has a part in the program that waits alone. -/
theorem OneWaits.judged (h : OneWaits n p s) (c : DeferralCause) : OneWaits n (p.judged c s.clock.time) (judgedAll c s) := by
  have judged := judgedAll_judged c s
  obtain ⟨⟨others, slots, endAction, abortStop, tail⟩, active, holds⟩ := h
  have length : (judgedAll c s).sched.slots.length = 16 := judged.length.trans slots
  refine ⟨⟨fun k q hk hq => ?_, length, by rw [judged.sched]; exact endAction, by rw [judged.sched]; exact abortStop,
    by rw [judged.sched]; exact tail⟩, by rw [judged.sched]; exact active, ?_⟩
  · have slot := mem_slotNumbers.2 (program_bounds length hq)
    rw [judged.program, if_pos slot, Option.map_eq_some_iff] at hq
    obtain ⟨r, hr, rfl⟩ := hq
    have done := others k r hk hr
    rw [judged_done done]
    exact done
  · rw [judged.program, if_pos (mem_slotNumbers.2 (program_bounds slots holds)), holds]
    rfl

/-- A program whose cue-up time has not come waits on (R161). -/
theorem OneWaits.applyRules_early (h : OneWaits n p s) (armed : p.state = .armed) (early : s.clock.time + 120 < p.next * 60) :
    applyRules s = s := by
  have cue : cueUp s = s := by
    have late : ¬ p.windowStart ≤ s.clock.time + 120 := Nat.not_le.2 early
    simp [cueUp, h.active, h.only.pendingList h.holds, armed, h.holds, late]
  have expire : expireDeferred s = s := by
    simp [expireDeferred, h.only.slotsIn h.holds (st := .deferred) (by decide), armed]
  have deferred : s.deferredByPick = [] := by simp [h.only.deferredByPick h.holds, armed]
  simp [applyRules, applyRulesFor, cue, expire, deferred]

/-- A deferred program waits on while a protection holds the deck (R174). -/
theorem OneWaits.applyRules_protected (h : OneWaits n p s) (deferred : p.state = .deferred) (protect : s.mech.isProtect = true) :
    applyRules s = s := by
  have cue : cueUp s = s := by simp [cueUp, h.active, h.only.pendingList h.holds, deferred]
  have held : s.deckFree = false := by simp [State.deckFree, protect]
  simp [applyRules, applyRulesFor, cue, held]

/-! ### The judgement of one program (R155, R156) -/

theorem minuteLeft_iff : p.minuteLeft time = true ↔ p.carried = true ∨ time + 60 ≤ (p.next + p.duration) * 60 := by
  rw [Program.minuteLeft, Bool.or_eq_true, decide_eq_true_eq]
  rfl

theorem begun_iff : p.begun time = true ↔ p.carried = false ∧ p.next * 60 ≤ time := by
  rw [Program.begun, Bool.and_eq_true, decide_eq_true_eq, Bool.not_eq_true']
  rfl

theorem begun_early (h : time < p.next * 60) : p.begun time = false := by
  rw [← Bool.not_eq_true, begun_iff]
  exact fun begun => Nat.not_le.2 h begun.2

theorem running_early (h : time < p.next * 60) : p.running time = false := by rw [Program.running, begun_early h, Bool.false_and]

/-- A repeat program that finishes is ARMED for the occurrence after its window (R152). -/
theorem finished_repeat (hk : p.pattern ≠ .once) (o : Outcome) (x : Option OutcomeCause) (h :
    occurrenceSearch p.pattern p.start p.duration time (some { at_ := p.windowEnd, carried := p.carried }) = (m, false)) :
    p.finished o x time = { p with
      state := .armed, deferral := none, run := .cleared, outcome := some o, cause := x, next := m, carried := false } := by
  unfold Program.finished
  dsimp only
  rw [if_neg hk]
  exact congrArg (fun r : Nat × Bool => ({ p with
    state := .armed, deferral := none, run := .cleared, outcome := some o, cause := x, next := r.1, carried := r.2 } : Program)) h

section
variable (waits : p.state = .armed ∨ p.state = .deferred)
include waits

/-- With no 60 s left the occurrence finishes short, and is followed by the next of a repeat program, which may be running already. -/
theorem judged_expired (inCalendar : p.carried = false) (expired : (p.next + p.duration) * 60 < time + 60) : p.judged c time =
    let f := p.finished p.shortOutcome (some c.outcomeCause) time
    if f.state = .armed ∧ f.running time then f.deferredWith c else f := by
  have left : p.minuteLeft time = false := by
    rw [← Bool.not_eq_true, minuteLeft_iff, inCalendar]
    simpa using expired
  rw [Program.judged, if_pos waits, left]
  rfl

theorem judged_expired_once (inCalendar : p.carried = false) (hk : p.pattern = .once)
    (expired : (p.next + p.duration) * 60 < time + 60) : p.judged c time = p.short c.outcomeCause := by
  rw [judged_expired waits inCalendar expired, finished_short hk]
  exact if_neg fun armed => by cases armed.1

theorem judged_expired_repeat (inCalendar : p.carried = false) (hk : p.pattern ≠ .once)
    (expired : (p.next + p.duration) * 60 < time + 60) (early : time < m * 60)
    (next : occurrenceSearch p.pattern p.start p.duration time (some { at_ := p.windowEnd, carried := false }) = (m, false)) :
    p.judged c time = { p.short c.outcomeCause with state := .armed, run := .cleared, next := m } := by
  have finished : p.finished p.shortOutcome (some c.outcomeCause) time =
      { p.short c.outcomeCause with state := .armed, run := .cleared, next := m } := by
    rw [finished_repeat hk _ _ (by rw [inCalendar]; exact next)]
    simp only [Program.short, Program.shortOutcome, inCalendar]
  have ahead : ({ p.short c.outcomeCause with state := .armed, run := .cleared, next := m } : Program).running time = false :=
    running_early early
  rw [judged_expired waits inCalendar expired, finished]
  exact if_neg fun running => by simp [ahead] at running

/-- A window that has 60 s left and has not begun is ARMED again; a repeat program's start is searched from the new time. -/
theorem judged_ahead (early : time < p.next * 60) (one : 1 ≤ p.duration) : p.judged c time =
    if p.pattern = .once then { p with state := .armed, deferral := none }
    else
      let r := occurrenceSearch p.pattern p.start p.duration time none
      let q := { p with state := .armed, deferral := none, next := r.1, carried := r.2 }
      if q.running time then q.deferredWith c else q := by
  have left : p.minuteLeft time = true := minuteLeft_iff.2 (.inr (by omega))
  rw [Program.judged, if_pos waits, left, begun_early early]
  rfl

theorem judged_ahead_repeat (inCalendar : p.carried = false) (hk : p.pattern ≠ .once) (early : time < p.next * 60)
    (one : 1 ≤ p.duration) (later : time < m * 60) (next : occurrenceSearch p.pattern p.start p.duration time none = (m, false)) :
    p.judged c time = { p with state := .armed, deferral := none, next := m } := by
  have ahead : ({ p with state := .armed, deferral := none, next := m } : Program).running time = false := running_early later
  rw [judged_ahead waits early one, if_neg hk, next, ← inCalendar]
  exact if_neg (Bool.not_eq_true _ ▸ ahead)

/-- A window that runs defers its program, if it was not deferred already. -/
theorem judged_running (inCalendar : p.carried = false) (begun : p.next * 60 ≤ time) (left : time + 60 ≤ (p.next + p.duration) * 60) :
    p.judged c time = if p.state = .armed then p.putOff c else p := by
  rw [Program.judged, if_pos waits, minuteLeft_iff.2 (.inr left), begun_iff.2 ⟨inCalendar, begun⟩, deferredWith_eq]
  rfl

end

end Sys2Proof.Machine
end

section
/-! O47: CLOCK_SET with its jump, and CLOCK_SOURCE (R127, R131 to R134, R154 to R156). -/

namespace Sys2Proof.Machine

variable {s t : State} {n m time : Nat} {p q : Program} {x : StampBytes} {b : Byte}

/-! ### The time given (R133) -/

/-- The clock as a time is given: SET, and its second begun afresh. -/
def Clock.given (c : Clock) (time : Nat) : Clock :=
  { c with time := time, set := true, sinceBoundary := 0, cycleCount := c.cycleCount.map fun _ => 0 }

/-- The time has been given, and the jump is to come. -/
def clockGiven (time : Nat) (s : State) : State := postClock { s with clock := s.clock.given time }

@[simp] theorem clockGiven_clock (time : Nat) (s : State) : (clockGiven time s).clock = s.clock.given time := by simp [clockGiven]
@[simp] theorem clockGiven_sched (time : Nat) (s : State) : (clockGiven time s).sched = s.sched := by simp [clockGiven]
@[simp] theorem clockGiven_now (time : Nat) (s : State) : (clockGiven time s).now = s.now := by simp [clockGiven]

theorem clockGiven_keeps (time : Nat) (s : State) : KeepsBut [.time, .clock, .sending] s (clockGiven time s) :=
  ((withClock_keeps _ s).mono (by simp)).trans ((postClock_keeps _).mono (by simp))

theorem exec_clockSet_refused {st : Status} (hs : PortReady s) (hd : NothingDue s) (h : clockSetRequest x s = answer st s) :
    exec (.clockSet x) s = .next (answered .clockSet { status := st } s) :=
  congrArg Host.Outcome.next (requestFrame_refused hs hd rfl h)

/-- A time taken is given, the programs are judged at it, and the event ends. -/
theorem exec_clockSet_taken (hs : PortReady s) (hx : secondsOf x = some time) (ha : s.programActive = false) : exec (.clockSet x) s =
    .next (answered .clockSet { status := .ok } (settleUnits s (clockJump .clockSet (clockGiven time s)))) := by
  have served : clockSetRequest x s = answer .ok (clockJump .clockSet (clockGiven time s)) := by
    simp only [clockSetRequest, hx, ha, Bool.false_eq_true, if_false]
    rfl
  exact congrArg Host.Outcome.next (requestFrame_settled hs rfl rfl served)

theorem program_answered (k : RequestKind) (r : Reply) (s : State) (n : Nat) : (answered k r s).program n = s.program n :=
  program_of_sched (answered_keeps k r s).sched n

/-! ### What becomes of a program (R154 to R156) -/

/-- A ONCE program with no 60 s left is DONE, whatever the jump starts besides. -/
theorem clockSet_expires (hs : PortReady s) (hx : secondsOf x = some time) (ha : s.programActive = false) (active : s.sched.active = none)
    (hl : s.sched.slots.length = 16) (hp : s.program n = some p) (hk : p.pattern = .once) (waits : p.state = .armed ∨ p.state = .deferred)
    (inCalendar : p.carried = false) (expired : (p.next + p.duration) * 60 < time + 60) :
    ∃ t, exec (.clockSet x) s = .next t ∧ t.program n = some (p.short .clockSet) := by
  have judged : p.judged .clockSet (clockGiven time s).clock.time = p.short .clockSet := by
    rw [clockGiven_clock]
    exact judged_expired_once waits inCalendar hk expired
  have shelved := clockJump_shelves (s := clockGiven time s) (c := .clockSet) (by rw [clockGiven_sched]; exact active)
    (by rw [clockGiven_sched]; exact hl) ((program_of_sched (clockGiven_sched ..) n).trans hp) (by rw [judged]; rfl)
  rw [judged] at shelved
  exact ⟨_, exec_clockSet_taken hs hx ha, (program_answered ..).trans (shelved.settleUnits s).holds⟩

/-- The program that waits alone becomes what the judgement makes of it, where the rules have no part in that. -/
theorem clockSet_judges (hs : PortReady s) (hd : NothingDue s) (hx : secondsOf x = some time) (ha : s.programActive = false)
    (hw : OneWaits n p s) (hq : p.judged .clockSet time = q)
    (stays : ∀ u, OneWaits n q u → u.clock.time = time → u.mech = s.mech → applyRules u = u) :
    ∃ t, exec (.clockSet x) s = .next t ∧ t.program n = some q := by
  have given := clockGiven_keeps time s
  have judged := judgedAll_judged .clockSet (clockGiven time s)
  have waits := (hw.of (clockGiven_sched time s)).judged .clockSet
  have kept : KeepsBut [.time, .clock, .sched, .sending] s (judgedAll .clockSet (clockGiven time s)) :=
    (given.mono (by simp)).trans (judged.keeps.mono (by simp))
  rw [clockGiven_clock] at waits
  have becomes : OneWaits n q (judgedAll .clockSet (clockGiven time s)) := hq ▸ waits
  have now : (judgedAll .clockSet (clockGiven time s)).clock.time = time := by
    rw [judged.clock, clockGiven_clock]
    rfl
  have jump : clockJump .clockSet (clockGiven time s) = judgedAll .clockSet (clockGiven time s) :=
    (clockJump_eq ..).trans (stays _ becomes now kept.mech)
  have ended := exec_clockSet_taken hs hx ha
  rw [jump, (hd.undue.untouched kept).settles (sequence_same (by rw [kept.transport]))] at ended
  exact ⟨_, ended, (program_answered ..).trans becomes.holds⟩

/-- With no program that waits the clock alone has changed. -/
theorem clockSet_idle (hs : PortReady s) (hd : NothingDue s) (hx : secondsOf x = some time) (ha : s.programActive = false)
    (hp : NoPrograms s) : exec (.clockSet x) s = .next (answered .clockSet { status := .ok } (clockGiven time s)) := by
  have kept := clockGiven_keeps time s
  rw [exec_clockSet_taken hs hx ha, clockJump_idle (hp.of (clockGiven_sched ..)),
    (hd.undue.untouched kept).settles (sequence_same (by rw [kept.transport]))]

/-! ### CLOCK_SOURCE (R131, R132) -/

theorem valueAt_sourceSetting (b : Byte) :
    valueAt SourceSetting.all b = if b = 1 then some .auto else if b = 2 then some .crystal else none := by
  by_cases zero : b = 0
  · subst zero
    rfl
  by_cases one : b = 1
  · subst one
    rfl
  by_cases two : b = 2
  · subst two
    rfl
  · have beyond : SourceSetting.all.length ≤ b.toNat - 1 := by
      have length : SourceSetting.all.length = 2 := rfl
      bv_omega
    rw [valueAt, if_neg zero, if_neg one, if_neg two, List.getElem?_eq_none beyond]

/-- CLOCK_SOURCE with no setting to change is answered, and that is all. -/
theorem exec_clockSource_unchanged {st : Status} (hs : PortReady s) (hd : NothingDue s) (h : clockSourceRequest b s = answer st s) :
    exec (.clockSource b) s = .next (answered .clockSource { status := st } s) :=
  congrArg Host.Outcome.next (requestFrame_refused hs hd rfl h)

theorem clockSourceRequest_same (hv : valueAt SourceSetting.all b = some s.clock.setting) : clockSourceRequest b s = answer .ok s := by
  simp only [clockSourceRequest, hv, if_true]

/-- A change of the setting that has made a clock of the present one is answered with the CLOCK note. -/
theorem exec_clockSource_changed {v : SourceSetting} {c : Clock} (hs : PortReady s) (hd : NothingDue s)
    (hv : valueAt SourceSetting.all b = some v) (change : v ≠ s.clock.setting)
    (taken : recomputeSource { s with clock.setting := v } = { s with clock := c }) (phase : c.sinceBoundary = s.clock.sinceBoundary) :
    ∃ t, exec (.clockSource b) s = .next t ∧ Replied .clockSource { status := .ok } t ∧ t.clock = c ∧
      Announced .clock t.clockBytes t ∧ KeepsBut [.clock, .sending] s t := by
  have kept : KeepsBut [.clock, .sending] s (postClock { s with clock := c }) :=
    ((withClock_keeps_time c s phase).mono (by simp)).trans ((postClock_keeps _).mono (by simp))
  have served : clockSourceRequest b s = answer .ok (postClock { s with clock := c }) := by
    simp only [clockSourceRequest, hv, change, if_false, taken]
  have settled := (hd.undue.untouched kept).settles (b := s) (sequence_same (by rw [kept.transport]))
  have told : ClockTold (postClock { s with clock := c }) := postClock_told (s := { s with clock := c }) hs.runs
  have ended : exec (.clockSource b) s =
      .next (answered .clockSource { status := .ok } (settleUnits s (postClock { s with clock := c }))) :=
    congrArg Host.Outcome.next (requestFrame_settled hs rfl rfl served)
  rw [settled] at ended
  exact ⟨_, ended, replied_answered .., by simp [answered], told.answered .., answered_sent_keeps kept (by simp) _ _⟩

/-- CRYSTAL set takes the second over where the mains has it, as it stands (R131). -/
theorem recomputeSource_set_crystal (rest : s.clock.sinceBoundary < 12288000) : recomputeSource { s with clock.setting := .crystal } =
    { s with clock := { s.clock with
      setting := .crystal, source := .crystal, cycleCount := if s.clock.source = .mains then none else s.clock.cycleCount } } := by
  have due : State.sourceDue { s with clock.setting := .crystal } = .crystal := by simp [State.sourceDue]
  cases on : s.clock.source with
  | crystal =>
    rw [recomputeSource_same (due.trans on.symm), if_neg (by decide)]
    simp only [← on]
  | mains =>
    rw [recomputeSource_unfinished due on rest, if_pos rfl]
    rfl

/-- The clock as AUTO is set under the crystal. -/
def Clock.autoSet (c : Clock) : Clock :=
  if c.reading.cycles.isSome then Clock.onMains { c with setting := .auto } else { c with setting := .auto }

theorem Clock.autoSet_usable {c : Clock} (h : c.reading.cycles = some n) : c.autoSet = { c with
    setting := .auto, source := .mains, cycleCount := some (min (n - 1) (c.sinceBoundary / 375 * n / 32768)) } := by
  rw [autoSet, h, Option.isSome_some, if_pos rfl]
  simp only [onMains, h, Option.getD_some]

theorem Clock.autoSet_unusable {c : Clock} (h : c.reading.cycles = none) : c.autoSet = { c with setting := .auto } := by
  rw [autoSet, h, Option.isSome_none, if_neg Bool.false_ne_true]

/-- AUTO set hands the second to the mains where its reading is usable (R131). -/
theorem recomputeSource_set_auto (hb : s.power.state ≠ .backup) (on : s.clock.source = .crystal) :
    recomputeSource { s with clock.setting := .auto } = { s with clock := s.clock.autoSet } := by
  cases usable : s.clock.reading.cycles with
  | some n =>
    have due : State.sourceDue { s with clock.setting := .auto } = .mains := by simp [State.sourceDue, hb, usable]
    rw [recomputeSource_mains due on, Clock.autoSet, usable, Option.isSome_some, if_pos rfl]
  | none =>
    have due : State.sourceDue { s with clock.setting := .auto } = .crystal := by simp [State.sourceDue, usable]
    rw [recomputeSource_same (due.trans on.symm), Clock.autoSet_unusable usable]

/-! ### The statement -/

/-- Settles O47: the jump judges each program by itself, and what waits after it is left alone by the rules, or is DONE and out of their
reach; the source in use follows the setting. -/
theorem clockServed : Obligations.ClockServed := by
  intro s hs hd
  refine ⟨fun x => ⟨fun hx => ?_, fun time hx => ⟨fun active => ?_, fun ha => ⟨fun idle => ?_, ?_, ?_⟩⟩⟩,
    fun b => ⟨fun auto crystal => ?_, fun same => ?_, ?_, ?_⟩⟩
  · exact exec_clockSet_refused hs hd (by simp [clockSetRequest, hx])
  · exact exec_clockSet_refused hs hd (by simp [clockSetRequest, hx, active])
  · exact ⟨_, clockSet_idle hs hd hx ha idle, replied_answered .., by simp [answered], by simp [answered, Clock.given],
      ClockTold.answered (postClock_told (s := { s with clock := s.clock.given time }) hs.runs) ..,
      answered_sent_keeps (clockGiven_keeps time s) (by simp) _ _⟩
  · intro active hl n _ p hp hk waits inCalendar expired
    exact clockSet_expires hs hx ha active hl hp hk waits inCalendar expired
  · intro hl n _ emptied p hp waits inCalendar one long
    have alone := oneWaits_of_emptied emptied hl hp
    refine ⟨fun hk expired m next later => ?_, fun hk ahead m next later => ?_, fun hk later => ?_, fun begun left protect => ?_⟩
    · have found := occurrenceSearch_next (l := some { at_ := p.windowEnd, carried := false }) next hk rfl one long
      exact clockSet_judges hs hd hx ha alone (judged_expired_repeat waits inCalendar hk expired (by omega) found)
        fun u hu now _ => hu.applyRules_early rfl (now ▸ later)
    · have found := occurrenceSearch_next (l := none) next hk rfl one long
      exact clockSet_judges hs hd hx ha alone (judged_ahead_repeat waits inCalendar hk ahead one (by omega) found)
        fun u hu now _ => hu.applyRules_early rfl (now ▸ later)
    · have judged : p.judged .clockSet time = { p with state := .armed, deferral := none } := by
        rw [judged_ahead waits (by omega) one, if_pos hk]
      exact clockSet_judges hs hd hx ha alone judged fun u hu now _ => hu.applyRules_early rfl (now ▸ later)
    · refine clockSet_judges hs hd hx ha alone (judged_running waits inCalendar begun left) fun u hu _ mech => ?_
      refine hu.applyRules_protected ?_ (mech ▸ protect)
      split
      · rfl
      · next other => exact waits.resolve_left other
  · have unknown : valueAt SourceSetting.all b = none := by rw [valueAt_sourceSetting, if_neg auto, if_neg crystal]
    exact exec_clockSource_unchanged hs hd (by simp only [clockSourceRequest, unknown])
  · refine exec_clockSource_unchanged hs hd (clockSourceRequest_same ?_)
    rcases same with ⟨rfl, setting⟩ | ⟨rfl, setting⟩ <;> rw [setting] <;> rfl
  · rintro rfl setting rest
    exact exec_clockSource_changed hs hd (valueAt_sourceSetting 2) (by rw [setting]; decide) (recomputeSource_set_crystal rest) rfl
  · rintro rfl setting on
    obtain ⟨t, ended, replied, clock, told, kept⟩ := exec_clockSource_changed hs hd (valueAt_sourceSetting 1) (by rw [setting]; decide)
      (recomputeSource_set_auto hs.runs on) (by unfold Clock.autoSet; split <;> rfl)
    exact ⟨t, ended, replied, fun n usable => clock.trans (Clock.autoSet_usable usable),
      fun unusable => clock.trans (Clock.autoSet_unusable unusable), told, kept⟩

end Sys2Proof.Machine
end

section
/-! What the statements of timed recording share: two slots of the table, what the collections make of them, and what the rules then do
(R148, R150, R161, R174, R175). -/

namespace Sys2Proof.Machine

variable {s t : State} {n k m : Nat} {p q r : Program} {x y : Option Program} {a : Active} {st : SlotState} {rank : Nat → Nat}

/-! ### Two slots of the table -/

/-- A slot holds a record in a state. -/
def StandsIn (x : Option Program) (st : SlotState) : Prop := ∃ p, x = some p ∧ p.state = st

@[simp] theorem standsIn_some : StandsIn (some p) st ↔ p.state = st := by simp [StandsIn]

@[simp] theorem not_standsIn_none : ¬ StandsIn none st := by simp [StandsIn]

/-- What two slots of the table hold; every other program is DONE. A slot that holds nothing may be none of the table's. -/
structure Pair (n : Nat) (x : Option Program) (k : Nat) (y : Option Program) (s : State) : Prop where
  first  : s.program n = x
  second : s.program k = y
  apart  : n ≠ k
  inside : n ≤ 16 ∧ k ≤ 16
  others : ∀ m r, m ≠ n → m ≠ k → s.program m = some r → r.state = .done

theorem pair_of_others (hn : n ≤ 16) (hp : s.program n = some p) (h : ∀ m r, m ≠ n → s.program m = some r → r.state = .done) :
    Pair n (some p) 0 none s :=
  ⟨hp, rfl, slot_ne_zero hp, ⟨hn, Nat.zero_le 16⟩, fun m r hm _ => h m r hm⟩

theorem OnlyPrograms.pair (h : OnlyPrograms [n] s) (hn : n ≤ 16) (hp : s.program n = some p) : Pair n (some p) 0 none s :=
  pair_of_others hn hp fun m r hm => h.others m r (by simpa using hm)

theorem OnlyPrograms.pair_two (h : OnlyPrograms [n, k] s) (hn : n ≤ 16) (hk : k ≤ 16) (apart : n ≠ k) :
    Pair n (s.program n) k (s.program k) s :=
  ⟨rfl, rfl, apart, ⟨hn, hk⟩, fun m r hm hj => h.others m r (by simp [hm, hj])⟩

theorem pair_of_emptied (h : NoPrograms (s.withSlot n none)) (hn : n ≤ 16) (hp : s.program n = some p) : Pair n (some p) 0 none s :=
  pair_of_others hn hp fun m r hm hr => h.slots m r (by rwa [program_withSlot_other (slot_ne_zero hp) hm])

theorem slotsIn_nodup (st : SlotState) (s : State) : (s.slotsIn st).Nodup := List.Nodup.filter _ (by decide)

namespace Pair

theorem symm (h : Pair n x k y s) : Pair k y n x s :=
  ⟨h.second, h.first, h.apart.symm, h.inside.symm, fun m r hk hn => h.others m r hn hk⟩

theorem congr (h : Pair n x k y s) (same : ∀ m, t.program m = s.program m) : Pair n x k y t :=
  ⟨(same n).trans h.first, (same k).trans h.second, h.apart, h.inside, fun m r hn hk hr => h.others m r hn hk (same m ▸ hr)⟩

theorem of (h : Pair n x k y s) (sched : t.sched = s.sched) : Pair n x k y t := h.congr (program_of_sched sched)

/-- A record is put in the place of the first. -/
theorem put (h : Pair n (some p) k y s) (q : Program) : Pair n (some q) k y (putProgram n q s) := by
  have slot := slot_ne_zero h.first
  exact ⟨putProgram_program h.first q, (putProgram_program_other slot h.apart.symm q).trans h.second, h.apart, h.inside,
    fun m r hn hk hr => h.others m r hn hk ((putProgram_program_other slot hn q).symm.trans hr)⟩

theorem mem (h : Pair n x k y s) (hs : st ≠ .done) : m ∈ s.slotsIn st ↔ m = n ∧ StandsIn x st ∨ m = k ∧ StandsIn y st := by
  rw [mem_slotsIn]
  constructor
  · rintro ⟨-, r, hr, rfl⟩
    by_cases hn : m = n
    · exact .inl ⟨hn, r, by rw [← h.first, ← hn, hr], rfl⟩
    by_cases hk : m = k
    · exact .inr ⟨hk, r, by rw [← h.second, ← hk, hr], rfl⟩
    · exact absurd (h.others m r hn hk hr) hs
  · rintro (⟨rfl, r, rfl, rfl⟩ | ⟨rfl, r, rfl, rfl⟩)
    · exact ⟨⟨Nat.one_le_iff_ne_zero.2 (slot_ne_zero h.first), h.inside.1⟩, r, h.first, rfl⟩
    · exact ⟨⟨Nat.one_le_iff_ne_zero.2 (slot_ne_zero h.second), h.inside.2⟩, r, h.second, rfl⟩

theorem slots_none (h : Pair n x k y s) (hs : st ≠ .done) (hx : ¬ StandsIn x st) (hy : ¬ StandsIn y st) : s.slotsIn st = [] :=
  List.eq_nil_iff_forall_not_mem.2 fun m hm => by simp [h.mem hs, hx, hy] at hm

theorem slots_first (h : Pair n x k y s) (hs : st ≠ .done) (hx : StandsIn x st) (hy : ¬ StandsIn y st) : s.slotsIn st = [n] :=
  List.perm_singleton.1 ((List.perm_ext_iff_of_nodup (slotsIn_nodup st s) (List.nodup_singleton n)).2 fun m => by
    simp [h.mem hs, hx, hy])

/-- Where both are in a state, the order of the rank puts the first ahead. -/
theorem sorted_both (h : Pair n x k y s) (hs : st ≠ .done) (hx : StandsIn x st) (hy : StandsIn y st) (before : rank n < rank k) :
    sortByRank rank (s.slotsIn st) = [n, k] := by
  have both : (s.slotsIn st).Perm [n, k] :=
    (List.perm_ext_iff_of_nodup (slotsIn_nodup st s) (by simpa using h.apart)).2 fun m => by simp [h.mem hs, hx, hy]
  rcases List.perm_pair.1 both with e | e
  · rw [e, sortByRank_two, if_pos before]
  · rw [e, sortByRank_two, if_neg (by omega)]

theorem pendingList_none (h : Pair n x k y s) (hx : ¬ StandsIn x .armed) (hy : ¬ StandsIn y .armed) : s.pendingList = [] := by
  rw [State.pendingList, h.slots_none (by decide) hx hy, sortByRank_nil]

theorem pendingList_first (h : Pair n x k y s) (hx : StandsIn x .armed) (hy : ¬ StandsIn y .armed) : s.pendingList = [n] := by
  rw [State.pendingList, h.slots_first (by decide) hx hy, sortByRank_one]

theorem pendingList_both (h : Pair n (some p) k (some q) s) (hp : p.state = .armed) (hq : q.state = .armed)
    (before : p.pendingRank n < q.pendingRank k) : s.pendingList = [n, k] := by
  rw [State.pendingList, h.sorted_both (by decide) (by simpa using hp) (by simpa using hq)]
  simpa [h.first, h.second] using before

/-- The selection's order begins with the first, where it is DEFERRED and the second, if DEFERRED too, comes after it. -/
theorem deferredByPick_head (h : Pair n (some p) k y s) (hp : p.state = .deferred)
    (before : ∀ q, y = some q → q.state = .deferred → p.pickRank n < q.pickRank k) : s.deferredByPick.head? = some n := by
  by_cases hy : StandsIn y .deferred
  · obtain ⟨q, rfl, hq⟩ := hy
    rw [State.deferredByPick, h.sorted_both (by decide) (by simpa using hp) (by simpa using hq), List.head?_cons]
    simpa [h.first, h.second] using before q rfl hq
  · rw [State.deferredByPick, h.slots_first (by decide) (by simpa using hp) hy, sortByRank_one, List.head?_cons]

end Pair

/-! ### The deferred set (R150, R175) -/

theorem deferSlot_some (h : s.program n = some p) (c : DeferralCause) : deferSlot n c s = putProgram n (p.putOff c) s := by
  simp only [deferSlot, h, deferredWith_eq]

theorem finishShort_once (h : s.program n = some p) (once : p.pattern = .once) (c : OutcomeCause) :
    finishShort n c s = putProgram n (p.short c) s := by
  simp only [finishShort, finishSlot, h, finished_short once]

/-- Each member of the deferred set has a minute of its window left. -/
def DeferredLast (s : State) : Prop :=
  ∀ m r, s.program m = some r → r.state = .deferred → s.clock.time + 60 ≤ (r.next + r.duration) * 60

theorem Pair.deferredLast (h : Pair n x k y s)
    (hx : ∀ r, x = some r → r.state = .deferred → s.clock.time + 60 ≤ (r.next + r.duration) * 60)
    (hy : ∀ r, y = some r → r.state = .deferred → s.clock.time + 60 ≤ (r.next + r.duration) * 60) : DeferredLast s := by
  intro m r hr deferred
  by_cases hn : m = n
  · exact hx r (by rw [← h.first, ← hn, hr]) deferred
  by_cases hk : m = k
  · exact hy r (by rw [← h.second, ← hk, hr]) deferred
  · rw [h.others m r hn hk hr] at deferred
    cases deferred

theorem DeferredLast.expire (h : DeferredLast s) : expireDeferred s = s := by
  have each : ∀ m ∈ s.slotsIn .deferred, expireSlot s m = s := fun m hm => by
    obtain ⟨-, r, hr, deferred⟩ := mem_slotsIn.1 hm
    simp only [expireSlot, hr, minuteLeft_iff.2 (.inr (h m r hr deferred)), if_true]
  have all : ∀ l : List Nat, (∀ m ∈ l, expireSlot s m = s) → l.foldl expireSlot s = s := fun l => by
    induction l with
    | nil => exact fun _ => rfl
    | cons m l ih => exact fun hl => by rw [List.foldl_cons, hl m List.mem_cons_self, ih fun j hj => hl j (List.mem_cons_of_mem m hj)]
  exact all _ each

/-! ### The rules (R161, R174) -/

theorem cueUp_active (h : s.sched.active = some a) : cueUp s = s := by simp [cueUp, h]

/-- While a program is active the rules do nothing. -/
theorem applyRules_active (h : s.sched.active = some a) : applyRules s = s := by
  simp [applyRules, applyRulesFor, cueUp_active h, State.deckFree, h]

theorem rulesIfFree_active (h : s.sched.active = some a) : rulesIfFree s = s := by simp [rulesIfFree, h]

theorem rulesIfFree_free (h : s.sched.active = none) : rulesIfFree s = applyRules s := by simp [rulesIfFree, h]

/-- A slot that the cue-up rule makes active ends the rules. -/
theorem applyRules_cued (hb : s.power.state ≠ .backup) (cued : cueUp s = t) (h : t.sched.active = some a) : applyRules s = t := by
  simp [applyRules, applyRulesFor, hb, cued, State.deckFree, h]

theorem cueUp_none (h : s.pendingList = []) : cueUp s = s := by simp [cueUp, h]

/-- With none ARMED, and none DEFERRED or the deck not free, the rules find none to act on. -/
theorem applyRules_none (pending : s.pendingList = [])
    (waits : s.deckFree = false ∨ s.slotsIn .deferred = []) : applyRules s = s := by
  have cue := cueUp_none pending
  rcases waits with busy | none
  · simp [applyRules, applyRulesFor, cue, busy]
  · simp [applyRules, applyRulesFor, cue, expireDeferred, State.deferredByPick, none]

/-- The deck is free to a deferred program: the first in the selection's order is picked (R174). -/
theorem applyRules_picks (hb : s.power.state ≠ .backup) (pending : s.pendingList = []) (free : s.deckFree = true)
    (last : DeferredLast s) (head : s.deferredByPick.head? = some n) (picked : pick n s = t) (h : t.sched.active = some a) :
    applyRules s = t := by
  simp [applyRules, applyRulesFor, hb, cueUp_none pending, free, last.expire, head, picked, h]

theorem applyRules_protected (pending : s.pendingList = []) (protect : s.mech.isProtect = true) : applyRules s = s :=
  applyRules_none pending (.inl (by simp [State.deckFree, protect]))

theorem applyRules_damp (pending : s.pendingList = []) (dew : s.transport.dew = true) : applyRules s = s :=
  applyRules_none pending (.inl (by simp [State.deckFree, dew]))

end Sys2Proof.Machine
end

section
/-! The deck in the hands of the scheduler: REC_PAUSE and RECORD given (R163, R165), the claims of a slot (R162), the bring-up (R163), the
start checks passed (R164), and a change over from one program to another (R172, R173). -/

namespace Sys2Proof.Machine

variable {s t u : State} {n k m : Nat} {p q : Program} {a : Active} {mode : Mode}

/-! ### The clock and the slots under a frame -/

theorem KeepsBut.time {l : List Part} (h : KeepsBut l s t) (hc : Part.clock ∉ l := by decide) : t.clock.time = s.clock.time := by
  have same : ({ t.clock with sinceBoundary := 0 } : Clock) = { s.clock with sinceBoundary := 0 } := h.same .clock hc
  have time := congrArg Clock.time same
  exact time

theorem KeepsBut.program {l : List Part} (h : KeepsBut l s t) (n : Nat) (hs : Part.sched ∉ l := by decide) :
    t.program n = s.program n := program_of_sched (h.sched hs) n

theorem withSched_sched_keeps (x : Scheduler) (s : State) : KeepsBut [.sched] s { s with sched := x } := by
  refine ⟨fun q hq => ?_⟩
  cases q <;> simp_all [SamePart]

/-- A record put into a slot that holds another state is noted (R153). -/
theorem putProgram_noted (hb : s.power.state ≠ .backup) (hp : s.program n = some p) (other : p.state ≠ q.state) :
    Noted (.prog n) (programBytes n (some q)) (putProgram n q s) := by
  have changed : p.notedChange q = true := by simp [Program.notedChange, other]
  have holds : (s.withSlot n (some q)).program n = some q := by
    have put := putProgram_program hp q
    rwa [program_of_sched (putProgram_sched ..)] at put
  simp only [putProgram, hp, Option.elim_some, changed, if_true, postProg, holds]
  exact post_noted (s := s.withSlot n (some q)) hb _ _

theorem activeProgram_some (ha : s.sched.active = some a) (hp : s.program a.slot = some p) : s.activeProgram = some (a, p) := by
  simp [State.activeProgram, ha, hp]

/-! ### REC_PAUSE and RECORD given (R4, R6, R163, R165) -/

/-- The tab is there and the dew flag is clear, so that no recording target is dropped (R4, R16). -/
structure Recordable (s : State) : Prop where
  tab : s.transport.recordTab = true
  dew : s.transport.dew = false

theorem Recordable.allowed (h : Recordable s) (m : Mode) : s.recordForbidden m = false := by simp [State.recordForbidden, h.tab, h.dew]

theorem Recordable.tabbed (h : Recordable s) (m : Mode) : s.tabForbids m = false := by simp [State.tabForbids, h.tab]

theorem Recordable.takes (h : Recordable s) (m : Mode) : s.wouldDrop m = false := by
  simp [State.wouldDrop, h.allowed, h.tabbed, h.dew]

theorem Recordable.of (h : Recordable s) (transport : t.transport = s.transport := by rfl) : Recordable t :=
  ⟨by rw [transport]; exact h.tab, by rw [transport]; exact h.dew⟩

theorem SettledIn.of (h : SettledIn mode s) (transport : t.transport = s.transport := by rfl) : SettledIn mode t :=
  ⟨by rw [transport]; exact h.mode, by rw [transport]; exact h.change, by rw [transport]; exact h.target⟩

theorem SettledIn.stands (h : SettledIn mode s) (threaded : mode.threaded = true) : StandsThreaded s := ⟨h.mode ▸ threaded, h.change⟩

/-- The transport as a servo change toward a target given begins. -/
def Transport.servoing (t : Transport) (m : Mode) (now : Nat) : Transport :=
  { t with
    target := some m, stopCause := none, change := some (.servo m), servoStart := now, lockLostAt := none, relockPending := false }

/-- From a settled threaded mode a servo change leads to another that is not forbidden (R4, R6, R14). -/
theorem giveTarget_servoes (h : StandsThreaded s) (ok : Recordable s) (ht : mode.threaded = true) (other : s.transport.mode ≠ mode) :
    (giveTarget mode s).transport = s.transport.servoing mode s.now := by
  obtain ⟨he, hj, hf, hs, -, -⟩ := h.threaded.rests
  have path : choosePath (aimed mode none s) = beginServo mode (aimed mode none s) := by
    have allowed : (aimed mode none s).recordForbidden mode = false := ok.allowed mode
    simp [choosePath, aimed, hs, h.mode, h.change, Mode.not_back_of_threaded ht, other.symm] at allowed ⊢
    simp [allowed]
  rw [giveTarget, setTarget_path he hj hf h.threaded.change (ok.takes mode), path, noteChange_transport]
  rfl

/-- Where REC_PAUSE can be given: in a settled STOP or RECORD, or where it is on its way already. -/
def PausePath (s : State) : Prop :=
  SettledIn .stop s ∨ SettledIn .record s ∨
    Pausing s ∧ s.transport.mode ≠ .empty ∧ s.transport.mode ≠ .ejecting ∧ s.transport.mode ≠ .loading

theorem Pausing.of (h : Pausing s) (transport : t.transport = s.transport := by rfl) : Pausing t := by
  unfold Pausing
  rw [transport]
  exact h

theorem PausePath.of (h : PausePath s) (transport : t.transport = s.transport := by rfl) : PausePath t := by
  unfold PausePath Pausing
  rw [transport]
  exact h.imp (·.of transport) (Or.imp (·.of transport) id)

/-- REC_PAUSE is on its way, under a transport record that recording is not forbidden by. -/
structure PauseHeld (t : State) : Prop where
  pausing    : Pausing t
  empty      : t.transport.mode ≠ .empty
  ejecting   : t.transport.mode ≠ .ejecting
  loading    : t.transport.mode ≠ .loading
  recordable : Recordable t

theorem PauseHeld.of (h : PauseHeld s) (transport : t.transport = s.transport := by rfl) : PauseHeld t := by
  obtain ⟨pausing, empty, ejecting, loading, recordable⟩ := h
  exact ⟨pausing.of transport, by rw [transport]; exact empty, by rw [transport]; exact ejecting, by rw [transport]; exact loading,
    recordable.of transport⟩

/-- REC_PAUSE on its way is not yet reached. -/
theorem PauseHeld.not_reached (h : PauseHeld s) : s.inRecPause = false := by
  rcases h.pausing.2 with e | ⟨-, e⟩ <;> simp [State.inRecPause, e]

/-- In THREADING with REC_PAUSE as the target. -/
theorem pauseHeld_threads (hm : s.transport.mode = .stop) (ok : Recordable s) (hf : s.mechInFlight = false) :
    PauseHeld (giveTarget .recPause s) ∧ (giveTarget .recPause s).transport.mode = .threading := by
  have path : choosePath (aimed .recPause none s) = beginMech .threading (aimed .recPause none s) :=
    choosePath_threads hm rfl rfl (ok.tabbed _) ok.dew
  have record : (giveTarget .recPause s).transport =
      { (aimed .recPause none s).transport with stepStart := s.now }.reached .threading (some (.mech .threading)) s.now := by
    rw [giveTarget, setTarget_path (by simp [hm]) (by simp [hm]) (by simp [hm]) hf (ok.takes _), path, noteChange_transport,
      beginMech_transport]
    rfl
  have mode : (giveTarget .recPause s).transport.mode = .threading := by rw [record]; rfl
  have recordable : Recordable (giveTarget .recPause s) := ⟨by rw [record]; exact ok.tab, by rw [record]; exact ok.dew⟩
  refine ⟨⟨⟨by rw [record]; rfl, .inr ⟨mode, by rw [record]; rfl⟩⟩, ?_, ?_, ?_, recordable⟩, mode⟩ <;> rw [mode] <;> decide

/-- A servo change toward a target that is held goes on (R4). -/
theorem choosePath_goes_on {m : Mode} (target : s.transport.target = some m) (servo : s.transport.change = some (.servo m))
    (stop : s.transport.mode ≠ .stop) (forth : m ≠ .stop ∧ m ≠ .empty) (allowed : s.recordForbidden m = false) : choosePath s = s := by
  have moving : s.servoInFlight = true := by simp [State.servoInFlight, servo]
  simp [choosePath, target, stop, moving, forth, allowed, servo]

/-- REC_PAUSE given where it is on its way already goes on, or begins again from STOP. -/
theorem pauseHeld_again (h : Pausing s) (he : s.transport.mode ≠ .empty) (hj : s.transport.mode ≠ .ejecting)
    (hl : s.transport.mode ≠ .loading) (ok : Recordable s) : PauseHeld (giveTarget .recPause s) := by
  obtain ⟨target, way⟩ := h
  by_cases hf : s.transport.mode = .fault
  · have same : giveTarget .recPause s = s := by simp [giveTarget, setTarget, hf]
    rw [same]
    exact ⟨⟨target, way⟩, he, hj, hl, ok⟩
  by_cases hs : s.transport.mode = .stop ∧ s.mechInFlight = false
  · exact (pauseHeld_threads hs.1 ok hs.2).1
  · have record : (giveTarget .recPause s).transport = (aimed .recPause none s).transport := by
      rcases way with servo | ⟨threading, mech⟩
      · have flight : s.mechInFlight = false := by simp [State.mechInFlight, servo]
        have path : choosePath (aimed .recPause none s) = aimed .recPause none s :=
          choosePath_goes_on rfl servo (fun e => hs ⟨e, flight⟩) (by decide) (ok.allowed _)
        rw [giveTarget, setTarget_path he hj hf flight (ok.takes _), path, noteChange_transport]
      · rw [giveTarget, setTarget_held he hj hf (by simp [State.mechInFlight, mech]), noteChange_transport]
    refine ⟨⟨by rw [record]; rfl, by rw [record]; exact way⟩, ?_, ?_, ?_, ⟨?_, ?_⟩⟩ <;> rw [record]
    exacts [he, hj, hl, ok.tab, ok.dew]

theorem pauseHeld_given (path : PausePath s) (ok : Recordable s) : PauseHeld (giveTarget .recPause s) := by
  rcases path with stop | record | ⟨pausing, empty, ejecting, loading⟩
  · exact (pauseHeld_threads stop.mode ok (mechInFlight_of_none stop.change)).1
  · have given := giveTarget_servoes (record.stands rfl) ok (mode := .recPause) rfl (by rw [record.mode]; decide)
    have mode : (giveTarget .recPause s).transport.mode = .record := by rw [given]; exact record.mode
    refine ⟨⟨by rw [given]; rfl, .inl (by rw [given]; rfl)⟩, ?_, ?_, ?_, ⟨by rw [given]; exact ok.tab, by rw [given]; exact ok.dew⟩⟩ <;>
      rw [mode] <;> decide
  · exact pauseHeld_again pausing empty ejecting loading ok

/-! ### The bring-up (R163) -/

/-- What the bring-up may change. -/
def broughtParts : List Part := .tuner :: stillParts

/-- The deck has been brought up between two states: the preset tuned, REC_PAUSE on its way. -/
structure Brought (preset : Nat) (s t : State) : Prop where
  pause     : PauseHeld t
  threads   : s.transport.mode = .stop → s.mechInFlight = false → t.transport.mode = .threading
  selection : t.tuner.selection = .preset preset
  sequence  : t.transport.resetInFlight = s.transport.resetInFlight
  keeps     : KeepsBut broughtParts s t
  notes     : ∀ {m c}, Noted (.prog m) c s → Noted (.prog m) c t

theorem Noted.postTune {key : NoteKey} {c : List Byte} (h : Noted key c s) (hk : NoteKey.tune ≠ key) : Noted key c (postTune s) :=
  h.post hk _

theorem Noted.beginTuning {key : NoteKey} {c : List Byte} (h : Noted key c s) (hk : NoteKey.tune ≠ key) (sel : Selection) :
    Noted key c (beginTuning sel s) := Noted.postTune (s := { s with tuner := _ }) h.of hk

theorem tuneFor_tuned (preset : Nat) (fromScan : Bool) (s : State) :
    (tuneFor preset fromScan s).tuner.selection = .preset preset ∧ KeepsBut [.tuner, .sending] s (tuneFor preset fromScan s) ∧
      ∀ {m c}, Noted (.prog m) c s → Noted (.prog m) c (tuneFor preset fromScan s) := by
  unfold tuneFor
  split
  · next stands => exact ⟨stands.1, .refl _ _, id⟩
  · exact ⟨by simp [beginTuning], beginTuning_keeps .., fun noted => noted.beginTuning (by simp) _⟩

theorem wakeForTimer_steady (hy : Steady s) : wakeForTimer s = s := by simp [wakeForTimer, hy.operating, hy.transition]

/-- In OPERATING, under its claim, the bring-up tunes the preset and gives REC_PAUSE. -/
theorem bringUp_brings (hy : Steady s) (ha : s.sched.active = some a) (hp : s.program a.slot = some q)
    (hm : s.mech = .timer (.program a.slot)) (ok : Recordable s) (path : PausePath s) (fromScan : Bool) :
    Brought q.preset s (bringUp fromScan s) := by
  obtain ⟨u, hu⟩ : ∃ u, u = tuneFor q.preset fromScan s := ⟨_, rfl⟩
  obtain ⟨selection, kept, notes⟩ := tuneFor_tuned q.preset fromScan s
  rw [← hu] at selection kept notes
  have transport : u.transport = s.transport := kept.transport
  have brought : bringUp fromScan s = giveTarget .recPause u := by
    have claim : u.mech = .timer (.program a.slot) := kept.mech.trans hm
    simp only [bringUp, activeProgram_some ha hp, wakeForTimer_steady hy, hy.not_inStandby, Bool.false_eq_true, if_false, ← hu, holdDeck,
      claim, if_true]
  have okU := ok.of transport
  have steered := steered_giveTarget .recPause u
  rw [brought]
  exact
    { pause := pauseHeld_given (path.of transport) okU
      threads := fun stop still => (pauseHeld_threads (by rw [transport]; exact stop) okU
        (by simpa only [State.mechInFlight, transport] using still)).2
      selection := (congrArg Tuner.selection (steered.keeps.tuner (by decide))).trans selection
      sequence := steered.sequence.trans (by rw [transport])
      keeps := (kept.mono (by simp [broughtParts, stillParts])).trans (steered.keeps.mono (by simp [broughtParts, stillParts]))
      notes := fun noted => steered.notes (notes noted) (by simp) (by simp) }

/-! ### The claims of a slot (R161, R162) -/

/-- A program as it becomes CUEING. -/
def Program.cued (p : Program) : Program := { p with state := .cueing, deferral := none }

/-- The claims may be taken at TIMER class with nothing else ended by it: the mechanism free or with the timer, no scan in flight. -/
structure Takeable (s : State) : Prop where
  mech  : s.mech = .free ∨ ∃ x, s.mech = .timer x
  tuner : s.tunerOf ≠ .scan

theorem ClaimedFor.takeable (h : ClaimedFor n s) : Takeable s := ⟨.inr ⟨_, h.1⟩, by rw [h.2]; simp⟩

/-- A slot has become the active slot in CUEING with its claims. -/
structure MadeActive (k : Nat) (a : Active) (q : Program) (s t : State) : Prop where
  program   : t.program k = some q.cued
  others    : ∀ m, m ≠ k → t.program m = s.program m
  active    : t.sched.active = some a
  endAction : t.sched.endAction = none
  claims    : ClaimedFor k t
  keeps     : KeepsBut [.sched, .mech, .tunerOf, .sending] s t
  noted     : s.power.state ≠ .backup → q.state ≠ .cueing → Noted (.prog k) (programBytes k (t.program k)) t

/-- The MECHANISM claim is taken at TIMER class where no protection holds it. -/
theorem askMech_takes (hm : s.mech = .free ∨ ∃ x, s.mech = .timer x) (hr : s.transport.resetInFlight = false) (k : Nat) :
    askMech k s = setMech (.timer (.program k))
      { s with sched.active := s.sched.active.map fun a => { a with mechWait := false } } := by
  have ended : endOperator .preempted .preempted s = s := by rcases hm with h | ⟨x, h⟩ <;> simp [endOperator, h]
  have same : { s.transport with resetInFlight := false } = s.transport := by rw [← hr]
  rcases hm with h | ⟨x, h⟩ <;> simp only [askMech, h, ended, same]

theorem askTuner_takes (ht : s.tunerOf ≠ .scan) (k : Nat) : askTuner k s = setTunerClaim (.timer (.program k)) s := by
  simp only [askTuner, ht, if_false]

theorem Noted.setTunerClaim {key : NoteKey} {c : List Byte} (h : Noted key c s) (hk : NoteKey.tune ≠ key) (x : TunerClaim) :
    Noted key c (setTunerClaim x s) := by
  unfold Machine.setTunerClaim
  split
  · exact h
  · exact Noted.postTune (s := { s with tunerOf := x }) h.of hk

theorem makeActive_made (hp : s.program k = some q) (free : Takeable s) (hr : s.transport.resetInFlight = false)
    (granted : a.mechWait = false) : MadeActive k a q s (makeActive k a s) := by
  obtain ⟨e, he⟩ : ∃ e : State, e = { s with
    sched := { s.sched with active := some a, endAction := none, abortStop := none, rewindTail := false } } := ⟨_, rfl⟩
  obtain ⟨u, hu⟩ : ∃ u, u = putProgram k q.cued e := ⟨_, rfl⟩
  obtain ⟨w, hw⟩ : ∃ w, w = setTunerClaim (.timer (.program k)) u := ⟨_, rfl⟩
  have holds : e.program k = some q := by rw [he]; exact hp
  have ke : KeepsBut [.sched] s e := he ▸ withSched_sched_keeps ..
  have ku : KeepsBut [.sched, .sending] e u := hu ▸ putProgram_keeps ..
  have kw : KeepsBut [.tunerOf, .sending] u w := hw ▸ setTunerClaim_keeps ..
  have kept : KeepsBut [.sched, .tunerOf, .sending] s w :=
    (ke.mono (by simp)).trans ((ku.mono (by simp)).trans (kw.mono (by simp)))
  have sched : w.sched = (e.withSlot k (some q.cued)).sched := by rw [kw.sched, hu, putProgram_sched]
  have active : w.sched.active = some a := by rw [sched, he]; rfl
  have same : ({ a with mechWait := false } : Active) = a := by rw [← granted]
  have made : makeActive k a s = setMech (.timer (.program k)) w := by
    have put : makeActive k a s = askMech k (askTuner k u) := by
      simp only [makeActive, hp]
      rw [hu, he]
      rfl
    have tuner : u.tunerOf ≠ .scan := by rw [ku.tunerOf, ke.tunerOf]; exact free.tuner
    have mech : w.mech = .free ∨ ∃ x, w.mech = .timer x := by rw [kept.mech]; exact free.mech
    rw [put, askTuner_takes tuner, ← hw, askMech_takes mech (by rw [kept.transport]; exact hr), active, Option.map_some, same, ← active]
  rw [made]
  have program : ∀ m, (setMech (.timer (.program k)) w).program m = u.program m := fun m =>
    (program_of_sched (setMech_sched ..) m).trans (kw.program m)
  refine ⟨?_, fun m hm => ?_, active, ?_, ⟨rfl, ?_⟩, (kept.mono (by simp)).trans ((setMech_keeps ..).mono (by simp)), fun hb other => ?_⟩
  · rw [program, hu, putProgram_program holds]
  · rw [program, hu, putProgram_program_other (slot_ne_zero hp) hm, he]
    rfl
  · rw [setMech_sched, sched, he]
    rfl
  · rw [setMech_tunerOf, hw, setTunerClaim_tunerOf]
  · rw [program, hu, putProgram_program holds]
    have noted := putProgram_noted (q := q.cued) (by rw [ke.power]; exact hb) holds other
    rw [← hu] at noted
    exact (hw ▸ noted.setTunerClaim (by simp) _ : Noted _ _ w).of

/-! ### A slot becomes CUEING and the deck is brought up (R161 to R163) -/

/-- What a slot may change as it seizes the deck. -/
def seizedParts : List Part := .sched :: .mech :: .tunerOf :: broughtParts

/-- A slot has become the active slot in CUEING, with its claims, and the deck has been brought up for it. -/
structure Seized (k : Nat) (a : Active) (q : Program) (s t : State) : Prop where
  program   : t.program k = some q.cued
  others    : ∀ m, m ≠ k → t.program m = s.program m
  active    : t.sched.active = some a
  endAction : t.sched.endAction = none
  claims    : ClaimedFor k t
  pause     : PauseHeld t
  threads   : s.transport.mode = .stop → s.mechInFlight = false → t.transport.mode = .threading
  selection : t.tuner.selection = .preset q.preset
  sequence  : t.transport.resetInFlight = s.transport.resetInFlight
  keeps     : KeepsBut seizedParts s t
  noted     : q.state ≠ .cueing → Noted (.prog k) (programBytes k (t.program k)) t

theorem seizes (hy : Steady s) (hp : s.program k = some q) (free : Takeable s) (ok : Recordable s) (path : PausePath s)
    (slot : a.slot = k) (granted : a.mechWait = false) : Seized k a q s (bringUp false (makeActive k a s)) := by
  obtain ⟨u, hu⟩ : ∃ u, u = makeActive k a s := ⟨_, rfl⟩
  have made : MadeActive k a q s u := hu ▸ makeActive_made hp free hy.sequence granted
  have transport : u.transport = s.transport := made.keeps.transport
  have power : u.power = s.power := made.keeps.power
  have steady : Steady u := ⟨by rw [power]; exact hy.operating, by rw [power]; exact hy.transition, by rw [transport]; exact hy.sequence⟩
  subst slot
  have brought := bringUp_brings steady made.active made.program made.claims.1 (ok.of transport) (path.of transport) false
  rw [← hu]
  have sched := brought.keeps.sched (by decide)
  exact
    { program := (brought.keeps.program _ (by decide)).trans made.program
      others := fun m hm => (brought.keeps.program m (by decide)).trans (made.others m hm)
      active := by rw [sched]; exact made.active
      endAction := by rw [sched]; exact made.endAction
      claims := ⟨(brought.keeps.mech (by decide)).trans made.claims.1, (brought.keeps.tunerOf (by decide)).trans made.claims.2⟩
      pause := brought.pause
      threads := fun stop still => brought.threads (by rw [transport]; exact stop)
        (by simpa only [State.mechInFlight, transport] using still)
      selection := brought.selection
      sequence := brought.sequence.trans (by rw [transport])
      keeps := (made.keeps.mono (by simp [seizedParts, broughtParts, stillParts])).trans
        (brought.keeps.mono (by simp [seizedParts, broughtParts, stillParts]))
      noted := fun other => by
        rw [brought.keeps.program _ (by decide)]
        exact brought.notes (made.noted hy.running other) }

theorem makeCueing_seizes (hy : Steady s) (hp : s.program k = some q) (free : Takeable s) (ok : Recordable s) (path : PausePath s)
    (late : Bool) (latest : Option DeferralCause) :
    Seized k (.fresh k .preparing late false latest) q s (makeCueing k late latest s) := by
  have direct : (s.tunerOf == .scan) = false := by simpa using free.tuner
  simp only [makeCueing, direct]
  exact seizes hy hp free ok path rfl rfl

/-! ### The start checks (R164) -/

/-- The active-program record as the start checks are passed. -/
def Active.started (a : Active) : Active := { a with phase := .starting, pointCome := true }

theorem startVerdict_pass (he : s.transport.mode ≠ .empty) (hj : s.transport.mode ≠ .ejecting) (ok : Recordable s)
    (hm : s.mech.isProtect = false) : s.startVerdict = .pass := by
  simp [State.startVerdict, he, hj, ok.tab, ok.dew, hm]

theorem startPoint_meets (hl : s.transport.mode ≠ .loading) (onPass : State → State) : startPoint onPass s = meetChecks onPass s := by
  simp [startPoint, hl]

theorem meetChecks_pass (h : s.startVerdict = .pass) (onPass : State → State) : meetChecks onPass s = onPass s := by
  simp only [meetChecks, h]

theorem passChecks_starts (ha : s.sched.active = some a) (hr : s.inRecPause = false) :
    passChecks s = { s with sched.active := some a.started } := by
  have notReached : State.inRecPause { s with sched.active := some { a with phase := .starting, pointCome := true } } = false := hr
  simp only [passChecks, ha, Option.map_some, notReached, Bool.false_eq_true, if_false]
  rfl

theorem ClaimedFor.unprotected (h : ClaimedFor n s) : s.mech.isProtect = false := by rw [h.1]; rfl

/-- A slot that has seized the deck passes its start checks, and goes on in STARTING. -/
theorem Seized.passes (h : Seized k a q s t) : startPoint passChecks t = { t with sched.active := some a.started } := by
  rw [startPoint_meets h.pause.loading,
    meetChecks_pass (startVerdict_pass h.pause.empty h.pause.ejecting h.pause.recordable h.claims.unprotected),
    passChecks_starts h.active h.pause.not_reached]

/-! ### A change over (R172, R173) -/

/-- The active program has been changed over to: RECORDING in CHANGING, REC_PAUSE on its way, its preset tuned. -/
structure ChangedOver (reason : ChangeReason) (a : Active) (q : Program) (s t : State) : Prop where
  program   : t.program a.slot = some { q with state := .recording }
  others    : ∀ m, m ≠ a.slot → t.program m = s.program m
  active    : ∃ v, t.sched.active = some { a with phase := .changing, reason := some reason, speedToEnter := some v, pointCome := true }
  endAction : t.sched.endAction = s.sched.endAction
  pause     : PauseHeld t
  selection : t.tuner.selection = .preset q.preset
  sequence  : t.transport.resetInFlight = s.transport.resetInFlight
  keeps     : KeepsBut (.sched :: broughtParts) s t

/-- The preset is tuned if it differs. -/
theorem tuneDiffering_tuned (preset : Nat) (s : State) :
    let t := if s.tuner.selection = .preset preset then s else beginTuning (.preset preset) s
    t.tuner.selection = .preset preset ∧ KeepsBut [.tuner, .sending] s t := by
  dsimp only
  split
  · next stands => exact ⟨stands, .refl _ _⟩
  · exact ⟨by simp [beginTuning], beginTuning_keeps ..⟩

theorem changeOver_changed (ha : s.sched.active = some a) (hp : s.program a.slot = some q) (settled : SettledIn .record s)
    (ok : Recordable s) (reason : ChangeReason) : ChangedOver reason a q s (changeOver reason s) := by
  obtain ⟨b, hb⟩ : ∃ b, b = { a with
    phase := .changing, reason := some reason, speedToEnter := some (s.chooseSpeed q).speed, pointCome := true } := ⟨_, rfl⟩
  obtain ⟨e, he⟩ : ∃ e : State, e = { s with sched.active := some b } := ⟨_, rfl⟩
  obtain ⟨u, hu⟩ : ∃ u, u = putProgram a.slot { q with state := .recording } e := ⟨_, rfl⟩
  obtain ⟨w, hw⟩ : ∃ w, w = giveTarget .recPause u := ⟨_, rfl⟩
  have holds : e.program a.slot = some q := by rw [he]; exact hp
  have ke : KeepsBut [.sched] s e := he ▸ withSched_sched_keeps ..
  have ku : KeepsBut [.sched, .sending] s u := (ke.mono (by simp)).trans (hu ▸ putProgram_keeps ..)
  have transport : u.transport = s.transport := ku.transport
  have settledU : SettledIn .record u := settled.of transport
  have pause : PauseHeld w := hw ▸ pauseHeld_given (.inr (.inl settledU)) (ok.of transport)
  have steered : Steered u w := hw ▸ steered_giveTarget ..
  obtain ⟨x, hx⟩ : ∃ x, x = if w.tuner.selection = .preset q.preset then w else beginTuning (.preset q.preset) w := ⟨_, rfl⟩
  have changed : changeOver reason s = x := by
    have away : u.inRecPause = false := by simp [State.inRecPause, settledU.mode]
    simp only [changeOver, activeProgram_some ha hp]
    rw [← hb, ← he, ← hu]
    simp only [away, Bool.false_eq_true, if_false]
    rw [← hw, hx]
  obtain ⟨selection, kx⟩ : x.tuner.selection = .preset q.preset ∧ KeepsBut [.tuner, .sending] w x := hx ▸ tuneDiffering_tuned ..
  have kw : KeepsBut broughtParts u x := (steered.keeps.mono fun _ h => .tail _ h).trans (kx.mono (by simp [stillParts]))
  have program : ∀ m, x.program m = u.program m := fun m => kw.program m (by decide)
  have sched : x.sched = (e.withSlot a.slot (some { q with state := .recording })).sched := by
    rw [kw.sched (by decide), hu, putProgram_sched]
  rw [changed]
  exact
    { program := by rw [program, hu, putProgram_program holds]
      others := fun m hm => by
        rw [program, hu, putProgram_program_other (slot_ne_zero hp) hm, he]
        rfl
      active := ⟨(s.chooseSpeed q).speed, by rw [sched, he, hb]; rfl⟩
      endAction := by rw [sched, he]; rfl
      pause := pause.of kx.transport
      selection := selection
      sequence := by rw [kx.transport, steered.sequence, transport]
      keeps := (ku.mono (by simp [broughtParts, stillParts])).trans (kw.mono (by simp [broughtParts, stillParts])) }

/-! ### RECORD given (R165, R167) -/

/-- The active-program record as RECORD is given for it. -/
def Active.recording (a : Active) (pending : Bool) : Active :=
  { a with phase := .running, reason := none, speedToEnter := none, choicePending := pending, lastFit := none }

/-- RECORD has been given between two states, by the scheduler with a speed and a mark. -/
structure RecordGiven (v : Speed) (mark : Option Byte) (s t : State) : Prop where
  mode   : t.transport.mode = .recPause
  target : t.transport.target = some .record
  change : t.transport.change = some (.servo .record)
  order  : t.transport.recordOrder = .timer v mark
  sequence : t.transport.resetInFlight = s.transport.resetInFlight
  keeps  : KeepsBut stillParts s t
  notes  : ∀ {m c}, Noted (.prog m) c s → Noted (.prog m) c t

theorem giveRecord_given (settled : SettledIn .recPause s) (ok : Recordable s) (v : Speed) (mark : Option Byte) :
    RecordGiven v mark s (giveRecord (.timer v mark) s) := by
  obtain ⟨u, hu⟩ : ∃ u : State, u = { s with transport := { s.transport with recordOrder := .timer v mark } } := ⟨_, rfl⟩
  have order := steered_transport (s := s) (r := { s.transport with recordOrder := .timer v mark }) rfl
  rw [← hu] at order
  have mode : u.transport.mode = .recPause := by rw [hu]; exact settled.mode
  have stands : StandsThreaded u := ⟨by rw [mode]; rfl, by rw [hu]; exact settled.change⟩
  have okU : Recordable u := by rw [hu]; exact ⟨ok.tab, ok.dew⟩
  have record := giveTarget_servoes stands okU (mode := .record) rfl (by rw [mode]; decide)
  have steered := order.trans (steered_giveTarget .record u)
  have given : giveRecord (.timer v mark) s = giveTarget .record u := by rw [hu]; rfl
  rw [given]
  refine ⟨by rw [record]; exact mode, by rw [record]; rfl, by rw [record]; rfl, ?_, steered.sequence, steered.keeps, fun noted =>
    steered.notes noted (by simp) (by simp)⟩
  rw [record, hu]
  rfl

/-- RECORD has been given for the active program from REC_PAUSE, and it is RECORDING. -/
structure RecordBegun (c : SpeedChoice) (a : Active) (q : Program) (s t : State) : Prop where
  program : t.program a.slot = some { q with state := .recording, run := { q.run with shortTape := q.run.shortTape || c.short } }
  others  : ∀ m, m ≠ a.slot → t.program m = s.program m
  active  : t.sched.active = some (a.recording c.pending)
  mode    : t.transport.mode = .recPause
  target  : t.transport.target = some .record
  change  : t.transport.change = some (.servo .record)
  order   : t.transport.recordOrder = .timer c.speed q.mark
  sequence : t.transport.resetInFlight = s.transport.resetInFlight
  keeps   : KeepsBut (.sched :: stillParts) s t
  noted   : s.power.state ≠ .backup → q.state ≠ .recording → Noted (.prog a.slot) (programBytes a.slot (t.program a.slot)) t

theorem beginRecord_begun (ha : s.sched.active = some a) (hp : s.program a.slot = some q) (settled : SettledIn .recPause s)
    (ok : Recordable s) : RecordBegun (s.chooseSpeed q) a q s (beginRecord s) := by
  obtain ⟨c, hc⟩ : ∃ c, c = s.chooseSpeed q := ⟨_, rfl⟩
  obtain ⟨r, hr⟩ : ∃ r : Program, r = { q with
    state := .recording, run := { q.run with shortTape := q.run.shortTape || c.short } } := ⟨_, rfl⟩
  obtain ⟨e, he⟩ : ∃ e : State, e = { s with sched.active := some (a.recording c.pending) } := ⟨_, rfl⟩
  obtain ⟨u, hu⟩ : ∃ u, u = putProgram a.slot r e := ⟨_, rfl⟩
  have holds : e.program a.slot = some q := by rw [he]; exact hp
  have ke : KeepsBut [.sched] s e := he ▸ withSched_sched_keeps ..
  have ku : KeepsBut [.sched, .sending] s u := (ke.mono (by simp)).trans (hu ▸ putProgram_keeps ..)
  have transport : u.transport = s.transport := ku.transport
  have given := giveRecord_given (settled.of transport) (ok.of transport) c.speed q.mark
  have begun : beginRecord s = giveRecord (.timer c.speed q.mark) u := by
    simp only [beginRecord, activeProgram_some ha hp]
    rw [hu, he, hr, hc]
    rfl
  have program : (giveRecord (.timer c.speed q.mark) u).program a.slot = some r :=
    (given.keeps.program _ (by decide)).trans (by rw [hu, putProgram_program holds])
  rw [← hc, begun]
  refine ⟨program.trans (by rw [hr]), fun m hm => ?_, ?_, given.mode, given.target, given.change, given.order,
    given.sequence.trans (by rw [transport]),
    (ku.mono (by simp [stillParts])).trans (given.keeps.mono (by simp [stillParts])), fun hb other => ?_⟩
  · rw [given.keeps.program m (by decide), hu, putProgram_program_other (slot_ne_zero hp) hm, he]
    rfl
  · rw [given.keeps.sched (by decide), hu, putProgram_active, he]
  · rw [program]
    exact given.notes (hu ▸ putProgram_noted (by rw [ke.power]; exact hb) holds (by rw [hr]; exact other))

/-! ### The TIMER class gives up its claims (R188) -/

theorem releaseTimer_keeps (s : State) : KeepsBut [.mech, .tuner, .tunerOf, .sending] s (releaseTimer s) := by
  have mech : KeepsBut [.mech] s (releaseTimerMech s) := by
    unfold releaseTimerMech
    split
    · exact setMech_keeps ..
    · exact .refl _ _
  exact (mech.mono (by simp)).trans ((releaseTimerTuner_keeps _).mono (by simp))

theorem releaseTimer_mech (s : State) : (releaseTimer s).mech = if s.mech.isTimer then .free else s.mech := by
  rw [releaseTimer, (releaseTimerTuner_keeps _).mech, releaseTimerMech]
  split <;> rfl

theorem releaseTimer_tunerOf (h : s.tunerOf.isTimer = true) : (releaseTimer s).tunerOf = .free := by
  have same : (releaseTimerMech s).tunerOf = s.tunerOf := by
    unfold releaseTimerMech
    split <;> rfl
  exact (releaseTimerTuner_free (by rw [same]; exact h)).1

end Sys2Proof.Machine
end

section
/-! A second boundary of the crystal's, and the order of what a new minute does (R128, R166, R171, R179). -/

namespace Sys2Proof.Machine

variable {s t u v : State} {n k m : Nat} {p q : Program} {a : Active} {rest : List Nat}

/-! ### The second -/

/-- The crystal has come to the end of its second. -/
def crystalRead (s : State) : State :=
  { elapse (12288000 - s.clock.sinceBoundary) s with clock := { s.clock with sinceBoundary := 0 } }

theorem crystalRead_keeps (s : State) : KeepsBut [.time, .nav, .clock] s (crystalRead s) :=
  ((elapse_keeps _ s).mono (by simp)).trans ((withClock_keeps _ _).mono (by simp))

/-- The second is counted, and the time is on by one (R124, R166). -/
def newSecond (s : State) : State :=
  { countSecond (crystalRead s) with clock := { (countSecond (crystalRead s)).clock with time := s.clock.time + 1 } }

/-- A recording in RECORD is counted, and nothing else. -/
theorem countSecond_some (h : s.activeProgram = some (a, p)) :
    countSecond s = if p.state = .recording ∧ s.transport.mode = .record then putProgram a.slot (p.secondOn s) s else s := by
  simp only [countSecond, h]
  split
  · next on =>
    rw [Program.secondOn, if_pos on]
  · rfl

theorem countSecond_none (h : s.activeProgram = none) : countSecond s = s := by simp only [countSecond, h]

theorem countSecond_keeps (s : State) : KeepsBut [.sched, .sending] s (countSecond s) := by
  cases h : s.activeProgram with
  | none =>
    rw [countSecond_none h]
    exact .refl _ _
  | some ap =>
    rw [countSecond_some h]
    split
    · exact putProgram_keeps ..
    · exact .refl _ _

theorem countSecond_active (s : State) : (countSecond s).sched.active = s.sched.active := by
  cases h : s.activeProgram with
  | none => rw [countSecond_none h]
  | some ap =>
    rw [countSecond_some h]
    split
    · exact putProgram_active ..
    · rfl

theorem countSecond_clock (s : State) : (countSecond s).clock = s.clock := by
  cases h : s.activeProgram with
  | none => rw [countSecond_none h]
  | some ap =>
    rw [countSecond_some h]
    split <;> simp

theorem newSecond_keeps (s : State) : KeepsBut [.time, .nav, .clock, .sched, .sending] s (newSecond s) :=
  ((crystalRead_keeps s).mono (by simp)).trans (((countSecond_keeps _).mono (by simp)).trans ((withClock_keeps _ _).mono (by simp)))

theorem newSecond_time (s : State) : (newSecond s).clock.time = s.clock.time + 1 := rfl

theorem newSecond_active (s : State) : (newSecond s).sched.active = s.sched.active := countSecond_active _

/-- With no recording in the deck nothing is counted. -/
theorem newSecond_idle (h : ∀ a p, s.sched.active = some a → s.program a.slot = some p → p.state ≠ .recording) :
    (newSecond s).sched = s.sched := by
  have idle : countSecond (crystalRead s) = crystalRead s := by
    cases e : (crystalRead s).activeProgram with
    | none => exact countSecond_none e
    | some ap =>
      obtain ⟨a, ha, q, hq, rfl⟩ : ∃ a, s.sched.active = some a ∧ ∃ q, s.program a.slot = some q ∧ (a, q) = ap := by
        have e : s.activeProgram = some ap := e
        simpa [State.activeProgram, Option.bind_eq_some_iff] using e
      rw [countSecond_some e, if_neg fun on => h a q ha hq on.1]
  rw [newSecond, idle]
  rfl

theorem newSecond_unmanned (h : s.sched.active = none) : (newSecond s).sched = s.sched :=
  newSecond_idle fun a p ha => by rw [h] at ha; cases ha

/-- The second is counted for the active program (R166). -/
theorem newSecond_program (ha : s.sched.active = some a) (hp : s.program a.slot = some p) :
    (newSecond s).program a.slot = some (p.secondOn s) := by
  have read : (crystalRead s).program a.slot = some p := hp
  have counted : (countSecond (crystalRead s)).program a.slot = some (p.secondOn s) := by
    rw [countSecond_some (s := crystalRead s) (activeProgram_some ha read)]
    split
    · rw [putProgram_program read]
      rfl
    · next off =>
      have same : p.secondOn s = p := if_neg off
      rw [read, same]
  exact counted

theorem newSecond_program_other (ha : s.sched.active = some a) (hp : s.program a.slot = some p) (hm : m ≠ a.slot) :
    (newSecond s).program m = s.program m := by
  have read : (crystalRead s).program a.slot = some p := hp
  have counted : (countSecond (crystalRead s)).program m = s.program m := by
    rw [countSecond_some (s := crystalRead s) (activeProgram_some ha read)]
    split
    · rw [putProgram_program_other (slot_ne_zero hp) hm]
      rfl
    · rfl
  exact counted

theorem secondBoundary_served (hy : Steady s) (source : s.clock.source = .crystal) (phase : s.clock.sinceBoundary ≤ 12288000)
    (inside : s.clock.time + 1 < 3155760000) : exec .secondBoundary s =
      .next (endDeckEvent s (if (s.clock.time + 1) % 60 = 0 then minuteEvent (newSecond s) else newSecond s)) := by
  have running : ((crystalRead s).power.state == .backup) = false := by
    simpa only [crystalRead, elapse_power, beq_eq_false_iff_ne] using hy.running
  have whole : s.clock.sinceBoundary + (12288000 - s.clock.sinceBoundary) - 12288000 = 0 := by omega
  have read : crystalSecond s = secondBoundary (crystalRead s) := by
    simp only [crystalSecond, crystalBoundary, elapse_sinceBoundary, secondUnits_eq, whole]
    rfl
  have time : (countSecond (crystalRead s)).clock.time = s.clock.time := by rw [countSecond_clock]; rfl
  have before : ¬ Config.calendarSeconds ≤ s.clock.time + 1 := by simp only [Config.calendarSeconds]; omega
  have counted : secondBoundary (crystalRead s) = if (s.clock.time + 1) % 60 = 0 then minuteEvent (newSecond s) else newSecond s := by
    simp only [secondBoundary, running, Bool.false_eq_true, if_false, time, before, Bool.not_false, and_true]
    rfl
  refine congrArg Host.Outcome.next ((if_neg hy.running).trans ?_)
  rw [deckEvent_running hy.running, ← counted, ← read]
  simp only [secondCompleted, source]

/-- What a new minute makes of the machine stands at the end of the event. -/
theorem minute_served {l : List Part} (hy : Steady s) (due : MinuteDue s) (event : minuteEvent (newSecond s) = u)
    (kept : KeepsBut l (newSecond s) u) (hc : Part.clock ∉ l := by decide) (hw : Part.power ∉ l := by decide) :
    ∃ t, exec .secondBoundary s = .next t ∧ t.clock.time = s.clock.time + 1 ∧ EndedFrom u t := by
  have power : u.power = s.power := (kept.power hw).trans (newSecond_keeps s).power
  have ended := endedFrom_event (b := s) (u := u) (.inl hy.sequence) (hy.notStopping.of power)
  refine ⟨_, by rw [secondBoundary_served hy due.source due.phase due.inside, if_pos due.minute, event], ?_, ended⟩
  rw [ended.keeps.time, kept.time hc, newSecond_time]

/-! ### The order of a new minute (R171, R176, R179) -/

theorem endOccurrence_none (h : s.sched.active = none) : endOccurrence s = s := by simp [endOccurrence, State.activeProgram, h]

theorem endOccurrence_runs (ha : s.sched.active = some a) (hp : s.program a.slot = some p) (h : p.windowEnd ≠ s.clock.time) :
    endOccurrence s = s := by
  simp only [endOccurrence, activeProgram_some ha hp, h, if_false]

/-- The ARMED programs whose next start is the present minute. -/
def State.starting (s : State) : List Nat :=
  s.pendingList.filter fun n => (s.program n).any fun p => !p.carried && p.windowStart == s.clock.time

theorem starting_nil (h : s.pendingList = []) : s.starting = [] := by rw [State.starting, h, List.filter_nil]

theorem meetStarters_none (ha : s.sched.active = none) (hs : s.starting = []) : meetStarters s = s := by
  simp only [State.starting] at hs
  simp [meetStarters, State.activeProgram, ha, hs]

theorem meetStarters_first (ha : s.sched.active = none) (hs : s.starting = n :: rest) :
    meetStarters s = deferSlots .overlap rest (startPoint passChecks (makeCueing n false none s)) := by
  simp only [State.starting] at hs
  simp [meetStarters, State.activeProgram, ha, hs]

theorem preparingAhead_iff : a.preparingAhead = true ↔ a.ahead := by
  simp [Active.preparingAhead, Active.ahead, and_assoc]

/-- The head cued up for the present minute meets its start checks, and what starts besides is DEFERRED. -/
theorem meetStarters_cued (ha : s.sched.active = some a) (hp : s.program a.slot = some p) (ahead : a.ahead)
    (now : p.windowStart = s.clock.time) : meetStarters s = deferSlots .overlap s.starting (startPoint passChecks s) := by
  simp [meetStarters, activeProgram_some ha hp, preparingAhead_iff.2 ahead, now, State.starting]

theorem meetStarters_waits (ha : s.sched.active = some a) (hp : s.program a.slot = some p)
    (later : a.ahead → p.windowStart ≠ s.clock.time) (hs : s.starting = []) : meetStarters s = s := by
  have off : (a.preparingAhead && p.windowStart == s.clock.time) = false := by
    rw [← Bool.not_eq_true]
    simpa [preparingAhead_iff] using later
  simp only [State.starting] at hs
  simp [meetStarters, activeProgram_some ha hp, off, hs]

/-- The first that starts meets the active program, and what starts besides is DEFERRED. -/
theorem meetStarters_meets (ha : s.sched.active = some a) (hp : s.program a.slot = some p)
    (later : a.ahead → p.windowStart ≠ s.clock.time) (hs : s.starting = k :: rest) :
    meetStarters s = deferSlots .overlap rest (meetActive a p k s) := by
  have off : (a.preparingAhead && p.windowStart == s.clock.time) = false := by
    rw [← Bool.not_eq_true]
    simpa [preparingAhead_iff] using later
  simp only [State.starting] at hs
  simp [meetStarters, activeProgram_some ha hp, off, hs]

@[simp] theorem deferSlots_nil (c : DeferralCause) (s : State) : deferSlots c [] s = s := rfl

@[simp] theorem deferSlots_one (c : DeferralCause) (n : Nat) (s : State) : deferSlots c [n] s = deferSlot n c s := rfl

theorem minuteEvent_active (met : meetStarters (endOccurrence s) = u) (last : DeferredLast u) (active : u.sched.active = some a) :
    minuteEvent s = u := by
  rw [minuteEvent, met, last.expire, applyRules_active active]

theorem minuteEvent_free (met : meetStarters (endOccurrence s) = u) (last : DeferredLast u) : minuteEvent s = applyRules u := by
  rw [minuteEvent, met, last.expire]

end Sys2Proof.Machine
end

section
/-! A program cued up at a new minute, and the start checks of one whose start has come (R161 to R164, R188). -/

namespace Sys2Proof.Machine

variable {s t u v : State} {n k m : Nat} {p q r : Program} {x y : Option Program} {a : Active} {mode : Mode} {c : DeferralCause}

/-! ### What stands under a frame -/

theorem ClaimedFor.kept {l : List Part} (h : ClaimedFor n s) (kept : KeepsBut l s t) (hm : Part.mech ∉ l := by decide)
    (ht : Part.tunerOf ∉ l := by decide) : ClaimedFor n t := ⟨(kept.mech hm).trans h.1, (kept.tunerOf ht).trans h.2⟩

theorem Steady.kept {l : List Part} (h : Steady s) (kept : KeepsBut l s t) (hw : Part.power ∉ l := by decide)
    (ht : Part.transport ∉ l := by decide) : Steady t := by
  have power : t.power = s.power := kept.power hw
  exact ⟨by rw [power]; exact h.operating, by rw [power]; exact h.transition, by rw [kept.transport ht]; exact h.sequence⟩

theorem Takeable.kept {l : List Part} (h : Takeable s) (kept : KeepsBut l s t) (hm : Part.mech ∉ l := by decide)
    (ht : Part.tunerOf ∉ l := by decide) : Takeable t :=
  ⟨by rw [kept.mech hm]; exact h.mech, by rw [kept.tunerOf ht]; exact h.tuner⟩

/-- The claims and the transport stand ready for a program that would take the deck. -/
structure Ready (s : State) : Prop where
  steady     : Steady s
  takeable   : Takeable s
  recordable : Recordable s
  path       : PausePath s

theorem Ready.kept {l : List Part} (h : Ready s) (kept : KeepsBut l s t) (hw : Part.power ∉ l := by decide)
    (ht : Part.transport ∉ l := by decide) (hm : Part.mech ∉ l := by decide) (hu : Part.tunerOf ∉ l := by decide) : Ready t :=
  ⟨h.steady.kept kept hw ht, h.takeable.kept kept hm hu, h.recordable.of (kept.transport ht), h.path.of (kept.transport ht)⟩

/-! ### One cued up (R161) -/

theorem cueUp_head (ha : s.sched.active = none) (head : s.pendingList.head? = some n) (hp : s.program n = some p)
    (carried : p.carried = false) (soon : p.windowStart ≤ s.clock.time + 120) : cueUp s = makeCueing n false none s := by
  simp [cueUp, ha, head, hp, carried, soon]

theorem minute_cuesUp (ready : Ready v) (ha : v.sched.active = none) (pair : Pair n (some p) 0 none v) (armed : p.state = .armed)
    (carried : p.carried = false) (later : v.clock.time < p.windowStart) (soon : p.windowStart ≤ v.clock.time + 120) :
    Seized n (.fresh n .preparing false false none) p v (minuteEvent v) := by
  have pending : v.pendingList = [n] := pair.pendingList_first (by simpa using armed) (by simp)
  have starting : v.starting = [] := by simp [State.starting, pending, pair.first, carried, later.ne']
  have met : meetStarters (endOccurrence v) = v := by rw [endOccurrence_none ha, meetStarters_none ha starting]
  have last : DeferredLast v := pair.deferredLast (fun r hr deferred => by cases hr; simp [armed] at deferred) (by simp)
  have seized := makeCueing_seizes ready.steady pair.first ready.takeable ready.recordable ready.path false none
  rw [minuteEvent_free met last,
    applyRules_cued ready.steady.running (cueUp_head ha (by rw [pending]; rfl) pair.first carried soon) seized.active]
  exact seized

/-! ### The start checks of a program cued up for the minute (R164) -/

/-- A program has been cued up ahead, and its start comes with the present minute. -/
structure CuedNow (n : Nat) (a : Active) (p : Program) (s : State) : Prop where
  pair   : Pair n (some p) 0 none s
  active : s.sched.active = some a
  slot   : a.slot = n
  ahead  : a.ahead
  cueing : p.state = .cueing
  start  : p.windowStart = s.clock.time
  length : 1 ≤ p.duration

theorem windowEnd_later (start : p.windowStart = s.clock.time) (length : 1 ≤ p.duration) : s.clock.time + 60 ≤ p.windowEnd := by
  simp only [Program.windowStart, Program.windowEnd] at *
  omega

theorem CuedNow.minute (h : CuedNow n a p s) (last : DeferredLast (startPoint passChecks s)) :
    minuteEvent s = applyRules (startPoint passChecks s) := by
  have hp : s.program a.slot = some p := h.slot ▸ h.pair.first
  have later := windowEnd_later h.start h.length
  have none : s.starting = [] := starting_nil (h.pair.pendingList_none (by simp [h.cueing]) (by simp))
  refine minuteEvent_free ?_ last
  rw [endOccurrence_runs h.active hp (by omega), meetStarters_cued h.active hp h.ahead h.start, none, deferSlots_nil]

/-- Where the checks leave a program active, the minute does no more. -/
theorem CuedNow.minute_active (h : CuedNow n a p s) {b : Active} (starts : startPoint passChecks s = u) (active : u.sched.active = some b)
    (pair : Pair n (some q) 0 none u) (state : q.state ≠ .deferred) : minuteEvent s = u := by
  have last : DeferredLast u := pair.deferredLast (fun r hr deferred => by cases hr; exact absurd deferred state) (by simp)
  rw [h.minute (starts ▸ last), starts, applyRules_active active]

theorem startPoint_holds (ha : s.sched.active = some a) (loading : s.transport.mode = .loading) (onPass : State → State) :
    startPoint onPass s = { s with sched.active := some { a with pointCome := true } } := by
  simp [startPoint, loading, ha]

/-! ### A program that leaves the deck (R150, R151, R188) -/

theorem finishActive_once (ha : s.sched.active = some a) (hp : s.program a.slot = some p) (once : p.pattern = .once) (c : OutcomeCause) :
    finishActive c s = putProgram a.slot (p.short c) (dropActive s) := by
  have holds : (dropActive s).program a.slot = some p := hp
  simp only [finishActive, ha, finishShort_once holds once]

theorem deferActive_some (ha : s.sched.active = some a) (hp : s.program a.slot = some p) (c : DeferralCause) :
    deferActive c s = putProgram a.slot (p.putOff c) (dropActive s) := by
  have holds : (dropActive s).program a.slot = some p := hp
  simp only [deferActive, ha, deferSlot_some holds]

/-- The active program has left the active slot, with the record given. -/
structure Vacated (n : Nat) (q : Program) (s t : State) : Prop where
  program : t.program n = some q
  others  : ∀ m, m ≠ n → t.program m = s.program m
  active  : t.sched.active = none
  keeps   : KeepsBut [.sched, .sending] s t

theorem vacated (hp : s.program n = some p) (q : Program) : Vacated n q s (putProgram n q (dropActive s)) := by
  have holds : (dropActive s).program n = some p := hp
  have dropped : KeepsBut [.sched] s (dropActive s) := withSched_sched_keeps ..
  exact ⟨putProgram_program holds q, fun m hm => putProgram_program_other (slot_ne_zero hp) hm q, putProgram_active ..,
    (dropped.mono (by simp)).trans (putProgram_keeps ..)⟩

theorem Vacated.pair (h : Vacated n q s t) (pair : Pair n x k y s) : Pair n (some q) k y t :=
  ⟨h.program, (h.others k pair.apart.symm).trans pair.second, pair.apart, pair.inside, fun m r hn hk hr =>
    pair.others m r hn hk (h.others m hn ▸ hr)⟩

/-- The program has left the deck, and the claims it held at TIMER class are released. -/
structure Left (n : Nat) (q : Program) (s t : State) : Prop where
  program : t.program n = some q
  active  : t.sched.active = none
  mech    : t.mech = if s.mech.isTimer then .free else s.mech
  tunerOf : t.tunerOf = .free
  pair    : ∀ {x k y}, Pair n x k y s → Pair n (some q) k y t
  keeps   : KeepsBut [.sched, .mech, .tuner, .tunerOf, .sending] s t

theorem leaves (hp : s.program n = some p) (timer : s.tunerOf.isTimer = true) (q : Program) :
    Left n q s (releaseTimer (putProgram n q (dropActive s))) := by
  have gone := vacated hp q
  have released := releaseTimer_keeps (putProgram n q (dropActive s))
  exact
    { program := (released.program n).trans gone.program
      active := by rw [released.sched]; exact gone.active
      mech := by rw [releaseTimer_mech, gone.keeps.mech]
      tunerOf := releaseTimer_tunerOf (by rw [gone.keeps.tunerOf]; exact timer)
      pair := fun pair => (gone.pair pair).of (released.sched)
      keeps := (gone.keeps.mono (by simp)).trans (released.mono (by simp)) }

/-- Once it has finished, or is put off while the deck is not free, nothing takes the deck. -/
theorem Left.rests (h : Left n q s t) (pair : Pair n x 0 none s)
    (state : q.state = .done ∨ q.state = .deferred ∧ (s.transport.dew = true ∨ s.mech.isProtect = true)) : applyRules t = t := by
  have pairT := h.pair pair
  have pending : t.pendingList = [] := pairT.pendingList_none (by rcases state with e | ⟨e, -⟩ <;> simp [e]) (by simp)
  rcases state with done | ⟨-, dew | protect⟩
  · exact applyRules_none pending (.inr (pairT.slots_none (by decide) (by simp [done]) (by simp)))
  · exact applyRules_damp pending (by rw [h.keeps.transport]; exact dew)
  · refine applyRules_protected pending ?_
    cases hm : s.mech <;> simp [hm, MechClaim.isProtect] at protect
    rw [h.mech, hm]
    rfl

theorem CuedNow.minute_leaves (h : CuedNow n a p s) (timer : s.tunerOf = .timer (.program n))
    (checks : startPoint passChecks s = releaseTimer (putProgram n q (dropActive s)))
    (state : q.state = .done ∨ q.state = .deferred ∧ (s.transport.dew = true ∨ s.mech.isProtect = true))
    (window : q.next = p.next ∧ q.duration = p.duration) : Left n q s (minuteEvent s) := by
  have left := leaves h.pair.first (by rw [timer]; rfl) q
  have later : s.clock.time + 60 ≤ (q.next + q.duration) * 60 := by
    rw [window.1, window.2]
    exact windowEnd_later h.start h.length
  have last : DeferredLast (releaseTimer (putProgram n q (dropActive s))) :=
    (left.pair h.pair).deferredLast (fun r hr _ => by cases hr; rw [left.keeps.time]; exact later) (by simp)
  rw [h.minute (checks ▸ last), checks, left.rests h.pair state]
  exact left

theorem startPoint_finishes (ha : s.sched.active = some a) (hp : s.program a.slot = some p) (loading : s.transport.mode ≠ .loading)
    (once : p.pattern = .once) {c : OutcomeCause} (verdict : s.startVerdict = .finish c) (onPass : State → State) :
    startPoint onPass s = releaseTimer (putProgram a.slot (p.short c) (dropActive s)) := by
  rw [startPoint_meets loading]
  simp only [meetChecks, verdict, finishActive_once ha hp once]

theorem startPoint_defers (ha : s.sched.active = some a) (hp : s.program a.slot = some p) (loading : s.transport.mode ≠ .loading)
    (verdict : s.startVerdict = .defer c) (onPass : State → State) :
    startPoint onPass s = releaseTimer (putProgram a.slot (p.putOff c) (dropActive s)) := by
  rw [startPoint_meets loading]
  simp only [meetChecks, verdict, deferActive_some ha hp]

/-- In REC_PAUSE the checks passed give RECORD at once (R164, R165). -/
theorem passChecks_records (ha : s.sched.active = some a) (h : SettledIn .recPause s) :
    passChecks s = beginRecord { s with sched.active := some a.started } := by
  have reached : State.inRecPause { s with sched.active := some { a with phase := .starting, pointCome := true } } = true := by
    simp [State.inRecPause, h.mode, h.change]
  simp only [passChecks, ha, Option.map_some, reached, if_true]
  rfl

end Sys2Proof.Machine
end

section
/-! Programs that meet (R171, R172), the deferred set at a new minute (R174, R175), and O50 from these. -/

namespace Sys2Proof.Machine

variable {s t u v : State} {n k m : Nat} {p q r : Program} {x y : Option Program} {a b : Active} {mode : Mode} {c : DeferralCause}

/-! ### Two programs at one start (R171) -/

/-- A program waits for a start that is the present minute. -/
structure StartsNow (q : Program) (s : State) : Prop where
  armed   : q.state = .armed
  carried : q.carried = false
  start   : q.windowStart = s.clock.time
  length  : 1 ≤ q.duration

theorem StartsNow.lasts (h : StartsNow q s) : s.clock.time + 60 ≤ q.windowEnd := windowEnd_later h.start h.length

/-- The order of the pending list, at one start. -/
theorem pendingRank_lt (hp : StartsNow p s) (hq : StartsNow q s) (inside : n ≤ 16 ∧ k ≤ 16) (bound : p.priority ≤ 3)
    (before : q.priority < p.priority ∨ q.priority = p.priority ∧ n < k) : p.pendingRank n < q.pendingRank k := by
  have start : p.next * 60 = q.next * 60 := hp.start.trans hq.start.symm
  simp only [Program.pendingRank, hp.carried, hq.carried, Bool.false_eq_true, if_false]
  omega

/-- A program is put off while another is active. -/
theorem Pair.minute_puts_off (h : Pair n x k (some q) s) (r : Program) (active : s.sched.active = some a)
    (met : meetStarters (endOccurrence s) = putProgram k r s) (hx : ¬ StandsIn x .deferred)
    (window : r.state = .deferred → s.clock.time + 60 ≤ (r.next + r.duration) * 60) : minuteEvent s = putProgram k r s := by
  have pair := (h.symm.put r).symm
  have time : (putProgram k r s).clock.time = s.clock.time := (putProgram_keeps ..).time
  refine minuteEvent_active met (pair.deferredLast (fun p hp deferred => absurd ⟨p, hp, deferred⟩ hx) fun p hp deferred => ?_)
    ((putProgram_active ..).trans active)
  cases hp
  rw [time]
  exact window deferred

/-- Of two that start, the first in the pending order takes the deck; the other is DEFERRED with cause OVERLAP. -/
theorem minute_overlaps (ready : Ready v) (ha : v.sched.active = none) (pair : Pair n (some p) k (some q) v) (hp : StartsNow p v)
    (hq : StartsNow q v) (before : p.pendingRank n < q.pendingRank k) :
    ∃ w, Seized n (.fresh n .preparing false false none) p v w ∧
      minuteEvent v = putProgram k (q.putOff .overlap)
        { w with sched.active := some (Active.fresh n .preparing false false none).started } := by
  obtain ⟨w, hw⟩ : ∃ w, w = makeCueing n false none v := ⟨_, rfl⟩
  have seized : Seized n (.fresh n .preparing false false none) p v w :=
    hw ▸ makeCueing_seizes ready.steady pair.first ready.takeable ready.recordable ready.path false none
  obtain ⟨u, hu⟩ : ∃ u : State, u = { w with sched.active := some (Active.fresh n .preparing false false none).started } := ⟨_, rfl⟩
  have programs : ∀ m, u.program m = w.program m := fun m => by rw [hu]; rfl
  have pending := pair.pendingList_both hp.armed hq.armed before
  have starting : v.starting = [n, k] := by
    simp [State.starting, pending, pair.first, pair.second, hp.carried, hq.carried, hp.start, hq.start]
  have second : u.program k = some q := (programs k).trans ((seized.others k pair.apart.symm).trans pair.second)
  have met : meetStarters (endOccurrence v) = putProgram k (q.putOff .overlap) u := by
    rw [endOccurrence_none ha, meetStarters_first ha starting, ← hw, seized.passes, ← hu, deferSlots_one, deferSlot_some second]
  have time : (putProgram k (q.putOff .overlap) u).clock.time = v.clock.time := by
    rw [(putProgram_keeps ..).time, hu]
    exact seized.keeps.time (by decide)
  have pairU : Pair n (some p.cued) k (some q) u :=
    ⟨(programs n).trans seized.program, second, pair.apart, pair.inside, fun m r hn hk hr =>
      pair.others m r hn hk (by rwa [programs, seized.others m hn] at hr)⟩
  have last : DeferredLast (putProgram k (q.putOff .overlap) u) :=
    (pairU.symm.put (q.putOff .overlap)).symm.deferredLast (fun r hr deferred => by cases hr; cases deferred)
      fun r hr _ => by cases hr; rw [time]; exact hq.lasts
  have active : (putProgram k (q.putOff .overlap) u).sched.active =
      some (Active.fresh n .preparing false false none).started := by rw [putProgram_active, hu]
  exact ⟨w, seized, hu ▸ minuteEvent_active met last active⟩

/-! ### A program that starts while another has the deck (R171, R172) -/

/-- A program starts at the present minute while another, whose window goes on, is active. -/
structure Meeting (n : Nat) (a : Active) (p : Program) (k : Nat) (q : Program) (s : State) : Prop where
  pair   : Pair n (some p) k (some q) s
  active : s.sched.active = some a
  slot   : a.slot = n
  holds  : p.state = .cueing ∨ p.state = .recording
  later  : a.ahead → p.windowStart ≠ s.clock.time
  lasts  : s.clock.time + 60 ≤ p.windowEnd
  starts : StartsNow q s

namespace Meeting

theorem first (h : Meeting n a p k q s) : s.program a.slot = some p := h.slot ▸ h.pair.first

theorem not_armed (h : Meeting n a p k q s) : p.state ≠ .armed := by rcases h.holds with e | e <;> rw [e] <;> decide

theorem not_deferred (h : Meeting n a p k q s) : p.state ≠ .deferred := by rcases h.holds with e | e <;> rw [e] <;> decide

theorem met (h : Meeting n a p k q s) : meetStarters (endOccurrence s) = meetActive a p k s := by
  have pending : s.pendingList = [k] := h.pair.symm.pendingList_first (by simpa using h.starts.armed) (by simpa using h.not_armed)
  have starting : s.starting = [k] := by simp [State.starting, pending, h.pair.second, h.starts.carried, h.starts.start]
  rw [endOccurrence_runs h.active h.first (by have := h.lasts; omega), meetStarters_meets h.active h.first h.later starting, deferSlots_nil]

/-- The program that starts gets another record, and the active one goes on. -/
theorem puts_off (h : Meeting n a p k q s) (r : Program) (made : meetActive a p k s = putProgram k r s)
    (window : r.state = .deferred → s.clock.time + 60 ≤ (r.next + r.duration) * 60) : minuteEvent s = putProgram k r s :=
  h.pair.minute_puts_off r h.active (h.met.trans made) (by simpa using h.not_deferred) window

theorem overlap (h : Meeting n a p k q s) (lower : q.priority ≤ p.priority) :
    minuteEvent s = putProgram k (q.putOff .overlap) s :=
  h.puts_off _ (by simp [meetActive, h.pair.second, lower, deferSlot_some h.pair.second]) fun _ => h.starts.lasts

theorem takes_over (h : Meeting n a p k q s) (higher : p.priority < q.priority) (busy : ¬ a.ahead) :
    meetActive a p k s = takeOver k s := by
  have off : a.preparingAhead = false := by rwa [← Bool.not_eq_true, preparingAhead_iff]
  simp [meetActive, h.pair.second, higher, off]

theorem displaces (h : Meeting n a p k q s) (higher : p.priority < q.priority) (ahead : a.ahead) :
    meetActive a p k s = displace k s := by
  simp [meetActive, h.pair.second, higher, preparingAhead_iff.2 ahead]

/-- A program whose own start checks finish it, or put it off, leaves the deck to the other. -/
theorem finishes (h : Meeting n a p k q s) (higher : p.priority < q.priority) (busy : ¬ a.ahead) (loading : s.transport.mode ≠ .loading)
    {c : OutcomeCause} (verdict : s.startVerdict = .finish c) (once : q.pattern = .once) :
    minuteEvent s = putProgram k (q.short c) s :=
  h.puts_off _ (by simp only [h.takes_over higher busy, takeOver, loading, verdict, if_false, finishShort_once h.pair.second once])
    fun deferred => by cases deferred

theorem defers (h : Meeting n a p k q s) (higher : p.priority < q.priority) (busy : ¬ a.ahead) (loading : s.transport.mode ≠ .loading)
    (verdict : s.startVerdict = .defer c) : minuteEvent s = putProgram k (q.putOff c) s :=
  h.puts_off _ (by simp only [h.takes_over higher busy, takeOver, loading, verdict, if_false, deferSlot_some h.pair.second])
    fun _ => h.starts.lasts

/-- The active program has left the deck to the other, which holds another record. -/
theorem ends (h : Meeting n a p k q s) {r w : Program} (first : u.program n = some r) (second : u.program k = some w)
    (others : ∀ m, m ≠ n → m ≠ k → u.program m = s.program m) (kept : u.clock.time = s.clock.time)
    (stands : r.state = .deferred → r.next = p.next ∧ r.duration = p.duration) (taken : w.state ≠ .deferred) : DeferredLast u := by
  have pair : Pair n (some r) k (some w) u :=
    ⟨first, second, h.pair.apart, h.pair.inside, fun m z hn hk hz => h.pair.others m z hn hk (others m hn hk ▸ hz)⟩
  refine pair.deferredLast (fun z hz deferred => ?_) fun z hz deferred => ?_
  · cases hz
    obtain ⟨next, duration⟩ := stands deferred
    rw [kept, next, duration]
    exact h.lasts
  · cases hz
    exact absurd deferred taken

end Meeting

/-- A program that has seized the deck from another, which holds another record. -/
structure TakenOver (n : Nat) (r : Program) (k : Nat) (a : Active) (q : Program) (s t : State) : Prop where
  first     : t.program n = some r
  second    : t.program k = some q.cued
  others    : ∀ m, m ≠ n → m ≠ k → t.program m = s.program m
  active    : t.sched.active = some a
  claims    : ClaimedFor k t
  pause     : Pausing t
  selection : t.tuner.selection = .preset q.preset
  keeps     : KeepsBut seizedParts s t

/-- From the state in which the other has left the active slot. -/
theorem takenOver (gone : Vacated n r s u) (seized : Seized k a q u v) (apart : n ≠ k) :
    TakenOver n r k a.started q s { v with sched.active := some a.started } where
  first := (seized.others n apart).trans gone.program
  second := seized.program
  others m hn hk := (seized.others m hk).trans (gone.others m hn)
  active := rfl
  claims := seized.claims
  pause := seized.pause.pausing
  selection := seized.selection
  keeps := (gone.keeps.mono (by simp [seizedParts, broughtParts, stillParts])).trans
    (seized.keeps.trans ((withSched_sched_keeps _ v).mono (by simp [seizedParts])))

namespace Meeting

theorem vacates (h : Meeting n a p k q s) (r : Program) : Vacated n r s (putProgram n r (dropActive s)) := vacated h.pair.first r

/-- One of higher priority displaces one cued up ahead, which returns to ARMED (R171). -/
theorem minute_displaces (h : Meeting n a p k q s) (higher : p.priority < q.priority) (ahead : a.ahead) (ready : Ready s) :
    TakenOver n { p with state := .armed } k (Active.fresh k .preparing false false none).started q s (minuteEvent s) := by
  obtain ⟨u, hu⟩ : ∃ u, u = putProgram n { p with state := .armed } (dropActive s) := ⟨_, rfl⟩
  have gone : Vacated n { p with state := .armed } s u := hu ▸ h.vacates _
  have readyU : Ready u := ready.kept gone.keeps
  have second : u.program k = some q := (gone.others k h.pair.apart.symm).trans h.pair.second
  have seized := makeCueing_seizes readyU.steady second readyU.takeable readyU.recordable readyU.path false none
  have made : meetActive a p k s = { makeCueing k false none u with
      sched.active := some (Active.fresh k .preparing false false none).started } := by
    rw [h.displaces higher ahead, ← seized.passes, displace]
    simp only [activeProgram_some h.active h.first, h.slot, ← hu]
  have taken := takenOver gone seized h.pair.apart
  rw [minuteEvent_active (h.met.trans made) (h.ends taken.first taken.second taken.others (taken.keeps.time (by decide))
    (fun e => by cases e) (by simp [Program.cued])) taken.active]
  exact taken

/-- The checks of a program that would take over pass while the active one holds the claims. -/
theorem passes (ready : Ready s) (claims : ClaimedFor n s) (empty : s.transport.mode ≠ .empty) (ejecting : s.transport.mode ≠ .ejecting) :
    s.startVerdict = .pass := startVerdict_pass empty ejecting ready.recordable claims.unprotected

theorem takes_over_from (h : Meeting n a p k q s) (higher : p.priority < q.priority) (busy : ¬ a.ahead)
    (loading : s.transport.mode ≠ .loading) (verdict : s.startVerdict = .pass) :
    meetActive a p k s =
      let v := makeActive k (.fresh k .starting false true none) (putProgram n (p.putOff .preempted) (dropActive s))
      if p.state = .recording then changeOver .takeover v else passChecks (bringUp false v) := by
  rw [h.takes_over higher busy]
  simp only [takeOver, loading, if_false, verdict, activeProgram_some h.active h.first, Option.any_some, beq_iff_eq,
    deferActive_some h.active h.first, h.slot]

/-- One of higher priority takes over from one in STARTING, which is DEFERRED with cause PREEMPTED (R172). -/
theorem minute_takes_over (h : Meeting n a p k q s) (higher : p.priority < q.priority) (busy : ¬ a.ahead)
    (loading : s.transport.mode ≠ .loading) (verdict : s.startVerdict = .pass) (cueing : p.state = .cueing) (ready : Ready s) :
    TakenOver n (p.putOff .preempted) k (Active.fresh k .starting false true none) q s (minuteEvent s) := by
  obtain ⟨u, hu⟩ : ∃ u, u = putProgram n (p.putOff .preempted) (dropActive s) := ⟨_, rfl⟩
  have gone : Vacated n (p.putOff .preempted) s u := hu ▸ h.vacates _
  have readyU : Ready u := ready.kept gone.keeps
  have second : u.program k = some q := (gone.others k h.pair.apart.symm).trans h.pair.second
  have seized := seizes readyU.steady second readyU.takeable readyU.recordable readyU.path
    (a := .fresh k .starting false true none) rfl rfl
  have made : meetActive a p k s = { bringUp false (makeActive k (.fresh k .starting false true none) u) with
      sched.active := some (Active.fresh k .starting false true none).started } := by
    rw [h.takes_over_from higher busy loading verdict, ← hu, ← passChecks_starts seized.active seized.pause.not_reached]
    simp [cueing]
  have taken := takenOver gone seized h.pair.apart
  rw [minuteEvent_active (h.met.trans made) (h.ends taken.first taken.second taken.others (taken.keeps.time (by decide))
    (fun _ => ⟨rfl, rfl⟩) (by simp [Program.cued])) taken.active]
  exact taken

/-- One of higher priority takes over from one RECORDING: it is RECORDING in CHANGING, REC_PAUSE on its way (R172). -/
theorem minute_changes_over (h : Meeting n a p k q s) (higher : p.priority < q.priority) (busy : ¬ a.ahead)
    (verdict : s.startVerdict = .pass) (recording : p.state = .recording) (ready : Ready s) (settled : SettledIn .record s) :
    ∃ v, Vacated n (p.putOff .preempted) s v ∧ ∃ w, MadeActive k (.fresh k .starting false true none) q v w ∧
      ChangedOver .takeover (.fresh k .starting false true none) q.cued w (minuteEvent s) := by
  obtain ⟨v, hv⟩ : ∃ v, v = putProgram n (p.putOff .preempted) (dropActive s) := ⟨_, rfl⟩
  have gone : Vacated n (p.putOff .preempted) s v := hv ▸ h.vacates _
  have readyV : Ready v := ready.kept gone.keeps
  have second : v.program k = some q := (gone.others k h.pair.apart.symm).trans h.pair.second
  obtain ⟨w, hw⟩ : ∃ w, w = makeActive k (.fresh k .starting false true none) v := ⟨_, rfl⟩
  have made : MadeActive k (.fresh k .starting false true none) q v w :=
    hw ▸ makeActive_made second readyV.takeable readyV.steady.sequence rfl
  have transport : w.transport = s.transport := made.keeps.transport.trans gone.keeps.transport
  have changed := changeOver_changed made.active made.program (settled.of transport) (ready.recordable.of transport) .takeover
  have loading : s.transport.mode ≠ .loading := by rw [settled.mode]; decide
  have met : meetActive a p k s = changeOver .takeover w := by
    rw [h.takes_over_from higher busy loading verdict, ← hv]
    simp only [← hw, recording, if_true]
  obtain ⟨f, active⟩ := changed.active
  have last : DeferredLast (changeOver .takeover w) :=
    h.ends ((changed.others n h.pair.apart).trans ((made.others n h.pair.apart).trans gone.program)) changed.program
      (fun m hn hk => (changed.others m hk).trans ((made.others m hk).trans (gone.others m hn)))
      ((changed.keeps.time (by decide)).trans (made.keeps.time.trans gone.keeps.time)) (fun _ => ⟨rfl, rfl⟩) (by simp)
  exact ⟨v, gone, w, made, by rw [minuteEvent_active (h.met.trans met) last active]; exact changed⟩

end Meeting

/-! ### The deferred set (R174, R175) -/

theorem Pair.unstarted (h : Pair n x k y s) (ha : s.sched.active = none) (hx : ¬ StandsIn x .armed) (hy : ¬ StandsIn y .armed) :
    meetStarters (endOccurrence s) = s := by
  rw [endOccurrence_none ha, meetStarters_none ha (starting_nil (h.pendingList_none hx hy))]

/-- A deferred program with no minute of its window left finishes with the cause it holds (R175). -/
theorem minute_expires (pair : Pair n (some p) 0 none s) (ha : s.sched.active = none) (deferred : p.state = .deferred)
    (carried : p.carried = false) (ends : p.windowEnd < s.clock.time + 60) (once : p.pattern = .once) (hc : p.deferral = some c) :
    minuteEvent s = putProgram n (p.short c.outcomeCause) s := by
  have short : ¬ p.minuteLeft s.clock.time = true := by simp [Program.minuteLeft, carried, ends]
  have expired : expireDeferred s = putProgram n (p.short c.outcomeCause) s := by
    rw [expireDeferred, pair.slots_first (by decide) (by simpa using deferred) (by simp)]
    simp only [List.foldl_cons, List.foldl_nil, expireSlot, pair.first, short, Bool.false_eq_true, if_false, hc, Option.getD_some,
      finishShort_once pair.first once]
  have done : (p.short c.outcomeCause).state = .done := rfl
  have after := pair.put (p.short c.outcomeCause)
  rw [minuteEvent, pair.unstarted ha (by simp [deferred]) (by simp), expired,
    applyRules_none (after.pendingList_none (by simp [done]) (by simp)) (.inr (after.slots_none (by decide) (by simp [done]) (by simp)))]

/-- The order of the selection. -/
theorem pickRank_lt (hp : p.next < 100000000) (inside : n ≤ 16 ∧ k ≤ 16) (bound : p.priority ≤ 3) (bound' : q.priority ≤ 3)
    (before : q.priority < p.priority ∨ q.priority = p.priority ∧ (p.next < q.next ∨ p.next = q.next ∧ n < k)) :
    p.pickRank n < q.pickRank k := by
  simp only [Program.pickRank]
  omega

/-- A picked member becomes CUEING as a late start, and its start point is at once (R164, R174). -/
theorem applyRules_starts_late (ready : Ready s) (pair : Pair n (some p) k y s) (ha : s.sched.active = none)
    (free : s.mech.isProtect = false) (deferred : p.state = .deferred) (hy : ¬ StandsIn y .armed) (last : DeferredLast s)
    (before : ∀ q, y = some q → q.state = .deferred → p.pickRank n < q.pickRank k) :
    ∃ w, Seized n (.fresh n .preparing true false p.deferral) p s w ∧
      applyRules s = { w with sched.active := some (Active.fresh n .preparing true false p.deferral).started } := by
  have seized := makeCueing_seizes ready.steady pair.first ready.takeable ready.recordable ready.path true p.deferral
  have pending : s.pendingList = [] := pair.pendingList_none (by simp [deferred]) hy
  have deckFree : s.deckFree = true := by
    simp [State.deckFree, ha, free, ready.recordable.dew, ready.steady.sequence, ready.steady.operating]
  have standby : State.inStandby (makeCueing n true p.deferral s) = false := by
    have power : (makeCueing n true p.deferral s).power = s.power := seized.keeps.power (by decide)
    simp [State.inStandby, power, ready.steady.operating, ready.steady.transition]
  have picked : pick n s = { makeCueing n true p.deferral s with
      sched.active := some (Active.fresh n .preparing true false p.deferral).started } := by
    rw [← seized.passes]
    simp only [pick, lateStart, pair.first, Option.bind_some, standby, Bool.false_eq_true, if_false]
  exact ⟨_, seized, applyRules_picks ready.steady.running pending deckFree last (pair.deferredByPick_head deferred before) picked rfl⟩

end Sys2Proof.Machine
end

section
/-! O50: each clause for the state in which the minute begins, the second counted and the time on. -/

namespace Sys2Proof.Machine

variable {s t u v : State} {n k m : Nat} {p q r : Program} {x y : Option Program} {a b : Active} {c : DeferralCause}

/-! ### The state in which the minute begins -/

theorem secondOn_idle (h : p.state ≠ .recording) : p.secondOn s = p := if_neg fun on => h on.1

/-- The counting of a second leaves all but the seconds counted. -/
theorem secondOn_fields (p : Program) (s : State) : ∃ run : RunRecord, p.secondOn s = { p with run := run } := by
  unfold Program.secondOn
  split <;> exact ⟨_, rfl⟩

theorem newSecond_transport (s : State) : (newSecond s).transport = s.transport := (newSecond_keeps s).transport
theorem newSecond_mech (s : State) : (newSecond s).mech = s.mech := (newSecond_keeps s).mech
theorem newSecond_tunerOf (s : State) : (newSecond s).tunerOf = s.tunerOf := (newSecond_keeps s).tunerOf

theorem cuedNow_newSecond (only : OnlyPrograms [n] s) (hn : n ≤ 16) (ha : s.sched.active = some a) (slot : a.slot = n) (ahead : a.ahead)
    (hp : s.program n = some p) (cueing : p.state = .cueing) (start : p.next * 60 = s.clock.time + 1) (length : 1 ≤ p.duration) :
    CuedNow n a p (newSecond s) := by
  have same : (newSecond s).sched = s.sched := newSecond_idle fun b q hb hq => by
    obtain rfl : a = b := by simpa [ha] using hb
    rw [slot, hp] at hq
    cases hq
    rw [cueing]
    decide
  exact ⟨(only.pair hn hp).of same, by rw [same]; exact ha, slot, ahead, cueing, start, length⟩

/-- The pair of a table in which one is active, the second counted for it. -/
theorem Pair.newSecond (h : Pair n (some p) k y s) (ha : s.sched.active = some a) (slot : a.slot = n) :
    Pair n (some (p.secondOn s)) k y (Machine.newSecond s) := by
  have hp : s.program a.slot = some p := slot ▸ h.first
  have others : ∀ m, m ≠ n → (Machine.newSecond s).program m = s.program m := fun m hm =>
    newSecond_program_other ha hp (slot.symm ▸ hm)
  exact ⟨slot ▸ newSecond_program ha hp, (others k h.apart.symm).trans h.second, h.apart, h.inside, fun m r hn hk hr =>
    h.others m r hn hk (others m hn ▸ hr)⟩

theorem MinuteDue.whole (h : MinuteDue s) {m : Nat} (later : s.clock.time + 1 < m * 60) : s.clock.time + 1 + 60 ≤ m * 60 := by
  have := h.minute
  omega

theorem meeting_newSecond (due : MinuteDue s) (only : OnlyPrograms [n, k] s) (hn : n ≤ 16) (hk : k ≤ 16) (apart : n ≠ k)
    (hp : s.program n = some p) (hq : s.program k = some q) (starts : StartsNow q (newSecond s)) (ha : s.sched.active = some a)
    (slot : a.slot = n) (holds : p.state = .cueing ∨ p.state = .recording) (lasts : s.clock.time + 1 < (p.next + p.duration) * 60)
    (later : a.ahead → p.next * 60 ≠ s.clock.time + 1) : Meeting n a (p.secondOn s) k q (newSecond s) := by
  have pair : Pair n (some p) k (some q) s := hp ▸ hq ▸ only.pair_two hn hk apart
  obtain ⟨run, fields⟩ := secondOn_fields p s
  refine ⟨pair.newSecond ha slot, (newSecond_active s).trans ha, slot, ?_, ?_, ?_, starts⟩
  · rw [fields]
    exact holds
  · rw [fields]
    exact later
  · rw [fields]
    exact due.whole lasts

/-- The deck stands in STOP, free for a program. -/
theorem ready_free (hy : Steady s) (stop : SettledIn .stop s) (tab : s.transport.recordTab = true) (dew : s.transport.dew = false)
    (mech : s.mech = .free) (tuner : s.tunerOf = .free ∨ s.tunerOf = .direct) : Ready s :=
  ⟨hy, ⟨.inl mech, by rcases tuner with e | e <;> rw [e] <;> decide⟩, ⟨tab, dew⟩, .inl stop⟩

/-! ### The clauses -/

theorem CuedNow.leaves_served (hy : Steady s) (due : MinuteDue s) (h : CuedNow n a p (newSecond s))
    (timer : s.tunerOf = .timer (.program n))
    (checks : startPoint passChecks (newSecond s) = releaseTimer (putProgram a.slot q (dropActive (newSecond s))))
    (state : q.state = .done ∨ q.state = .deferred ∧ (s.transport.dew = true ∨ s.mech.isProtect = true))
    (window : q.next = p.next ∧ q.duration = p.duration) :
    ∃ t, exec .secondBoundary s = .next t ∧ t.clock.time = s.clock.time + 1 ∧ t.program n = some q ∧ t.sched.active = none ∧
      t.tunerOf = .free ∧ t.mech = if s.mech.isTimer then .free else s.mech := by
  have left := h.minute_leaves (q := q) (by rw [newSecond_tunerOf]; exact timer) (h.slot ▸ checks)
    (by rw [newSecond_transport, newSecond_mech]; exact state) window
  obtain ⟨t, ran, time, ended⟩ := minute_served hy due rfl left.keeps
  exact ⟨t, ran, time, (ended.keeps.program n).trans left.program, by rw [ended.keeps.sched]; exact left.active,
    ended.keeps.tunerOf.trans left.tunerOf, by rw [ended.keeps.mech, left.mech, newSecond_mech]⟩

theorem CuedNow.records_served (hy : Steady s) (due : MinuteDue s) (h : CuedNow n a p (newSecond s)) (claims : ClaimedFor n s)
    (ok : Recordable s) (settled : SettledIn .recPause s) (long : p.speedMode = .long) :
    ∃ t, exec .secondBoundary s = .next t ∧ t.clock.time = s.clock.time + 1 ∧ t.program n = some { p with state := .recording } ∧
      (∃ b, t.sched.active = some b ∧ b.slot = n ∧ b.phase = .running) ∧ ClaimedFor n t ∧ t.transport.target = some .record ∧
      t.transport.change = some (.servo .record) ∧ t.transport.recordOrder = .timer .long p.mark := by
  obtain ⟨v, hv⟩ : ∃ v, v = newSecond s := ⟨_, rfl⟩
  have transport : v.transport = s.transport := hv ▸ newSecond_transport s
  rw [← hv] at h
  obtain ⟨w, hw⟩ : ∃ w : State, w = { v with sched.active := some a.started } := ⟨_, rfl⟩
  have active : w.sched.active = some a.started := by rw [hw]
  have started : KeepsBut [.sched] v w := hw ▸ withSched_sched_keeps ..
  have first : w.program a.started.slot = some p := by rw [hw]; exact h.slot ▸ h.pair.first
  have begun := beginRecord_begun active first ((settled.of transport).of started.transport) ((ok.of transport).of started.transport)
  have choice : w.chooseSpeed p = { speed := .long, short := false, pending := false } := by simp [State.chooseSpeed, long]
  rw [choice] at begun
  have slot : a.started.slot = n := h.slot
  have program : (beginRecord w).program n = some { p with state := .recording } := by
    rw [← slot, begun.program, Bool.or_false]
  have verdict : v.startVerdict = .pass := startVerdict_pass (by rw [transport, settled.mode]; decide)
    (by rw [transport, settled.mode]; decide) (ok.of transport) (by rw [hv, newSecond_mech]; exact claims.unprotected)
  have loading : v.transport.mode ≠ .loading := by rw [transport, settled.mode]; decide
  have checks : startPoint passChecks v = beginRecord w := by
    rw [startPoint_meets loading, meetChecks_pass verdict, passChecks_records h.active (settled.of transport), hw]
  have pair : Pair n (some { p with state := .recording }) 0 none (beginRecord w) :=
    ⟨program, rfl, h.pair.apart, h.pair.inside, fun m r hm hk hr => by
      rw [begun.others m (slot.symm ▸ hm), hw] at hr
      exact h.pair.others m r hm hk hr⟩
  have event := h.minute_active checks begun.active pair (by simp)
  have kept : KeepsBut (.sched :: stillParts) v (beginRecord w) := (started.mono (by simp)).trans begun.keeps
  obtain ⟨t, ran, time, ended⟩ := minute_served hy due (hv ▸ event) (hv ▸ kept)
  have deck : t.transport = (beginRecord w).transport := ended.keeps.transport
  refine ⟨t, ran, time, (ended.keeps.program n).trans program,
    ⟨a.started.recording false, by rw [ended.keeps.sched]; exact begun.active, slot, rfl⟩, ?_, ?_, ?_, ?_⟩
  · exact ((claims.kept (newSecond_keeps s)).kept (hv ▸ kept)).kept ended.keeps
  · rw [deck]; exact begun.target
  · rw [deck]; exact begun.change
  · rw [deck]; exact begun.order

/-- The checks leave the program active with its claims and the transport as they are. -/
theorem CuedNow.waits_served (hy : Steady s) (due : MinuteDue s) (h : CuedNow n a p (newSecond s)) {b : Active}
    (checks : startPoint passChecks (newSecond s) = { newSecond s with sched.active := some b }) :
    ∃ t, exec .secondBoundary s = .next t ∧ t.clock.time = s.clock.time + 1 ∧ t.program n = some p ∧ t.sched.active = some b ∧
      t.mech = s.mech ∧ t.tunerOf = s.tunerOf ∧ t.transport = s.transport := by
  have kept : KeepsBut [.sched] (newSecond s) { newSecond s with sched.active := some b } := withSched_sched_keeps ..
  have event := h.minute_active checks rfl (h.pair.congr fun _ => rfl) (by rw [h.cueing]; decide)
  obtain ⟨t, ran, time, ended⟩ := minute_served hy due event kept
  exact ⟨t, ran, time, (ended.keeps.program n).trans h.pair.first, by rw [ended.keeps.sched],
    ended.keeps.mech.trans (kept.mech.trans (newSecond_mech s)), ended.keeps.tunerOf.trans (kept.tunerOf.trans (newSecond_tunerOf s)),
    ended.keeps.transport.trans (kept.transport.trans (newSecond_transport s))⟩

theorem Meeting.goesOn_served (hy : Steady s) (due : MinuteDue s) (h : Meeting n a p k q (newSecond s))
    (event : minuteEvent (newSecond s) = putProgram k r (newSecond s)) :
    ∃ t, exec .secondBoundary s = .next t ∧ t.clock.time = s.clock.time + 1 ∧ t.program k = some r ∧ t.program n = some p ∧
      t.sched.active = some a ∧ t.mech = s.mech ∧ t.tunerOf = s.tunerOf ∧ t.transport = s.transport := by
  have put : KeepsBut [.sched, .sending] (newSecond s) (putProgram k r (newSecond s)) := putProgram_keeps ..
  obtain ⟨t, ran, time, ended⟩ := minute_served hy due event put
  have second := slot_ne_zero h.pair.second
  refine ⟨t, ran, time, (ended.keeps.program k).trans (putProgram_program h.pair.second r),
    (ended.keeps.program n).trans ((putProgram_program_other second h.pair.apart r).trans h.pair.first), ?_,
    ended.keeps.mech.trans (put.mech.trans (newSecond_mech s)), ended.keeps.tunerOf.trans (put.tunerOf.trans (newSecond_tunerOf s)),
    ended.keeps.transport.trans (put.transport.trans (newSecond_transport s))⟩
  rw [ended.keeps.sched, putProgram_active]
  exact h.active

theorem TakenOver.served (hy : Steady s) (due : MinuteDue s) (h : TakenOver n r k b q (newSecond s) (minuteEvent (newSecond s))) :
    ∃ t, exec .secondBoundary s = .next t ∧ t.clock.time = s.clock.time + 1 ∧ t.program n = some r ∧ t.program k = some q.cued ∧
      ClaimedFor k t ∧ Pausing t ∧ t.tuner.selection = .preset q.preset ∧ t.sched.active = some b := by
  obtain ⟨t, ran, time, ended⟩ := minute_served hy due rfl h.keeps
  exact ⟨t, ran, time, (ended.keeps.program n).trans h.first, (ended.keeps.program k).trans h.second, h.claims.kept ended.keeps,
    h.pause.of ended.keeps.transport, by rw [ended.keeps.tuner]; exact h.selection, by rw [ended.keeps.sched]; exact h.active⟩

theorem Meeting.changes_over_served (hy : Steady s) (due : MinuteDue s) (h : Meeting n a p k q (newSecond s))
    (higher : p.priority < q.priority) (busy : ¬ a.ahead) (claims : ClaimedFor n s) (ready : Ready s) (recording : p.state = .recording)
    (settled : SettledIn .record s) :
    ∃ t, exec .secondBoundary s = .next t ∧ t.clock.time = s.clock.time + 1 ∧ t.program n = some (p.putOff .preempted) ∧
      t.program k = some { q.cued with state := .recording } ∧ ClaimedFor k t ∧ Pausing t ∧ t.tuner.selection = .preset q.preset ∧
      ∃ b, t.sched.active = some b ∧ b.slot = k ∧ b.phase = .changing ∧ b.reason = some .takeover ∧ b.latest = none := by
  have readyV : Ready (newSecond s) := ready.kept (newSecond_keeps s)
  have settledV : SettledIn .record (newSecond s) := settled.of (newSecond_transport s)
  have verdict := Meeting.passes readyV (claims.kept (newSecond_keeps s)) (by rw [settledV.mode]; decide) (by rw [settledV.mode]; decide)
  obtain ⟨v, gone, w, made, changed⟩ := h.minute_changes_over higher busy verdict recording readyV settledV
  have kept : KeepsBut seizedParts (newSecond s) (minuteEvent (newSecond s)) :=
    (gone.keeps.mono (by simp [seizedParts, broughtParts, stillParts])).trans
      ((made.keeps.mono (by simp [seizedParts, broughtParts, stillParts])).trans
        (changed.keeps.mono (by simp [seizedParts, broughtParts, stillParts])))
  obtain ⟨t, ran, time, ended⟩ := minute_served hy due rfl kept
  obtain ⟨f, active⟩ := changed.active
  refine ⟨t, ran, time, ?_, (ended.keeps.program k).trans changed.program, ?_, changed.pause.pausing.of ended.keeps.transport, ?_, ?_⟩
  · exact (ended.keeps.program n).trans ((changed.others n h.pair.apart).trans ((made.others n h.pair.apart).trans gone.program))
  · exact (made.claims.kept changed.keeps).kept ended.keeps
  · rw [ended.keeps.tuner]
    exact changed.selection
  · exact ⟨_, by rw [ended.keeps.sched]; exact active, rfl, rfl, rfl, rfl⟩

end Sys2Proof.Machine
end

section
/-! O50: what a new minute does, from the clauses. -/

namespace Sys2Proof.Machine

variable {s t u v : State} {n k m : Nat} {p q r : Program} {x y : Option Program} {a b : Active} {c : DeferralCause}

theorem newSecond_startVerdict (s : State) : (newSecond s).startVerdict = s.startVerdict := by
  simp only [State.startVerdict, newSecond_transport, newSecond_mech]

/-- The one program that waits within 120 s of its start is cued up (R161 to R163). -/
theorem cuesUp_served (due : MinuteDue s) (ready : Ready s) (stop : SettledIn .stop s) (hn : n ≤ 16) (only : NoPrograms (s.withSlot n none))
    (hp : s.program n = some p) (armed : p.state = .armed) (carried : p.carried = false) (later : s.clock.time + 1 < p.next * 60)
    (soon : p.next * 60 ≤ s.clock.time + 1 + 120) :
    ∃ t, exec .secondBoundary s = .next t ∧ t.clock.time = s.clock.time + 1 ∧ t.program n = some p.cued ∧
      t.sched.active = some (.fresh n .preparing false false none) ∧ ClaimedFor n t ∧ t.tuner.selection = .preset p.preset ∧
      t.transport.mode = .threading ∧ Pausing t ∧ Announced (.prog n) (programBytes n (t.program n)) t := by
  have idle : s.sched.active = none := only.active
  have transport := newSecond_transport s
  have seized := minute_cuesUp (v := newSecond s) (ready.kept (newSecond_keeps s)) ((newSecond_active s).trans idle)
    ((pair_of_emptied only hn hp).of (newSecond_unmanned idle)) armed carried later soon
  obtain ⟨t, ran, time, ended⟩ := minute_served ready.steady due rfl seized.keeps
  have still : (newSecond s).mechInFlight = false := mechInFlight_of_none ((stop.of transport).change)
  have program : t.program n = (minuteEvent (newSecond s)).program n := ended.keeps.program n
  refine ⟨t, ran, time, program.trans seized.program, by rw [ended.keeps.sched]; exact seized.active, seized.claims.kept ended.keeps,
    by rw [ended.keeps.tuner]; exact seized.selection, ?_, seized.pause.pausing.of ended.keeps.transport, ?_⟩
  · rw [ended.keeps.transport]
    exact seized.threads (stop.of transport).mode still
  · rw [program]
    exact ended.told (seized.noted (by rw [armed]; decide)) (by simp)

/-- Of two programs that start, one takes the deck and the other is DEFERRED (R171). -/
theorem overlaps_served (due : MinuteDue s) (ready : Ready s) (idle : s.sched.active = none) (pair : Pair n (some p) k (some q) s)
    (hp : StartsNow p (newSecond s)) (hq : StartsNow q (newSecond s)) (before : p.pendingRank n < q.pendingRank k) :
    ∃ t, exec .secondBoundary s = .next t ∧ t.clock.time = s.clock.time + 1 ∧ t.program n = some p.cued ∧
      t.program k = some (q.putOff .overlap) ∧ ClaimedFor n t ∧ Pausing t ∧
      t.sched.active = some (Active.fresh n .preparing false false none).started := by
  obtain ⟨w, seized, event⟩ := minute_overlaps (v := newSecond s) (ready.kept (newSecond_keeps s)) ((newSecond_active s).trans idle)
    (pair.of (newSecond_unmanned idle)) hp hq before
  obtain ⟨u, hu⟩ : ∃ u : State, u = { w with sched.active := some (Active.fresh n .preparing false false none).started } := ⟨_, rfl⟩
  rw [← hu] at event
  have started : KeepsBut [.sched] w u := hu ▸ withSched_sched_keeps ..
  have put : KeepsBut [.sched, .sending] w (putProgram k (q.putOff .overlap) u) := (started.mono (by simp)).trans (putProgram_keeps ..)
  have kept : KeepsBut seizedParts (newSecond s) (putProgram k (q.putOff .overlap) u) :=
    seized.keeps.trans (put.mono (by simp [seizedParts, broughtParts, stillParts]))
  obtain ⟨t, ran, time, ended⟩ := minute_served ready.steady due event kept
  have program : ∀ m, u.program m = w.program m := fun m => by rw [hu]; rfl
  have second : u.program k = some q := by
    rw [program, seized.others k pair.apart.symm, program_of_sched (newSecond_unmanned idle), pair.second]
  refine ⟨t, ran, time, ?_, (ended.keeps.program k).trans (putProgram_program second _), (seized.claims.kept put).kept ended.keeps,
    (seized.pause.pausing.of put.transport).of ended.keeps.transport, ?_⟩
  · rw [ended.keeps.program n, putProgram_program_other (slot_ne_zero second) pair.apart, program]
    exact seized.program
  · rw [ended.keeps.sched, putProgram_active, hu]

/-- A deferred program finishes where its window is over (R175). -/
theorem expires_served (hd : NothingDue s) (hy : Steady s) (due : MinuteDue s) (hn : n ≤ 16) (only : OnlyPrograms [n] s)
    (idle : s.sched.active = none) (hp : s.program n = some p) (deferred : p.state = .deferred) (carried : p.carried = false)
    (ends : (p.next + p.duration) * 60 < s.clock.time + 1 + 60) (once : p.pattern = .once) (hc : p.deferral = some c) :
    ∃ t, exec .secondBoundary s = .next t ∧ t.clock.time = s.clock.time + 1 ∧ t.program n = some (p.short c.outcomeCause) ∧
      KeepsBut [.time, .nav, .clock, .sched, .sending] s t := by
  obtain ⟨u, hu⟩ : ∃ u, u = putProgram n (p.short c.outcomeCause) (newSecond s) := ⟨_, rfl⟩
  have pair : Pair n (some p) 0 none (newSecond s) := (only.pair hn hp).of (newSecond_unmanned idle)
  have event := minute_expires pair ((newSecond_active s).trans idle) deferred carried ends once hc
  have put : KeepsBut [.sched, .sending] (newSecond s) u := hu ▸ putProgram_keeps ..
  have kept : KeepsBut [.time, .nav, .clock, .sched, .sending] s u := (newSecond_keeps s).trans (put.mono (by simp))
  have still : endDeckEvent s u = chooseFrame u := (hd.undue.untouched kept).endDeckEvent (.inl hy.sequence)
  refine ⟨chooseFrame u, ?_, ?_, ?_, kept.trans ((chooseFrame_keeps u).mono (by simp))⟩
  · rw [secondBoundary_served hy due.source due.phase due.inside, if_pos due.minute, event, ← hu, still]
  · rw [(chooseFrame_keeps u).time, put.time, newSecond_time]
  · rw [(chooseFrame_keeps u).program n, hu, putProgram_program pair.first]

/-- The selection picks the first of those deferred as a late start (R174). -/
theorem picks_served (due : MinuteDue s) (ready : Ready s) (free : s.mech = .free) (idle : s.sched.active = none)
    (pair : Pair n (some p) k y s) (deferred : p.state = .deferred) (hy : ¬ StandsIn y .armed)
    (last : s.clock.time + 1 + 60 ≤ (p.next + p.duration) * 60)
    (lastOther : ∀ q, y = some q → s.clock.time + 1 + 60 ≤ (q.next + q.duration) * 60)
    (before : ∀ q, y = some q → q.state = .deferred → p.pickRank n < q.pickRank k) :
    ∃ t, exec .secondBoundary s = .next t ∧ t.clock.time = s.clock.time + 1 ∧ t.program n = some p.cued ∧ t.program k = s.program k ∧
      ClaimedFor n t ∧ Pausing t ∧ t.sched.active = some (Active.fresh n .preparing true false p.deferral).started := by
  have same := newSecond_unmanned idle
  have pairV := pair.of same
  have unmanned : (newSecond s).sched.active = none := (newSecond_active s).trans idle
  have lasts : DeferredLast (newSecond s) :=
    pairV.deferredLast (fun r hr _ => by cases hr; exact last) fun r hr _ => lastOther r hr
  obtain ⟨w, seized, event⟩ := applyRules_starts_late (ready.kept (newSecond_keeps s)) pairV unmanned
    (by rw [newSecond_mech, free]; rfl) deferred hy lasts before
  rw [← minuteEvent_free (pairV.unstarted unmanned (by simp [deferred]) hy) lasts] at event
  have started := withSched_sched_keeps
    { w.sched with active := some (Active.fresh n .preparing true false p.deferral).started } w
  obtain ⟨t, ran, time, ended⟩ := minute_served ready.steady due event (seized.keeps.trans (started.mono (by simp [seizedParts])))
  refine ⟨t, ran, time, (ended.keeps.program n).trans seized.program, ?_, (seized.claims.kept started).kept ended.keeps,
    (seized.pause.pausing.of started.transport).of ended.keeps.transport, by rw [ended.keeps.sched]⟩
  exact (ended.keeps.program k).trans ((seized.others k pair.apart.symm).trans (program_of_sched same k))

/-- Settles O50: each clause is what the rules make of the state in which the minute begins. -/
theorem programCuesUp : Obligations.ProgramCuesUp := by
  intro s hd hy _ due
  refine ⟨?cuedUp, ?checks, ?meetings, ?deferred⟩
  case cuedUp =>
    rintro ⟨stop, tab, dew, mech, tuner⟩ n hn only p hp armed carried later soon -
    obtain ⟨t, ran, time, program, active, claims, selection, mode, pausing, told⟩ :=
      cuesUp_served due (ready_free hy stop tab dew mech tuner) stop hn only hp armed carried later soon
    exact ⟨t, ran, time, program, ⟨_, active, rfl, rfl, rfl, rfl⟩, claims, selection, mode, pausing, told⟩
  case checks =>
    intro n hn only a ha slot ahead p hp cueing _ start length tuner
    have cued := cuedNow_newSecond only hn ha slot ahead hp cueing start length
    have first : (newSecond s).program a.slot = some p := slot ▸ cued.pair.first
    have transport := newSecond_transport s
    have mech := newSecond_mech s
    refine ⟨fun loading => ?_, fun out once => ?_, ?_, ?_, ?_, ?_⟩
    · obtain ⟨t, ran, time, program, active, -⟩ :=
        cued.waits_served hy due (startPoint_holds cued.active (by rw [transport]; exact loading) _)
      exact ⟨t, ran, time, program, active⟩
    · have verdict : (newSecond s).startVerdict = .finish .noCassette :=
        (newSecond_startVerdict s).trans (by simp [State.startVerdict, out])
      have shut : (newSecond s).transport.mode ≠ .loading := by rw [transport]; rcases out with e | e <;> rw [e] <;> decide
      exact cued.leaves_served hy due tuner (startPoint_finishes cued.active first shut once verdict _) (.inl rfl) ⟨rfl, rfl⟩
    all_goals rintro ⟨empty, ejecting, loading⟩
    all_goals have shut : (newSecond s).transport.mode ≠ .loading := by rw [transport]; exact loading
    · intro tab once
      have verdict : (newSecond s).startVerdict = .finish .tabAbsent :=
        (newSecond_startVerdict s).trans (by simp [State.startVerdict, empty, ejecting, tab])
      exact cued.leaves_served hy due tuner (startPoint_finishes cued.active first shut once verdict _) (.inl rfl) ⟨rfl, rfl⟩
    · intro tab dew
      have verdict : (newSecond s).startVerdict = .defer .dew :=
        (newSecond_startVerdict s).trans (by simp [State.startVerdict, empty, ejecting, tab, dew])
      exact cued.leaves_served hy due tuner (startPoint_defers cued.active first shut verdict _) (.inr ⟨rfl, .inl dew⟩) ⟨rfl, rfl⟩
    · intro tab dew protect
      have verdict : (newSecond s).startVerdict = .defer .fault :=
        (newSecond_startVerdict s).trans (by simp [State.startVerdict, empty, ejecting, tab, dew, protect])
      exact cued.leaves_served hy due tuner (startPoint_defers cued.active first shut verdict _) (.inr ⟨rfl, .inr protect⟩) ⟨rfl, rfl⟩
    · intro tab dew claim
      refine ⟨fun settled long => cued.records_served hy due ⟨claim, tuner⟩ ⟨tab, dew⟩ settled long, fun moving => ?_⟩
      have verdict : (newSecond s).startVerdict = .pass := startVerdict_pass (by rw [transport]; exact empty)
        (by rw [transport]; exact ejecting) (Recordable.of ⟨tab, dew⟩ transport) (by rw [mech, claim]; rfl)
      have away : (newSecond s).inRecPause = false := by
        simp [State.inRecPause, transport, Option.isSome_iff_ne_none, moving]
      have checks : startPoint passChecks (newSecond s) = { newSecond s with sched.active := some a.started } := by
        rw [startPoint_meets shut, meetChecks_pass verdict, passChecks_starts cued.active away]
      obtain ⟨t, ran, time, program, active, mechT, tunerT, deck⟩ := cued.waits_served hy due checks
      exact ⟨t, ran, time, program, ⟨mechT.trans claim, tunerT.trans tuner⟩, deck, active⟩
  case meetings =>
    intro n k hn hk apart only p hp q hq armed carried start length bound
    have starts : StartsNow q (newSecond s) := ⟨armed, carried, start, length⟩
    refine ⟨?_, ?_⟩
    · rintro ⟨stop, tab, dew, mech, tuner⟩ idle armed' carried' start' length' bound' before
      have starts' : StartsNow p (newSecond s) := ⟨armed', carried', start', length'⟩
      obtain ⟨t, ran, time, first, second, claims, pausing, active⟩ :=
        overlaps_served due (ready_free hy stop tab dew mech tuner) idle (hp ▸ hq ▸ only.pair_two hn hk apart) starts' starts
          (pendingRank_lt starts' starts ⟨hn, hk⟩ bound' before)
      exact ⟨t, ran, time, first, second, claims, pausing, _, active, rfl, rfl, rfl⟩
    · intro a ha slot holds lasts later
      have meeting := meeting_newSecond due only hn hk apart hp hq starts ha slot holds lasts later
      have priority : (p.secondOn s).priority = p.priority := by
        obtain ⟨run, fields⟩ := secondOn_fields p s
        rw [fields]
      have transport := newSecond_transport s
      refine ⟨fun lower => meeting.goesOn_served hy due (meeting.overlap (by rw [priority]; exact lower)), ?_⟩
      rintro higher ⟨empty, ejecting, loading⟩
      rw [← priority] at higher
      have shut : (newSecond s).transport.mode ≠ .loading := by rw [transport]; exact loading
      refine ⟨fun busy tab once => ?_, fun busy tab dew => ?_, fun tab dew claims _ => ?_⟩
      · have verdict : (newSecond s).startVerdict = .finish .tabAbsent :=
        (newSecond_startVerdict s).trans (by simp [State.startVerdict, empty, ejecting, tab])
        exact meeting.goesOn_served hy due (meeting.finishes higher busy shut verdict once)
      · have verdict : (newSecond s).startVerdict = .defer .dew :=
        (newSecond_startVerdict s).trans (by simp [State.startVerdict, empty, ejecting, tab, dew])
        exact meeting.goesOn_served hy due (meeting.defers higher busy shut verdict)
      have readyV : PausePath s → Ready (newSecond s) := fun path =>
        (⟨hy, claims.takeable, ⟨tab, dew⟩, path⟩ : Ready s).kept (newSecond_keeps s)
      refine ⟨fun ahead cueing pausing => ?_, fun phase cueing pausing => ?_, fun phase recording settled => ?_⟩
      · have taken := meeting.minute_displaces higher ahead (readyV (.inr (.inr ⟨pausing, empty, ejecting, loading⟩)))
        rw [secondOn_idle (by rw [cueing]; decide)] at taken
        obtain ⟨t, ran, time, first, second, claimed, pause, -, active⟩ := taken.served hy due
        exact ⟨t, ran, time, first, second, claimed, pause, _, active, rfl, rfl⟩
      · have idle : p.secondOn s = p := secondOn_idle (by rw [cueing]; decide)
        rw [idle] at meeting higher
        have busy : ¬ a.ahead := fun ahead => by rw [ahead.1] at phase; cases phase
        have ready := readyV (.inr (.inr ⟨pausing, empty, ejecting, loading⟩))
        have verdict := Meeting.passes ready (claims.kept (newSecond_keeps s)) (by rw [transport]; exact empty)
          (by rw [transport]; exact ejecting)
        obtain ⟨t, ran, time, first, second, claimed, pause, selection, active⟩ :=
          (meeting.minute_takes_over higher busy shut verdict cueing ready).served hy due
        exact ⟨t, ran, time, first, second, claimed, pause, selection, _, active, rfl, rfl⟩
      · have busy : ¬ a.ahead := fun ahead => by rw [ahead.1] at phase; cases phase
        have state : (p.secondOn s).state = .recording := by
          obtain ⟨run, fields⟩ := secondOn_fields p s
          rw [fields]
          exact recording
        exact meeting.changes_over_served hy due higher busy claims ⟨hy, claims.takeable, ⟨tab, dew⟩, .inr (.inl settled)⟩ state settled
  case deferred =>
    intro n hn idle p hp state carried
    refine ⟨fun only ends once c hc => expires_served hd hy due hn only idle hp state carried ends once hc, ?_⟩
    rintro k hk only ⟨stop, tab, dew, mech, tuner⟩ begun last bound - others
    by_cases apart : n = k
    · subst apart
      obtain ⟨-, -, -, -, -, before⟩ := others p hp
      omega
    have inside := due.inside
    have pair : Pair n (some p) k (s.program k) s := hp ▸ only.pair_two hn hk apart
    obtain ⟨t, ran, time, first, second, claims, pausing, active⟩ :=
      picks_served due (ready_free hy stop tab dew mech tuner) mech idle pair state
        (fun ⟨q, hq, armed⟩ => by rw [(others q hq).1] at armed; cases armed) last (fun q hq => (others q hq).2.2.2.2.1)
        fun q hq _ => pickRank_lt (by omega) ⟨hn, hk⟩ bound (others q hq).2.2.1 (others q hq).2.2.2.2.2
    exact ⟨t, ran, time, first, second, claims, pausing, _, active, rfl, rfl, rfl, rfl⟩

end Sys2Proof.Machine
end

section
/-! The speed class of a program (R165, R167), and RECORD given as REC_PAUSE is reached (R165, R168, R172, R173). -/

namespace Sys2Proof.Machine

variable {s t u e : State} {n k m : Nat} {p q r : Program} {a b : Active} {v least : Speed} {d : Nat}

/-! ### The choice of a speed class (R165, R167) -/

/-- FIT takes the smallest class, from a least one on, that holds the seconds needed. -/
theorem fitFrom_least (from_ : least.sigma ≤ v.sigma) (fits : s.fits d v = true)
    (first : ∀ u : Speed, least.sigma ≤ u.sigma → u.sigma < v.sigma → s.fits d u = false) : s.fitFrom least d = (v, false) := by
  have below : ∀ u : Speed, u.sigma < v.sigma → (decide (least.sigma ≤ u.sigma) && s.fits d u) = false := fun u hu => by
    by_cases h : least.sigma ≤ u.sigma
    · simp [first u h hu]
    · simp [h]
  have found : ([Speed.standard, .long, .extended].filter fun v => decide (least.sigma ≤ v.sigma)).find? (s.fits d) = some v := by
    rw [List.find?_filter]
    cases v with
    | standard => simp [from_, fits]
    | long =>
      have standard := below .standard (by decide)
      simp [standard, from_, fits]
    | extended =>
      have standard := below .standard (by decide)
      have long := below .long (by decide)
      simp [standard, long, from_, fits]
  simp only [State.fitFrom, found]

/-- Where none holds them the class is 3, and the tape is short. -/
theorem fitFrom_short (none : ∀ u : Speed, least.sigma ≤ u.sigma → s.fits d u = false) : s.fitFrom least d = (.extended, true) := by
  have missing : ([Speed.standard, .long, .extended].filter fun v => decide (least.sigma ≤ v.sigma)).find? (s.fits d) = Option.none :=
    List.find?_eq_none.2 fun u hu => by simpa using none u (by simpa using (List.mem_filter.1 hu).2)
  simp only [State.fitFrom, missing]

theorem fits_estimate (h : s.fits d v = true) : s.estimate ≠ none := fun e => by simp [State.fits, State.remaining, e] at h

theorem chooseSpeed_pending (fit : p.speedMode = .fit) (h : s.estimate = none) :
    s.chooseSpeed p = { speed := .standard, short := false, pending := true } := by simp [State.chooseSpeed, fit, h]

theorem chooseSpeed_fit (fit : p.speedMode = .fit) (h : s.estimate ≠ none) : s.chooseSpeed p =
    { speed := (s.fitFrom .standard (p.needed s.clock.time)).1, short := (s.fitFrom .standard (p.needed s.clock.time)).2,
      pending := false } := by simp [State.chooseSpeed, fit, h]

/-! ### REC_PAUSE reached (R14, R165) -/

/-- REC_PAUSE has been reached, and no more than the program and the end of the event are to come. -/
structure PauseReached (s e : State) : Prop where
  settled    : SettledIn .recPause e
  recordable : Recordable e
  sequence   : e.transport.resetInFlight = s.transport.resetInFlight
  estimate   : e.estimate = s.estimate
  keeps      : KeepsBut (.pins :: .estimate :: modeParts) s e

theorem pauseReached (target : s.transport.target = some .recPause) (ok : Recordable s) (p : Pins) :
    PauseReached s (checkHeld (enterMode .recPause none (s.withPins p))) := by
  have held := checkHeld_keeps (enterMode .recPause none (s.withPins p))
  have record : (checkHeld (enterMode .recPause none (s.withPins p))).transport = s.transport.reached .recPause none s.now :=
    held.transport.trans (enterMode_transport ..)
  have tape : (enterMode .recPause none (s.withPins p)).tape = { s.tape with spanStart := none } := enterMode_tape_still rfl none _
  exact
    { settled := ⟨by rw [record]; rfl, by rw [record]; rfl, by simp [record, Transport.reached, target]⟩
      recordable := ⟨by rw [record]; exact ok.tab, by rw [record]; exact ok.dew⟩
      sequence := by rw [record]; exact Bool.and_true _ |>.trans (Bool.and_true _) |>.trans (Bool.and_true _)
      estimate := by
        rw [(checkHeld_sent _).2.2]
        simp only [State.estimate, tape]
      keeps := ((withPins_keeps p s).mono (by simp)).trans (((enterMode_keeps ..).mono (by simp [modeParts])).trans
        (held.mono (by simp [modeParts]))) }

/-- The servo lock of a change toward REC_PAUSE reaches it, the program takes it up, and the event ends. -/
theorem servoLock_recPause (hy : Steady s) (idle : NoNavigation s) (change : s.transport.change = some (.servo .recPause))
    (target : s.transport.target = some .recPause) (ok : Recordable s) : ∃ e, PauseReached s e ∧
      ((programAtRecPause e).transport.mode = .recPause →
        exec (.servoLock ⟨false, false⟩) s = .next (endDeckEvent s (programAtRecPause e))) := by
  obtain ⟨e, he⟩ : ∃ e, e = checkHeld (enterMode .recPause none (s.withPins { s.pins with startLeader := false, endLeader := false })) :=
    ⟨_, rfl⟩
  have reached : PauseReached s e := he ▸ pauseReached target ok _
  have navigation : NoNavigation e :=
    ⟨by rw [reached.keeps.goto (by decide)]; exact idle.goto, by rw [reached.keeps.run (by decide)]; exact idle.run⟩
  refine ⟨e, reached, fun still => ?_⟩
  have noLeader : NoLeader (programAtRecPause e).transport.mode ⟨false, false⟩ := by
    rw [still]
    exact ⟨nofun, nofun⟩
  have acts : servoLocked ⟨false, false⟩ s = deckEvent (enterThreadedMode .recPause ⟨false, false⟩) s := by
    simp only [servoLocked, change]
  have units : enterThreadedMode .recPause ⟨false, false⟩ s = programAtRecPause e := by
    have acted : enterThreadedMode .recPause ⟨false, false⟩ s =
        leaderAtMode ⟨false, false⟩ (programAtRecPause (gotoAtMode e)) := he ▸ rfl
    rw [acted, gotoAtMode_idle navigation, leaderAtMode_idle noLeader]
  show Host.Outcome.next (servoLocked ⟨false, false⟩ s) = _
  rw [acts, deckEvent_running hy.running, units]

/-- RECORD is given for the active program that begins with it, as REC_PAUSE is reached (R165, R172, R173). -/
theorem programAtRecPause_begins (ha : e.sched.active = some a)
    (begins : a.phase = .starting ∨ a.phase = .changing ∧ (a.reason = some .takeover ∨ a.reason = some .handOver)) :
    programAtRecPause e = beginRecord e := by
  rcases begins with phase | ⟨phase, reason | reason⟩
  · simp only [programAtRecPause, ha, phase]
  · simp only [programAtRecPause, ha, phase, reason]
  · simp only [programAtRecPause, ha, phase, reason]

/-- After a FIT speed change RECORD is given at the speed to enter, with no mark (R168). -/
theorem programAtRecPause_reenters (ha : e.sched.active = some a) (phase : a.phase = .changing) (reason : a.reason = some .fit)
    (speed : a.speedToEnter = some v) : programAtRecPause e = giveRecord (.timer v none)
      { e with sched.active := some { a with phase := .running, reason := none, speedToEnter := none } } := by
  simp only [programAtRecPause, ha, phase, reason, reenterRecord, speed, Option.getD_some]

/-- RECORD has been given at REC_PAUSE, and the event has ended. -/
structure RecordAsked (v : Speed) (mark : Option Byte) (s t : State) : Prop where
  mode   : t.transport.mode = .recPause
  target : t.transport.target = some .record
  change : t.transport.change = some (.servo .record)
  mech   : t.mech = s.mech
  order  : t.transport.recordOrder = .timer v mark

/-- REC_PAUSE reached gives RECORD for the active program, by its choice of a speed. -/
theorem recPause_begins (hy : Steady s) (idle : NoNavigation s) (change : s.transport.change = some (.servo .recPause))
    (target : s.transport.target = some .recPause) (ok : Recordable s) (ha : s.sched.active = some a) (hp : s.program a.slot = some p)
    (begins : a.phase = .starting ∨ a.phase = .changing ∧ (a.reason = some .takeover ∨ a.reason = some .handOver))
    {c : SpeedChoice} (choice : ∀ e : State, e.estimate = s.estimate → e.clock.time = s.clock.time → e.chooseSpeed p = c) :
    ∃ t, exec (.servoLock ⟨false, false⟩) s = .next t ∧ RecordAsked c.speed p.mark s t ∧
      t.program a.slot = some { p with state := .recording, run := { p.run with shortTape := p.run.shortTape || c.short } } ∧
      t.sched.active = some (a.recording c.pending) ∧
      (p.state ≠ .recording → Announced (.prog a.slot) (programBytes a.slot (t.program a.slot)) t) := by
  obtain ⟨e, reached, acts⟩ := servoLock_recPause hy idle change target ok
  have active : e.sched.active = some a := by rw [reached.keeps.sched (by decide)]; exact ha
  have program : e.program a.slot = some p := (reached.keeps.program _ (by decide)).trans hp
  have power : e.power = s.power := reached.keeps.power (by decide)
  have begun := beginRecord_begun active program reached.settled reached.recordable
  rw [choice e reached.estimate (reached.keeps.time (by decide))] at begun
  have gives := programAtRecPause_begins active begins
  rw [gives] at acts
  have ended := endedFrom_event (b := s) (u := beginRecord e) (.inl hy.sequence)
    (hy.notStopping.of ((begun.keeps.power (by decide)).trans power))
  have deck := ended.keeps.transport
  have held : (endDeckEvent s (beginRecord e)).program a.slot = (beginRecord e).program a.slot := ended.keeps.program _
  refine ⟨_, acts begun.mode, ⟨by rw [deck]; exact begun.mode, by rw [deck]; exact begun.target, by rw [deck]; exact begun.change, ?_,
    by rw [deck]; exact begun.order⟩, held.trans begun.program, by rw [ended.keeps.sched]; exact begun.active, fun other => ?_⟩
  · exact ended.keeps.mech.trans ((begun.keeps.mech (by decide)).trans (reached.keeps.mech (by decide)))
  · rw [held]
    exact ended.told (begun.noted (by rw [power]; exact hy.running) other) (by simp)

/-- REC_PAUSE reached in a FIT speed change gives RECORD at the speed to enter. -/
theorem recPause_reenters (hy : Steady s) (idle : NoNavigation s) (change : s.transport.change = some (.servo .recPause))
    (target : s.transport.target = some .recPause) (ok : Recordable s) (ha : s.sched.active = some a) (hp : s.program a.slot = some p)
    (phase : a.phase = .changing) (reason : a.reason = some .fit) (speed : a.speedToEnter = some v) :
    ∃ t, exec (.servoLock ⟨false, false⟩) s = .next t ∧ RecordAsked v none s t ∧ t.program a.slot = some p ∧
      t.sched.active = some { a with phase := .running, reason := none, speedToEnter := none } := by
  obtain ⟨e, reached, acts⟩ := servoLock_recPause hy idle change target ok
  obtain ⟨w, hw⟩ : ∃ w : State, w = { e with
    sched.active := some { a with phase := .running, reason := none, speedToEnter := none } } := ⟨_, rfl⟩
  have active : e.sched.active = some a := by rw [reached.keeps.sched (by decide)]; exact ha
  have kept : KeepsBut [.sched] e w := hw ▸ withSched_sched_keeps ..
  have given := giveRecord_given (reached.settled.of kept.transport) (reached.recordable.of kept.transport) v none
  rw [programAtRecPause_reenters active phase reason speed, ← hw] at acts
  have power : (giveRecord (.timer v none) w).power = s.power :=
    (given.keeps.power (by decide)).trans (kept.power.trans (reached.keeps.power (by decide)))
  have ended := endedFrom_event (b := s) (u := giveRecord (.timer v none) w) (.inl hy.sequence) (hy.notStopping.of power)
  have deck := ended.keeps.transport
  refine ⟨_, acts given.mode, ⟨by rw [deck]; exact given.mode, by rw [deck]; exact given.target, by rw [deck]; exact given.change, ?_,
    by rw [deck]; exact given.order⟩, ?_, ?_⟩
  · exact ended.keeps.mech.trans ((given.keeps.mech (by decide)).trans (kept.mech.trans (reached.keeps.mech (by decide))))
  · rw [ended.keeps.program _, given.keeps.program _ (by decide), hw]
    exact (reached.keeps.program _ (by decide)).trans hp
  · rw [ended.keeps.sched, given.keeps.sched (by decide), hw]

end Sys2Proof.Machine
end

section
/-! The FIT evaluation at an estimate computation (R168). -/

namespace Sys2Proof.Machine

variable {s t u e w : State} {n k m i : Nat} {p q r : Program} {a b : Active} {v x : Speed} {reel : Reel}

/-! ### A change of the speed class -/

/-- The record of the active program as a FIT speed change begins. -/
def Active.climbing (a : Active) (v : Speed) (time : Nat) : Active :=
  { a with phase := .changing, reason := some .fit, speedToEnter := some v, lastFit := some time }

/-- A FIT speed change has begun between two states. -/
structure SpeedChanging (v : Speed) (a : Active) (s t : State) : Prop where
  active   : t.sched.active = some (a.climbing v s.clock.time)
  programs : ∀ m, t.program m = s.program m
  pausing  : Pausing t

theorem changeSpeed_keeps (v : Speed) (s : State) : KeepsBut (.sched :: stillParts) s (changeSpeed v s) :=
  ((withSched_sched_keeps _ s).mono (by simp)).trans ((steered_giveTarget .recPause _).keeps.mono fun _ h => .tail _ h)

theorem changeSpeed_changes (ha : s.sched.active = some a) (settled : SettledIn .record s) (ok : Recordable s) (v : Speed) :
    SpeedChanging v a s (changeSpeed v s) := by
  obtain ⟨w, hw⟩ : ∃ w : State, w = { s with sched.active := some (a.climbing v s.clock.time) } := ⟨_, rfl⟩
  have kept : KeepsBut [.sched] s w := hw ▸ withSched_sched_keeps ..
  have steered := (steered_giveTarget .recPause w).keeps
  have changed : changeSpeed v s = giveTarget .recPause w := by
    simp only [changeSpeed, ha, Option.map_some, hw]
    rfl
  have pause := pauseHeld_given (.inr (.inl (settled.of kept.transport))) (ok.of kept.transport)
  rw [changed]
  refine ⟨by rw [steered.sched (by decide), hw], fun m => ?_, pause.pausing⟩
  rw [steered.program m (by decide), hw]
  rfl

theorem setShortTape_some (hp : s.program n = some p) :
    setShortTape n s = putProgram n { p with run := { p.run with shortTape := true } } s := by simp only [setShortTape, hp]

theorem setShortTape_keeps (n : Nat) (s : State) : KeepsBut [.sched, .sending] s (setShortTape n s) := by
  unfold setShortTape
  split
  · exact putProgram_keeps ..
  · exact .refl _ _

/-! ### The evaluation -/

theorem evaluateFit_keeps (s : State) : KeepsBut (.sched :: stillParts) s (evaluateFit s) := by
  have short : ∀ n c, KeepsBut (.sched :: stillParts) c (setShortTape n c) := fun n c =>
    (setShortTape_keeps n c).mono (by simp [stillParts])
  unfold evaluateFit
  split
  · next a p v _ _ =>
    split
    · dsimp only
      split
      · have chosen : KeepsBut (.sched :: stillParts) s { s with sched.active := some { a with choicePending := false } } :=
          (withSched_sched_keeps _ s).mono (by simp)
        have marked : ∀ c : Bool, KeepsBut (.sched :: stillParts) s
            (if c then setShortTape a.slot { s with sched.active := some { a with choicePending := false } }
              else { s with sched.active := some { a with choicePending := false } }) := fun c => by
          cases c
          · exact chosen
          · exact chosen.trans (short _ _)
        split
        · exact marked _
        · exact (marked _).trans (changeSpeed_keeps ..)
      · split
        · exact .refl _ _
        · split
          · exact short _ _
          · split
            · exact changeSpeed_keeps ..
            · exact .refl _ _
    · exact .refl _ _
  · exact .refl _ _

/-- A program with FIT records in RECORD, at a class. -/
structure FitRuns (a : Active) (p : Program) (v : Speed) (s : State) : Prop where
  active     : s.sched.active = some a
  program    : s.program a.slot = some p
  fit        : p.speedMode = .fit
  running    : a.phase = .running
  settled    : SettledIn .record s
  recordable : Recordable s
  class_     : s.transport.recordClass = some v

namespace FitRuns

theorem evaluates (h : FitRuns a p v s) : evaluateFit s =
    if a.choicePending then
      let c := s.fitFrom v (p.needed s.clock.time)
      let chosen := { s with sched.active := some { a with choicePending := false } }
      let marked := if c.2 then setShortTape a.slot chosen else chosen
      if c.1 = v then marked else changeSpeed c.1 marked
    else if s.fits (p.needed s.clock.time) v then s
    else if v = .extended then setShortTape a.slot s
    else if a.lastFit.all fun t => decide (t + 60 ≤ s.clock.time) then changeSpeed v.next s
    else s := by
  simp only [evaluateFit, activeProgram_some h.active h.program, h.class_, h.fit, h.running, h.settled.mode, and_self, if_true]

/-- The state as the pending choice is made. -/
theorem chosen (h : FitRuns a p v s) :
    FitRuns { a with choicePending := false } p v { s with sched.active := some { a with choicePending := false } } :=
  ⟨rfl, h.program, h.fit, h.running, h.settled.of, h.recordable.of, h.class_⟩

theorem marks (h : FitRuns a p v s) : (setShortTape a.slot s).program a.slot = some { p with run := { p.run with shortTape := true } } ∧
    (setShortTape a.slot s).sched.active = some a ∧ (setShortTape a.slot s).transport = s.transport := by
  rw [setShortTape_some h.program]
  exact ⟨putProgram_program h.program _, (putProgram_active ..).trans h.active, (putProgram_keeps ..).transport⟩

end FitRuns

/-! ### The reel pulse -/

/-- A reel pulse that makes an estimate computation evaluates FIT. -/
theorem reelPulse_fits (hy : Steady s) (idle : NoNavigation s) (watches : NoWatches s) (due : EstimateDue s reel i)
    (runs : FitRuns a p v s) : ∃ e t, FitRuns a p v e ∧ e.sched = s.sched ∧ e.clock.time = s.clock.time ∧
      exec (.reelPulse reel i) s = .next t ∧ EndedFrom (evaluateFit e) t ∧ t.estimate = e.estimate := by
  obtain ⟨made, refreshed_⟩ := estimateMade due idle
  obtain ⟨e, he⟩ : ∃ e, e = estimateComputation (s.pulseTaken reel i) := ⟨_, rfl⟩
  rw [← he] at made refreshed_
  obtain ⟨x, y, transport⟩ := made.transport
  have none : NoWatches e := by
    intro w hw
    rw [made.nav] at hw
    exact watches w hw
  have runsE : FitRuns a p v e :=
    { active := by rw [made.keeps.sched]; exact runs.active
      program := (made.keeps.program _).trans runs.program
      fit := runs.fit
      running := runs.running
      settled := ⟨by rw [transport]; exact runs.settled.mode, by rw [transport]; exact runs.settled.change,
        by rw [transport]; exact runs.settled.target⟩
      recordable := ⟨by rw [transport]; exact runs.recordable.tab, by rw [transport]; exact runs.recordable.dew⟩
      class_ := by rw [transport]; exact runs.class_ }
  have acts := exec_reelPulse hy.running due.cassette reel i
  rw [due.refreshes, refreshed_, evaluateRemain_idle none] at acts
  have kept := evaluateFit_keeps e
  have ended := endedFrom_event (b := s) (u := evaluateFit e) (.inl hy.sequence)
    (hy.notStopping.of ((kept.power (by decide)).trans made.keeps.power))
  have estimate : (evaluateFit e).estimate = e.estimate := by
    obtain ⟨cls, -, -, -, -, fraction, -⟩ := kept.same .estimate (by decide)
    simp only [State.estimate, cls, fraction]
  exact ⟨e, _, runsE, made.keeps.sched, made.keeps.time, acts, ended, ended.estimate.trans estimate⟩

/-! ### What the evaluation leaves (R168) -/

theorem fits_congr (h : t.estimate = s.estimate) (d : Nat) (v : Speed) : t.fits d v = s.fits d v := by
  simp only [State.fits, remaining_congr h]

theorem next_of_sigma (h : x.sigma = v.sigma + 1) : v.next = x := by
  cases v <;> cases x <;> simp_all [Speed.sigma, Speed.next]

/-- The transport of the event's end is that of an evaluation that gives no target. -/
theorem EndedFrom.no_target (ended : EndedFrom u t) (settled : SettledIn .record u) : t.transport.target = none := by
  rw [ended.keeps.transport]
  exact settled.target

theorem SpeedChanging.ended (h : SpeedChanging v a s u) (ended : EndedFrom u t) :
    Pausing t ∧ t.sched.active = some (a.climbing v s.clock.time) :=
  ⟨h.pausing.of ended.keeps.transport, by rw [ended.keeps.sched]; exact h.active⟩

namespace FitRuns

/-- With the choice made, a class that no longer holds the seconds needed gives way to the next, once in 60 s; class 3 marks the tape
short. -/
theorem keeps_class (h : FitRuns a p v e) (ended : EndedFrom (evaluateFit e) t) (estimate : t.estimate = e.estimate)
    (made : a.choicePending = false) :
    (t.fits (p.needed e.clock.time) v = true → t.sched = e.sched ∧ t.transport.target = none) ∧
    (t.fits (p.needed e.clock.time) v = false → v = .extended →
      t.program a.slot = some { p with run := { p.run with shortTape := true } } ∧ t.sched.active = some a ∧ t.transport.target = none) ∧
    (t.fits (p.needed e.clock.time) v = false → v ≠ .extended →
      (a.lastFit.any (fun c => decide (e.clock.time < c + 60)) = true → t.sched = e.sched ∧ t.transport.target = none) ∧
      (a.lastFit.all (fun c => decide (c + 60 ≤ e.clock.time)) = true → t.program a.slot = some p ∧
        ∀ x : Speed, x.sigma = v.sigma + 1 → Pausing t ∧ t.sched.active = some (a.climbing x e.clock.time))) := by
  have evaluated := h.evaluates
  simp only [made, Bool.false_eq_true, if_false] at evaluated
  simp only [fits_congr estimate]
  refine ⟨fun fits => ?_, fun short top => ?_, fun short below => ⟨fun recent => ?_, fun rested => ?_⟩⟩
  · rw [evaluated, if_pos fits] at ended
    exact ⟨ended.keeps.sched, ended.no_target h.settled⟩
  · rw [evaluated, if_neg (by simp [short]), if_pos top] at ended
    obtain ⟨program, active, transport⟩ := h.marks
    exact ⟨(ended.keeps.program _).trans program, by rw [ended.keeps.sched]; exact active, ended.no_target (h.settled.of transport)⟩
  · have early : ¬ (a.lastFit.all fun c => decide (c + 60 ≤ e.clock.time)) = true := by
      cases last : a.lastFit with
      | none => simp [last] at recent
      | some c => simpa [last] using recent
    rw [evaluated, if_neg (by simp [short]), if_neg below, if_neg early] at ended
    exact ⟨ended.keeps.sched, ended.no_target h.settled⟩
  · rw [evaluated, if_neg (by simp [short]), if_neg below, if_pos rested] at ended
    have changes := changeSpeed_changes h.active h.settled h.recordable v.next
    refine ⟨(ended.keeps.program _).trans ((changes.programs _).trans h.program), fun x hx => ?_⟩
    rw [← next_of_sigma hx]
    exact changes.ended ended

/-- A pending choice takes the smallest class at or above the present one that holds the seconds needed, or class 3 with a short tape. -/
theorem takes_class (h : FitRuns a p v e) (ended : EndedFrom (evaluateFit e) t) (estimate : t.estimate = e.estimate)
    (pending : a.choicePending = true) :
    (∀ u : Speed, v.sigma ≤ u.sigma → t.fits (p.needed e.clock.time) u = true →
      (∀ x : Speed, v.sigma ≤ x.sigma → x.sigma < u.sigma → t.fits (p.needed e.clock.time) x = false) →
      t.program a.slot = some p ∧ (u = v → t.sched.active = some { a with choicePending := false } ∧ t.transport.target = none) ∧
        (u ≠ v → Pausing t ∧ t.sched.active = some (Active.climbing { a with choicePending := false } u e.clock.time))) ∧
    ((∀ u : Speed, v.sigma ≤ u.sigma → t.fits (p.needed e.clock.time) u = false) →
      t.program a.slot = some { p with run := { p.run with shortTape := true } } ∧
        (v = .extended → t.sched.active = some { a with choicePending := false } ∧ t.transport.target = none) ∧
        (v ≠ .extended →
          Pausing t ∧ t.sched.active = some (Active.climbing { a with choicePending := false } .extended e.clock.time))) := by
  have evaluated := h.evaluates
  simp only [pending, if_true] at evaluated
  simp only [fits_congr estimate]
  have chosen := h.chosen
  refine ⟨fun u above fits first => ?_, fun short => ?_⟩
  · simp only [fitFrom_least above fits first, Bool.false_eq_true, if_false] at evaluated
    by_cases same : u = v
    · rw [evaluated, if_pos same] at ended
      exact ⟨(ended.keeps.program _).trans h.program,
        fun _ => ⟨by rw [ended.keeps.sched], ended.no_target chosen.settled⟩, fun other => absurd same other⟩
    · rw [evaluated, if_neg same] at ended
      have changes := changeSpeed_changes chosen.active chosen.settled chosen.recordable u
      exact ⟨(ended.keeps.program _).trans ((changes.programs _).trans h.program), fun e => absurd e same, fun _ => changes.ended ended⟩
  · simp only [fitFrom_short short, if_true] at evaluated
    obtain ⟨program, active, transport⟩ := chosen.marks
    by_cases top : v = .extended
    · rw [evaluated, if_pos top.symm] at ended
      exact ⟨(ended.keeps.program _).trans program, fun _ => ⟨by rw [ended.keeps.sched]; exact active,
        ended.no_target (chosen.settled.of transport)⟩, fun other => absurd top other⟩
    · rw [evaluated, if_neg (Ne.symm top)] at ended
      have changes := changeSpeed_changes active (chosen.settled.of transport) (chosen.recordable.of transport) .extended
      have time : (setShortTape a.slot { e with sched.active := some { a with choicePending := false } }).clock.time = e.clock.time :=
        (setShortTape_keeps ..).time
      have ends := changes.ended ended
      rw [time] at ends
      exact ⟨(ended.keeps.program _).trans ((changes.programs _).trans program), fun e => absurd e top, fun _ => ends⟩

end FitRuns

end Sys2Proof.Machine
end

section
/-! A protection that meets the active program (R164, R169, R170). -/

namespace Sys2Proof.Machine

variable {b s t u v x : State} {n k m at_ : Nat} {p q r : Program} {a : Active} {c : StopCause}

/-! ### What the taking of the claim does to a program -/

/-- The end leader finishes a recording. -/
theorem timerPreempted_finishes (ha : x.sched.active = some a) (hp : x.program a.slot = some p) (recording : p.state = .recording)
    (once : p.pattern = .once) : timerPreempted (.program n) .leaderEnd x =
      applyRules (releaseTimerTuner (putProgram a.slot (p.short .tapeEnd) (dropActive x))) := by
  simp only [timerPreempted, activeProgram_some ha hp, recording, and_self, if_true, finishActive_once ha hp once]

/-- Any other protection defers a recording, and any a program that it may defer. -/
theorem timerPreempted_defers {d : Protection} (ha : x.sched.active = some a) (hp : x.program a.slot = some p)
    (other : ¬ (p.state = .recording ∧ d = .leaderEnd)) (defers : p.state = .recording ∨ a.deferrable d = true) :
    timerPreempted (.program n) d x =
      applyRules (releaseTimerTuner (putProgram a.slot (p.putOff d.deferralCause) (dropActive x))) := by
  simp only [timerPreempted, activeProgram_some ha hp, if_neg other, if_pos defers, deferActive_some ha hp]

/-- One cued up ahead waits for the mechanism. -/
theorem timerPreempted_waits {d : Protection} (ha : x.sched.active = some a) (hp : x.program a.slot = some p)
    (cueing : p.state = .cueing) (ahead : a.ahead) : timerPreempted (.program n) d x =
      { x with sched.active := some { a with mechWait := true } } := by
  obtain ⟨phase, late, pointCome⟩ := ahead
  have stays : a.deferrable d = false := by simp [Active.deferrable, phase, late, pointCome]
  simp [timerPreempted, activeProgram_some ha hp, cueing, stays]

/-- A program past its start point is one that a protection defers. -/
theorem deferrable_of (h : a.phase = .starting ∨ a.late = true ∧ a.pointCome = true) (d : Protection) : a.deferrable d = true := by
  rcases h with phase | ⟨late, pointCome⟩
  · simp [Active.deferrable, phase]
  · simp [Active.deferrable, late, pointCome]

theorem protection_leaderEnd_iff : c.protection = .leaderEnd ↔ c = .leaderEnd := by cases c <;> simp [StopCause.protection]

/-! ### The stop of a threaded mode -/

/-- The program leaves the deck as the claim is taken, and gives up the TUNER claim. -/
structure Ousted (c : Protection) (n : Nat) (q : Program) (s t : State) : Prop where
  program : t.program n = some q
  active  : t.sched.active = none
  mech    : t.mech = .protect c
  tunerOf : t.tunerOf = .free
  keeps   : KeepsBut takenParts s t

theorem ousted (pair : Pair n (some p) 0 none v) (claims : ClaimedFor n v) (state : q.state ≠ .armed)
    (taken : ∀ x, x.sched = v.sched → timerPreempted (.program n) c.protection x =
      applyRules (releaseTimerTuner (putProgram n q (dropActive x)))) : Ousted c.protection n q v (takeProtect c.protection v) := by
  obtain ⟨x, hx⟩ : ∃ x, x = setMech (.protect c.protection) v := ⟨_, rfl⟩
  have kx : KeepsBut [.mech] v x := hx ▸ setMech_keeps ..
  obtain ⟨w, hw⟩ : ∃ w, w = putProgram n q (dropActive x) := ⟨_, rfl⟩
  have gone : Vacated n q x w := hw ▸ vacated ((kx.program n).trans pair.first) q
  obtain ⟨free, released⟩ := releaseTimerTuner_free (s := w) (by rw [gone.keeps.tunerOf, kx.tunerOf, claims.2]; rfl)
  have mech : (releaseTimerTuner w).mech = .protect c.protection := by rw [released.mech, gone.keeps.mech, hx]; rfl
  have pairW : Pair n (some q) 0 none (releaseTimerTuner w) := (gone.pair (pair.of kx.sched)).of released.sched
  have rests : applyRules (releaseTimerTuner w) = releaseTimerTuner w :=
    applyRules_protected (pairW.pendingList_none (by simpa using state) (by simp)) (by rw [mech]; rfl)
  have made : takeProtect c.protection v = releaseTimerTuner w := by
    rw [takeProtect_timer claims.1, ← hx, taken x kx.sched, ← hw, rests]
  rw [made]
  exact
    { program := pairW.first
      active := by rw [released.sched]; exact gone.active
      mech := mech
      tunerOf := free
      keeps := (kx.mono (by simp [takenParts])).trans ((gone.keeps.mono (by simp [takenParts])).trans
        (released.mono (by simp [takenParts]))) }

/-- A protection stop has begun, and the program has left the deck. -/
structure StoppedWithout (c : StopCause) (n : Nat) (q : Program) (t : State) : Prop where
  stopped : ProtectionStopped c t.now t
  program : t.program n = some q
  active  : t.sched.active = none
  tunerOf : t.tunerOf = .free

theorem stoppedWithout (m : Met at_ s v) (hy : Steady s) (still : b.transport.resetInFlight = false) (h : Threaded s)
    (out : Ousted c.protection n q v (takeProtect c.protection v)) : StoppedWithout c n q (endDeckEvent b (protectionStop c v)) := by
  obtain ⟨stopped, kept, -, -⟩ := protection_stops (b := b) m h hy.running hy.notStopping still out.keeps out.mech
  exact ⟨stopped.time ▸ stopped, (kept.program n).trans out.program, by rw [kept.sched]; exact out.active, kept.tunerOf.trans out.tunerOf⟩

/-- The claims and the table as a protection meets the active program. -/
structure Holds (n : Nat) (a : Active) (p : Program) (s : State) : Prop where
  pair   : Pair n (some p) 0 none s
  claims : ClaimedFor n s
  active : s.sched.active = some a
  slot   : a.slot = n

namespace Holds

theorem kept {l : List Part} (h : Holds n a p s) (kept : KeepsBut l s t) (hs : Part.sched ∉ l := by decide)
    (hm : Part.mech ∉ l := by decide) (ht : Part.tunerOf ∉ l := by decide) : Holds n a p t :=
  ⟨h.pair.of (kept.sched hs), h.claims.kept kept hm ht, by rw [kept.sched hs]; exact h.active, h.slot⟩

theorem program (h : Holds n a p s) : s.program a.slot = some p := h.slot ▸ h.pair.first

theorem finishes (h : Holds n a p v) (recording : p.state = .recording) (once : p.pattern = .once) :
    Ousted .leaderEnd n (p.short .tapeEnd) v (takeProtect .leaderEnd v) :=
  ousted (c := .leaderEnd) h.pair h.claims (by simp [Program.short]) fun x hx => h.slot ▸
    timerPreempted_finishes (by rw [hx]; exact h.active) ((program_of_sched hx _).trans h.program) recording once

theorem defers (h : Holds n a p v) (c : StopCause) (other : c ≠ .leaderEnd)
    (past : p.state = .recording ∨ a.phase = .starting ∨ a.late = true ∧ a.pointCome = true) :
    Ousted c.protection n (p.putOff c.protection.deferralCause) v (takeProtect c.protection v) :=
  ousted h.pair h.claims (by simp [Program.putOff]) fun x hx => h.slot ▸
    timerPreempted_defers (by rw [hx]; exact h.active) ((program_of_sched hx _).trans h.program)
      (fun e => other (protection_leaderEnd_iff.1 e.2)) (past.imp id fun e => deferrable_of e _)

/-- One cued up ahead keeps the deck, and waits for the mechanism. -/
theorem waits (h : Holds n a p v) (c : Protection) (cueing : p.state = .cueing) (ahead : a.ahead) : takeProtect c v =
    { setMech (.protect c) v with sched := { v.sched with active := some { a with mechWait := true } } } := by
  have kx : KeepsBut [.mech] v (setMech (.protect c) v) := setMech_keeps ..
  rw [takeProtect_timer h.claims.1, timerPreempted_waits (by rw [kx.sched]; exact h.active) ((kx.program _).trans h.program) cueing ahead,
    kx.sched]

end Holds

/-! ### The events -/

theorem SettledIn.threaded {mode : Mode} (h : SettledIn mode s) (threaded : mode.threaded = true) : Threaded s :=
  (h.stands threaded).threaded

/-- The end leader stops the recording, which finishes (R22, R169). -/
theorem leaderSeen_finishes (hy : Steady s) (h : Holds n a p s) (settled : SettledIn .record s) (recording : p.state = .recording)
    (once : p.pattern = .once) : ∃ t, exec (.leaderSeen .endLeader) s = .next t ∧ StoppedWithout .leaderEnd n (p.short .tapeEnd) t := by
  obtain ⟨b, v, acts, still, kept, -, met⟩ := leader_met (l := .endLeader) hy.running hy.sequence (by rw [settled.mode]; rfl)
  exact ⟨_, acts, stoppedWithout met hy still (settled.threaded rfl) ((h.kept kept).finishes recording once)⟩

/-- Dew stops the tape, and defers the program (R21, R170). -/
theorem dewSeen_defers (hy : Steady s) (h : Holds n a p s) (threaded : Threaded s) (dry : s.transport.dew = false)
    (past : p.state = .recording ∨ a.phase = .starting ∨ a.late = true ∧ a.pointCome = true) :
    ∃ t, exec (.dewSensorChange true) s = .next t ∧ StoppedWithout .dew n (p.putOff .dew) t := by
  obtain ⟨b, v, acts, still, kept, met⟩ := dew_met hy.running hy.sequence threaded dry
  exact ⟨_, acts, stoppedWithout met hy still threaded ((h.kept kept).defers .dew (by decide) past)⟩

/-- The servo lost for 1.0 s stops the tape, and defers the program (R14, R170). -/
theorem servoTimeout_defers (hy : Steady s) (idle : NoNavigation s) (h : Holds n a p s) (settled : SettledIn .record s) {since : Nat}
    (lost : s.transport.lockLostAt = some since) (now : s.now ≤ since + seconds 1)
    (past : p.state = .recording ∨ a.phase = .starting ∨ a.late = true ∧ a.pointCome = true) :
    ∃ t, exec .servoTimeout s = .next t ∧ StoppedWithout .servo n (p.putOff .fault) t := by
  have acts : exec .servoTimeout s = .next (endDeckEvent s (protectionStop .servo (leapTo (since + seconds 1) s))) := by
    rw [← timerEvent_running hy.running, ← servoLimit_lost settled.change lost]
    rfl
  exact ⟨_, acts, stoppedWithout (met_leap now idle) hy hy.sequence (settled.threaded rfl)
    ((h.kept (leapTo_keeps ..)).defers .servo (by decide) past)⟩

/-- Dew in STOP takes no claim; the program past its start point is deferred all the same (R170). -/
theorem dewSeen_defersAtRest (hy : Steady s) (h : Holds n a p s) (settled : SettledIn .stop s) (dry : s.transport.dew = false)
    (past : a.phase = .starting ∨ a.late = true ∧ a.pointCome = true) :
    ∃ t, exec (.dewSensorChange true) s = .next t ∧ t.program n = some (p.putOff .dew) ∧ t.sched.active = none ∧ t.mech = .free ∧
      t.tunerOf = .free := by
  obtain ⟨b, hb⟩ : ∃ b, b = s.withPins { s.pins with dew := true } := ⟨_, rfl⟩
  obtain ⟨d, hd⟩ : ∃ d, d = damp b := ⟨_, rfl⟩
  have kept : KeepsBut [.pins, .transport, .sending] s d := hd ▸ hb ▸ (met_damp _ s).2
  have deck : d.transport = { s.transport with dew := true, drySince := none } := by rw [hd, damp_transport, hb]; rfl
  have hd' := h.kept kept
  have left : Left n (p.putOff .dew) d (releaseTimer (putProgram n (p.putOff .dew) (dropActive d))) :=
    leaves hd'.pair.first (by rw [hd'.claims.2]; rfl) _
  have set : dewReported true b = programAtDew d := by
    have resting : (d.transport.mode.threaded || d.servoInFlight || d.transport.mode == .threading) = false := by
      simp [State.servoInFlight, deck, settled.mode, settled.change, Mode.threaded]
    have set : dewReported true b = if d.transport.mode.threaded || d.servoInFlight || d.transport.mode == .threading
        then protectionStop .dew d else programAtDew d := by
      have flag : b.transport.dew = false := by rw [hb]; exact dry
      simp only [dewReported, flag, if_true, Bool.false_eq_true, if_false, hd]
      rfl
    rw [set, resting]
    rfl
  have acted : programAtDew d = releaseTimer (putProgram n (p.putOff .dew) (dropActive d)) := by
    have deferred := deferActive_some hd'.active hd'.program .dew
    rw [h.slot] at deferred
    simp only [programAtDew, hd'.active, deferrable_of past, if_true, deferred]
    exact left.rests hd'.pair (.inr ⟨rfl, .inl (by rw [deck])⟩)
  have acts : exec (.dewSensorChange true) s =
      .next (endDeckEvent b (releaseTimer (putProgram n (p.putOff .dew) (dropActive d)))) := by
    rw [← acted, ← set, hb]
    exact congrArg _ (deckEvent_running (s := s.withPins { s.pins with dew := true }) hy.running _)
  have ended := endedFrom_event (b := b) (u := releaseTimer (putProgram n (p.putOff .dew) (dropActive d)))
    (.inl (by rw [hb]; exact hy.sequence)) (hy.notStopping.of (left.keeps.power.trans kept.power))
  refine ⟨_, acts, (ended.keeps.program n).trans left.program, by rw [ended.keeps.sched]; exact left.active, ?_,
    ended.keeps.tunerOf.trans left.tunerOf⟩
  rw [ended.keeps.mech, left.mech, hd'.claims.1]
  rfl

/-- Dew stops the tape under a program cued up ahead, which waits for the mechanism (R170). -/
theorem dewSeen_waits (hy : Steady s) (h : Holds n a p s) (threaded : Threaded s) (dry : s.transport.dew = false)
    (cueing : p.state = .cueing) (ahead : a.ahead) :
    ∃ t, exec (.dewSensorChange true) s = .next t ∧ ProtectionStopped .dew t.now t ∧ t.program n = some p ∧
      t.sched.active = some { a with mechWait := true } ∧ t.tunerOf = s.tunerOf := by
  obtain ⟨b, v, acts, still, kept, met⟩ := dew_met hy.running hy.sequence threaded dry
  have holds := h.kept kept
  have taken := holds.waits (StopCause.protection .dew) cueing ahead
  have claim : KeepsBut [.mech] v (setMech (.protect (StopCause.protection .dew)) v) := setMech_keeps ..
  have keeps : KeepsBut [.mech, .sched] v (takeProtect (StopCause.protection .dew) v) := by
    rw [taken]
    exact (claim.mono (by simp)).trans ((withSched_sched_keeps _ _).mono (by simp))
  obtain ⟨stopped, after, -, -⟩ := protection_stops (b := b) (c := .dew) met threaded hy.running hy.notStopping still
    (keeps.mono (by simp [takenParts])) (by rw [taken]; rfl)
  refine ⟨_, acts, stopped.time ▸ stopped, ?_, by rw [after.sched, taken], ?_⟩
  · rw [after.program n, taken]
    exact holds.pair.first
  · exact after.tunerOf.trans (keeps.tunerOf.trans kept.tunerOf)

end Sys2Proof.Machine
end

section
/-! A second of a recording (R166), and the end of a window: the end action, or the deck handed on (R173, R176, R177). -/

namespace Sys2Proof.Machine

variable {s t u v w : State} {n k m : Nat} {p q r : Program} {x y : Option Program} {a b : Active} {c : DeferralCause}

/-! ### A second (R166) -/

/-- A second that begins no minute is counted, and that is all. -/
theorem second_served (hy : Steady s) (source : s.clock.source = .crystal) (phase : s.clock.sinceBoundary ≤ 12288000)
    (inside : s.clock.time + 1 < 3155760000) (within : (s.clock.time + 1) % 60 ≠ 0) :
    ∃ t, exec .secondBoundary s = .next t ∧ EndedFrom (newSecond s) t :=
  ⟨_, by rw [secondBoundary_served hy source phase inside, if_neg within],
    endedFrom_event (.inl hy.sequence) (hy.notStopping.of (newSecond_keeps s).power)⟩

/-! ### The occurrence ends (R151, R176) -/

/-- The record of a program whose window ends while it is RECORDING. -/
def Program.ended (p : Program) (a : Active) : Program :=
  { p with
    state := .done, deferral := none, outcome := some (if p.run.deferrals = 0 then .complete else .truncated)
    cause := if p.run.deferrals = 0 then none else some ((a.latest.map (·.outcomeCause)).getD .clockSet) }

theorem finishSlot_once (hp : s.program n = some p) (once : p.pattern = .once) (o : Outcome) (c : Option OutcomeCause) :
    finishSlot n o c s = putProgram n { p with state := .done, deferral := none, outcome := some o, cause := c } s := by
  simp only [finishSlot, hp, finished_once once]

/-- The window of the active program, which records, ends at the present minute. -/
structure WindowEnds (n : Nat) (a : Active) (p : Program) (s : State) : Prop where
  program   : s.program n = some p
  active    : s.sched.active = some a
  slot      : a.slot = n
  recording : p.state = .recording
  ends      : p.windowEnd = s.clock.time
  once      : p.pattern = .once

theorem WindowEnds.hands_on (h : WindowEnds n a p s) :
    endOccurrence s = rulesIfFree (handOn n p.endAction (putProgram n (p.ended a) (dropActive s))) := by
  have holds : (dropActive s).program n = some p := h.program
  have program : s.program a.slot = some p := h.slot ▸ h.program
  simp only [endOccurrence, activeProgram_some h.active program, h.ends, h.recording, if_true, h.slot]
  split
  · next kept => rw [finishSlot_once holds h.once, Program.ended, if_pos kept, if_pos kept]
  · next cut => rw [finishSlot_once holds h.once, Program.ended, if_neg cut, if_neg cut]

theorem secondOn_ended (p : Program) (a : Active) (s : State) : (p.secondOn s).ended a = { p.secondOn s with
    state := .done, deferral := none, outcome := some (if p.run.deferrals = 0 then .complete else .truncated)
    cause := if p.run.deferrals = 0 then none else some ((a.latest.map (·.outcomeCause)).getD .clockSet) } := by
  have deferrals : (p.secondOn s).run.deferrals = p.run.deferrals := by unfold Program.secondOn; split <;> rfl
  rw [Program.ended, deferrals]

theorem windowEnds_newSecond (hp : s.program n = some p) (ha : s.sched.active = some a) (slot : a.slot = n)
    (recording : p.state = .recording) (ends : (p.next + p.duration) * 60 = s.clock.time + 1) (once : p.pattern = .once) :
    WindowEnds n a (p.secondOn s) (newSecond s) := by
  obtain ⟨run, fields⟩ := secondOn_fields p s
  subst slot
  refine ⟨newSecond_program ha hp, (newSecond_active s).trans ha, rfl, ?_, ?_, ?_⟩ <;> rw [fields]
  exacts [recording, ends, once]

/-! ### The end action (R177) -/

/-- An end action has begun between two states. -/
structure Ending (n : Nat) (e : EndAction) (s t : State) : Prop where
  active    : t.sched.active = s.sched.active
  endAction : t.sched.endAction = some (n, e)
  programs  : ∀ m, t.program m = s.program m
  mech      : t.mech = .timer (.endAction n)
  tunerOf   : t.tunerOf = .timer (.endAction n)
  given     : Given e.target s t
  keeps     : KeepsBut (.sched :: .mech :: .tunerOf :: stillParts) s t

/-- From RECORD no end action is at its end already. -/
theorem beginEndAction_begins (settled : SettledIn .record s) (n : Nat) (e : EndAction) : Ending n e s (beginEndAction n e s) := by
  obtain ⟨x, hx⟩ : ∃ x : State, x = { s with sched.endAction := some (n, e) } := ⟨_, rfl⟩
  obtain ⟨w, hw⟩ : ∃ w, w = setTunerClaim (.timer (.endAction n)) (setMech (.timer (.endAction n)) x) := ⟨_, rfl⟩
  have kx : KeepsBut [.sched] s x := hx ▸ withSched_sched_keeps ..
  have claimed : KeepsBut [.mech, .tunerOf, .sending] x w :=
    hw ▸ ((setMech_keeps _ x).mono (by simp)).trans ((setTunerClaim_keeps ..).mono (by simp))
  have kw : KeepsBut [.sched, .mech, .tunerOf, .sending] s w := (kx.mono (by simp)).trans (claimed.mono (by simp))
  have mode : e.target ≠ .record := by cases e <;> decide
  have away : w.endActionReached e = false := by
    simp [State.endActionReached, kw.transport, settled.mode, mode.symm]
  have begun : beginEndAction n e s = giveTarget e.target w := by
    simp only [beginEndAction]
    rw [← hx, ← hw, away]
    rfl
  have stands : StandsThreaded s := settled.stands rfl
  have given := given_of_threaded (stands.of kw.transport) e.target_asked (by rw [kw.transport, settled.mode]; exact mode.symm)
  have steered := (steered_giveTarget e.target w).keeps
  have sched : (giveTarget e.target w).sched = x.sched := (steered.sched (by decide)).trans claimed.sched
  rw [begun]
  refine ⟨by rw [sched, hx], by rw [sched, hx], fun m => ?_, ?_, ?_, ⟨given.target, ?_, ?_⟩, ?_⟩
  · rw [program_of_sched sched, hx]
    rfl
  · rw [steered.mech (by decide), hw, setTunerClaim_mech]
    rfl
  · rw [steered.tunerOf (by decide), hw, setTunerClaim_tunerOf]
  · rw [given.change, kw.transport]
  · rw [given.mode, kw.transport]
  · exact (kw.mono (by simp [stillParts])).trans (steered.mono (by simp +contextual))

/-- The only program that can ask for the deck has ended: its end action begins, and the minute does no more. -/
theorem WindowEnds.minute_ends (h : WindowEnds n a p s) (pair : Pair n (some p) 0 none s) (settled : SettledIn .record s) :
    ∃ w, Vacated n (p.ended a) s w ∧ Ending n p.endAction w (minuteEvent s) := by
  obtain ⟨w, hw⟩ : ∃ w, w = putProgram n (p.ended a) (dropActive s) := ⟨_, rfl⟩
  have gone : Vacated n (p.ended a) s w := hw ▸ vacated h.program _
  have pairW := gone.pair pair
  have done : (p.ended a).state = .done := rfl
  have pending : w.pendingList = [] := pairW.pendingList_none (by simp [done]) (by simp)
  have deferred : w.slotsIn .deferred = [] := pairW.slots_none (by decide) (by simp [done]) (by simp)
  have ending := beginEndAction_begins (settled.of gone.keeps.transport) n p.endAction
  obtain ⟨u, hu⟩ : ∃ u, u = beginEndAction n p.endAction w := ⟨_, rfl⟩
  rw [← hu] at ending
  have handed : handOn n p.endAction w = u := by
    rw [hu]
    simp [handOn, pending, expireDeferred, deferred, State.deferredByPick]
  have pairU : Pair n (some (p.ended a)) 0 none u := pairW.congr ending.programs
  have free : u.sched.active = none := ending.active.trans gone.active
  have rests : applyRules u = u := applyRules_none (pairU.pendingList_none (by simp [done]) (by simp))
    (.inr (pairU.slots_none (by decide) (by simp [done]) (by simp)))
  have met : meetStarters (endOccurrence s) = u := by
    rw [h.hands_on, ← hw, handed, rulesIfFree_free free, rests,
      meetStarters_none free (starting_nil (pairU.pendingList_none (by simp [done]) (by simp)))]
  have last : DeferredLast u := pairU.deferredLast (fun r hr deferred => by cases hr; cases deferred) (by simp)
  exact ⟨w, gone, by rw [minuteEvent_free met last, rests]; exact ending⟩

/-! ### The deck handed on (R173) -/

/-- A program that takes the deck as the window of another ends keeps it for the minute. -/
theorem WindowEnds.minute_hands (h : WindowEnds n a p s) (pair : Pair n (some p) k (some q) s)
    (handed : handOn n p.endAction (putProgram n (p.ended a) (dropActive s)) = u) (active : u.sched.active = some b) (slot : b.slot = k)
    (second : u.program k = some r) (others : ∀ m, m ≠ k → u.program m = (putProgram n (p.ended a) (dropActive s)).program m)
    (state : r.state = .cueing ∨ r.state = .recording) (later : b.ahead → r.windowStart ≠ u.clock.time) :
    u.program n = some (p.ended a) ∧ minuteEvent s = u := by
  have gone := vacated h.program (p.ended a)
  have pairW := gone.pair pair
  have pairU : Pair n (some (p.ended a)) k (some r) u :=
    ⟨(others n pair.apart).trans pairW.first, second, pair.apart, pair.inside, fun m z hn hk hz =>
      pairW.others m z hn hk (others m hk ▸ hz)⟩
  have done : (p.ended a).state = .done := rfl
  have pending : u.pendingList = [] := pairU.pendingList_none (by simp [done]) (by rcases state with e | e <;> simp [e])
  have met : meetStarters (endOccurrence s) = u := by
    rw [h.hands_on, handed, rulesIfFree_active active, meetStarters_waits active (slot ▸ second) later (starting_nil pending)]
  have last : DeferredLast u := pairU.deferredLast (fun z hz deferred => by cases hz; cases deferred)
    fun z hz deferred => by cases hz; rcases state with e | e <;> rw [e] at deferred <;> cases deferred
  exact ⟨pairU.first, minuteEvent_active met last active⟩

/-- A slot takes the deck in RECORD by a hand-over: it is RECORDING in CHANGING, REC_PAUSE on its way. -/
theorem handOver_changes (ready : Ready s) (settled : SettledIn .record s) (hq : s.program k = some q) (late : Bool)
    (latest : Option DeferralCause) : ∃ w, MadeActive k (.fresh k .preparing late false latest) q s w ∧
      ChangedOver .handOver (.fresh k .preparing late false latest) q.cued w (handOver k late latest s) := by
  obtain ⟨w, hw⟩ : ∃ w, w = makeActive k (.fresh k .preparing late false latest) s := ⟨_, rfl⟩
  have made : MadeActive k (.fresh k .preparing late false latest) q s w :=
    hw ▸ makeActive_made hq ready.takeable ready.steady.sequence rfl
  have transport := made.keeps.transport
  have settledW : SettledIn .record w := settled.of transport
  have okW : Recordable w := ready.recordable.of transport
  have verdict : w.startVerdict = .pass := startVerdict_pass (by rw [settledW.mode]; decide) (by rw [settledW.mode]; decide) okW
    made.claims.unprotected
  have handed : handOver k late latest s = changeOver .handOver w := by
    rw [handOver, ← hw, startPoint_meets (by rw [settledW.mode]; decide), meetChecks_pass verdict]
  exact ⟨w, made, handed ▸ changeOver_changed made.active made.program settledW okW .handOver⟩

theorem handOn_now (h : w.pendingList.head? = some k) (hq : w.program k = some q) (carried : q.carried = false)
    (now : q.windowStart = w.clock.time) (n : Nat) (e : EndAction) : handOn n e w = handOver k false none w := by
  simp [handOn, h, Option.filter, hq, carried, now]

theorem handOn_soon (h : w.pendingList.head? = some k) (hq : w.program k = some q) (carried : q.carried = false)
    (soon : q.windowStart = w.clock.time + 60 ∨ q.windowStart = w.clock.time + 120) (n : Nat) (e : EndAction) :
    handOn n e w = makeCueing k false none w := by
  rcases soon with at_ | at_ <;> simp [handOn, h, Option.filter, hq, carried, at_]

theorem handOn_deferred (pending : w.pendingList = []) (free : w.deckFree = true) (last : DeferredLast w)
    (head : w.deferredByPick.head? = some k) (hq : w.program k = some q) (n : Nat) (e : EndAction) :
    handOn n e w = handOver k true q.deferral w := by
  simp [handOn, pending, free, last.expire, head, hq]

/-! ### The minute at which the window ends -/

/-- The deck as the window of the active program, which records, ends. -/
structure EndingDeck (n : Nat) (a : Active) (p : Program) (s : State) : Prop where
  ends    : WindowEnds n a (p.secondOn s) (newSecond s)
  settled : SettledIn .record s
  ready   : Ready s

/-- The state in which the deck is handed on. -/
structure HandingOn (n : Nat) (p : Program) (s w : State) : Prop where
  gone    : Vacated n p (newSecond s) w
  settled : SettledIn .record w
  ready   : Ready w
  time    : w.clock.time = s.clock.time + 1

namespace EndingDeck

theorem handing (h : EndingDeck n a p s) :
    HandingOn n ((p.secondOn s).ended a) s (putProgram n ((p.secondOn s).ended a) (dropActive (newSecond s))) := by
  have gone := vacated h.ends.program ((p.secondOn s).ended a)
  have kept := (newSecond_keeps s).trans (gone.keeps.mono (by simp))
  exact ⟨gone, h.settled.of kept.transport, h.ready.kept kept, gone.keeps.time.trans (newSecond_time s)⟩

/-- A program that starts now, or is picked, takes the deck over in RECORD (R173). -/
theorem hands_over (due : MinuteDue s) (h : EndingDeck n a p s) (pair : Pair n (some (p.secondOn s)) k (some q) (newSecond s))
    {late : Bool} {latest : Option DeferralCause} (chosen : ∀ w, HandingOn n ((p.secondOn s).ended a) s w →
      handOn n (p.secondOn s).endAction w = handOver k late latest w) :
    ∃ t, exec .secondBoundary s = .next t ∧ t.program n = some ((p.secondOn s).ended a) ∧
      t.program k = some { q.cued with state := .recording } ∧ ClaimedFor k t ∧ Pausing t ∧ t.sched.endAction = none ∧
      t.tuner.selection = .preset q.preset ∧ ∃ b, t.sched.active = some b ∧ b.slot = k ∧
        (b.phase = .changing ∧ b.reason = some .handOver) ∧ b.late = late ∧ b.latest = latest := by
  have handing := h.handing
  obtain ⟨w, hw⟩ : ∃ w, w = putProgram n ((p.secondOn s).ended a) (dropActive (newSecond s)) := ⟨_, rfl⟩
  rw [← hw] at handing
  have hq : w.program k = some q := (handing.gone.others k pair.apart.symm).trans pair.second
  obtain ⟨x, made, changed⟩ := handOver_changes handing.ready handing.settled hq late latest
  obtain ⟨f, active⟩ := changed.active
  have programs : ∀ m, m ≠ k → (handOver k late latest w).program m = w.program m := fun m hm =>
    (changed.others m hm).trans (made.others m hm)
  have second : (handOver k late latest w).program k = some { q.cued with state := .recording } := changed.program
  obtain ⟨first, event⟩ := h.ends.minute_hands (u := handOver k late latest w) pair (hw ▸ chosen w handing) active rfl second
    (hw ▸ programs) (.inr rfl) fun ahead => by cases ahead.1
  have kept : KeepsBut seizedParts (newSecond s) (handOver k late latest w) :=
    (handing.gone.keeps.mono (by simp [seizedParts, broughtParts, stillParts])).trans
      ((made.keeps.mono (by simp [seizedParts, broughtParts, stillParts])).trans
        (changed.keeps.mono (by simp [seizedParts, broughtParts, stillParts])))
  obtain ⟨t, ran, -, ended⟩ := minute_served h.ready.steady due event kept
  refine ⟨t, ran, (ended.keeps.program n).trans first, (ended.keeps.program k).trans changed.program,
    (made.claims.kept changed.keeps).kept ended.keeps, changed.pause.pausing.of ended.keeps.transport, ?_, ?_, ?_⟩
  · rw [ended.keeps.sched, changed.endAction, made.endAction]
  · rw [ended.keeps.tuner]
    exact changed.selection
  · exact ⟨_, by rw [ended.keeps.sched]; exact active, rfl, ⟨rfl, rfl⟩, rfl, rfl⟩

/-- A program that starts within 120 s is cued up (R173). -/
theorem hands_on_ahead (due : MinuteDue s) (h : EndingDeck n a p s) (pair : Pair n (some (p.secondOn s)) k (some q) (newSecond s))
    (later : q.windowStart ≠ s.clock.time + 1) (chosen : ∀ w, HandingOn n ((p.secondOn s).ended a) s w →
      handOn n (p.secondOn s).endAction w = makeCueing k false none w) :
    ∃ t, exec .secondBoundary s = .next t ∧ t.program n = some ((p.secondOn s).ended a) ∧ t.program k = some q.cued ∧
      ClaimedFor k t ∧ Pausing t ∧ t.sched.endAction = none ∧ t.tuner.selection = .preset q.preset ∧
      ∃ b, t.sched.active = some b ∧ b.slot = k ∧ b.ahead := by
  have handing := h.handing
  obtain ⟨w, hw⟩ : ∃ w, w = putProgram n ((p.secondOn s).ended a) (dropActive (newSecond s)) := ⟨_, rfl⟩
  rw [← hw] at handing
  have hq : w.program k = some q := (handing.gone.others k pair.apart.symm).trans pair.second
  have seized := makeCueing_seizes handing.ready.steady hq handing.ready.takeable handing.ready.recordable handing.ready.path false none
  obtain ⟨first, event⟩ := h.ends.minute_hands (u := makeCueing k false none w) pair (hw ▸ chosen w handing) seized.active rfl
    seized.program (hw ▸ seized.others) (.inl rfl) fun _ => by
      rw [seized.keeps.time (by decide), handing.time]
      exact later
  have kept : KeepsBut seizedParts (newSecond s) (makeCueing k false none w) :=
    (handing.gone.keeps.mono (by simp [seizedParts, broughtParts, stillParts])).trans seized.keeps
  obtain ⟨t, ran, -, ended⟩ := minute_served h.ready.steady due event kept
  exact ⟨t, ran, (ended.keeps.program n).trans first, (ended.keeps.program k).trans seized.program, seized.claims.kept ended.keeps,
    seized.pause.pausing.of ended.keeps.transport, by rw [ended.keeps.sched]; exact seized.endAction,
    by rw [ended.keeps.tuner]; exact seized.selection, _, by rw [ended.keeps.sched]; exact seized.active, rfl, rfl, rfl, rfl⟩

end EndingDeck

end Sys2Proof.Machine
end

section
/-! The release of a PROTECT claim in STOP (R162, R174, R187): the mechanism to a program that waits for it, or the deck to one deferred. -/

namespace Sys2Proof.Machine

variable {s t u v w e : State} {n k m : Nat} {p q r : Program} {a b : Active}

/-- STOP has been reached, and the PROTECT claim is free; what remains is the scheduler's. -/
structure Released (s g : State) : Prop where
  settled  : SettledIn .stop g
  ok       : Recordable g
  mech     : g.mech = .free
  sequence : g.transport.resetInFlight = false
  keeps    : KeepsBut (.pins :: .mech :: stillParts) s g

/-- The deck comes to rest under a PROTECT claim with no end action and nothing to navigate. -/
theorem comeToRest_releases (idle : NoNavigation s) (protect : s.mech.isProtect = true) (endAction : s.sched.endAction = none)
    (abortStop : s.sched.abortStop = none) : comeToRest s = protectReleased (setMech .free s) := by
  have still : releaseIfStill s = s := by
    have other : s.mech ≠ .operator .direct := fun h => by rw [h] at protect; cases protect
    simp [releaseIfStill, other]
  have rest : timerAtRest s = s := by simp [timerAtRest, endAction, abortStop]
  rw [comeToRest, gotoAtMode_idle idle, still, finishRun_idle idle, rest, releaseProtect, if_pos protect]

/-- UNTHREADING confirmed toward STOP under a PROTECT claim releases it there (R10, R187). -/
theorem unthreaded_releases (hy : Steady s) (idle : NoNavigation s) (protect : s.mech.isProtect = true)
    (change : s.transport.change = some (.mech .unthreading)) (target : s.transport.target = some .stop)
    (plain : s.transport.unthreadEnd = .plain) (due : s.transport.rewindDue = false) (recovering : s.transport.recovering = false)
    (ok : Recordable s) (endAction : s.sched.endAction = none) (abortStop : s.sched.abortStop = none) :
    ∃ b g, Released s g ∧ b.transport = s.transport ∧ exec .unthreadingComplete s = .next (endDeckEvent b (protectReleased g)) := by
  obtain ⟨x, hx⟩ : ∃ x, x = s.withPins { s.pins with position := .loaded } := ⟨_, rfl⟩
  obtain ⟨f, hf⟩ : ∃ f, f = forgetRewind (enterMode .stop none x) := ⟨_, rfl⟩
  have kx : KeepsBut [.pins] s x := hx ▸ withPins_keeps ..
  have kf : KeepsBut (.pins :: stillParts) s f :=
    hf ▸ (kx.mono (by simp)).trans ((enterMode_still (m := .stop) rfl none x).mono (by simp +contextual) |>.trans
      ((forgetRewind_keeps _).mono (by simp [stillParts])))
  have transport : x.transport = s.transport := kx.transport
  have entered : (enterMode .stop none x).transport = s.transport.reached .stop none s.now := by
    rw [enterMode_transport, transport, (kx.same .time (by decide)).1]
  have record : f.transport = { s.transport.reached .stop none s.now with rewindDue := false } := by
    rw [hf, ← entered]
    rfl
  have reached : (s.transport.reached .stop none s.now).target = none := by simp [Transport.reached, target]
  have idleF : NoNavigation f :=
    ⟨by rw [kf.goto (by decide)]; exact idle.goto, by rw [kf.run (by decide)]; exact idle.run⟩
  have sched : f.sched = s.sched := kf.sched (by decide)
  have rests : atStop (enterMode .stop none x) = comeToRest f := by
    have noRewind : (enterMode .stop none x).rewinds = false := by simp [State.rewinds, entered, Transport.reached, due]
    have noTarget : (enterMode .stop none x).transport.target.isSome = false := by rw [entered, reached]; rfl
    rw [atStop_eq, noRewind, noTarget, hf]
    rfl
  have stops : enterUnthreaded x = protectReleased (setMech .free f) := by
    have stop : enterStop x = atStop (enterMode .stop none x) :=
      enterStop_of_stop (by rw [transport]; exact target) (by rw [transport]; exact recovering)
    have ended : x.transport.unthreadEnd = .plain := by rw [transport]; exact plain
    simp only [enterUnthreaded, ended]
    rw [stop, rests, comeToRest_releases idleF (by rw [kf.mech (by decide)]; exact protect) (by rw [sched]; exact endAction)
      (by rw [sched]; exact abortStop)]
  refine ⟨x, setMech .free f, ⟨⟨?_, ?_, ?_⟩, ⟨?_, ?_⟩, rfl, ?_, ?_⟩, transport, ?_⟩
  · rw [setMech_transport, record]; rfl
  · rw [setMech_transport, record]; rfl
  · rw [setMech_transport, record]; exact reached
  · rw [setMech_transport, record]; exact ok.tab
  · rw [setMech_transport, record]; exact ok.dew
  · rw [setMech_transport, record]; simp [Transport.reached]
  · exact (kf.mono (by simp +contextual)).trans ((setMech_keeps ..).mono (by simp))
  · rw [← stops, hx, ← stepReport_acts hy.running change { s.pins with position := .loaded } enterUnthreaded]
    rfl

theorem protectReleased_free (tail : s.sched.rewindTail = false) (ha : s.sched.active = none) : protectReleased s = applyRules s := by
  simp [protectReleased, tail, ha]

theorem protectReleased_granted (tail : s.sched.rewindTail = false) (ha : s.sched.active = some a) (waits : a.mechWait = true) :
    protectReleased s = bringUp false (askMech a.slot s) := by
  simp [protectReleased, tail, ha, waits]

/-- A program has the deck in STOP, and brings it up. -/
structure DeckTaken (n : Nat) (p : Program) (b : Active) (t : State) : Prop where
  program : t.program n = some p
  claims  : ClaimedFor n t
  mode    : t.transport.mode = .threading
  pausing : Pausing t
  active  : t.sched.active = some b

theorem DeckTaken.ended (h : DeckTaken n p b u) (ended : EndedFrom u t) : DeckTaken n p b t :=
  ⟨(ended.keeps.program n).trans h.program, h.claims.kept ended.keeps, by rw [ended.keeps.transport]; exact h.mode,
    h.pausing.of ended.keeps.transport, by rw [ended.keeps.sched]; exact h.active⟩

theorem Released.steady {g : State} (h : Released s g) (hy : Steady s) : Steady g := by
  have power : g.power = s.power := h.keeps.power (by decide)
  exact ⟨by rw [power]; exact hy.operating, by rw [power]; exact hy.transition, h.sequence⟩

/-- The release leaves the deck to the first of those deferred, as a late start (R174). -/
theorem Released.picks {g : State} (h : Released s g) (hy : Steady s) (pair : Pair n (some p) 0 none s) (idle : s.sched.active = none)
    (tail : s.sched.rewindTail = false) (tuner : s.tunerOf = .free ∨ s.tunerOf = .direct) (deferred : p.state = .deferred)
    (last : s.clock.time + 60 ≤ (p.next + p.duration) * 60) :
    DeckTaken n p.cued (Active.fresh n .preparing true false p.deferral).started (protectReleased g) ∧
      (protectReleased g).power = s.power := by
  have sched : g.sched = s.sched := h.keeps.sched (by decide)
  have tunerG : g.tunerOf = s.tunerOf := h.keeps.tunerOf (by decide)
  have ready : Ready g := ⟨h.steady hy, ⟨.inl h.mech, by rw [tunerG]; rcases tuner with e | e <;> rw [e] <;> decide⟩, h.ok, .inl h.settled⟩
  have pairG := pair.of sched
  have lasts : DeferredLast g :=
    pairG.deferredLast (fun r hr _ => by cases hr; rw [h.keeps.time (by decide)]; exact last) (by simp)
  obtain ⟨w, seized, rules⟩ := applyRules_starts_late ready pairG (by rw [sched]; exact idle) (by rw [h.mech]; rfl) deferred (by simp) lasts
    (by simp)
  have started := withSched_sched_keeps { w.sched with active := some (Active.fresh n .preparing true false p.deferral).started } w
  rw [protectReleased_free (by rw [sched]; exact tail) (by rw [sched]; exact idle), rules]
  refine ⟨⟨seized.program, seized.claims.kept started, ?_, seized.pause.pausing.of started.transport, rfl⟩, ?_⟩
  · exact seized.threads h.settled.mode (mechInFlight_of_none h.settled.change)
  · exact (seized.keeps.power (by decide)).trans (h.keeps.power (by decide))

/-- The release gives the mechanism to the program that waits for it (R162). -/
theorem Released.grants {g : State} (h : Released s g) (hy : Steady s) (hp : s.program n = some p) (ha : s.sched.active = some a)
    (slot : a.slot = n) (waits : a.mechWait = true) (tail : s.sched.rewindTail = false) (tuner : s.tunerOf = .timer (.program n)) :
    DeckTaken n p { a with mechWait := false } (protectReleased g) ∧ (protectReleased g).power = s.power := by
  subst slot
  have sched : g.sched = s.sched := h.keeps.sched (by decide)
  have active : g.sched.active = some a := by rw [sched]; exact ha
  obtain ⟨c, hc⟩ : ∃ c : State, c = { g with sched.active := some { a with mechWait := false } } := ⟨_, rfl⟩
  obtain ⟨w, hw⟩ : ∃ w, w = setMech (.timer (.program a.slot)) c := ⟨_, rfl⟩
  have kc : KeepsBut [.sched] g c := hc ▸ withSched_sched_keeps ..
  have kw : KeepsBut [.mech, .sched] g w := (kc.mono (by simp)).trans ((hw ▸ setMech_keeps .. : KeepsBut [.mech] c w).mono (by simp))
  have taken : askMech a.slot g = w := by
    rw [askMech_takes (.inl h.mech) h.sequence, active, Option.map_some, hw, hc]
  have activeW : w.sched.active = some { a with mechWait := false } := by rw [hw, setMech_sched, hc]
  have program : w.program a.slot = some p := by
    rw [hw, program_of_sched (setMech_sched ..), hc]
    exact (program_of_sched sched _).trans hp
  have brought := bringUp_brings ((h.steady hy).kept kw) activeW program (by rw [hw]; rfl) (h.ok.of kw.transport)
    (.inl (h.settled.of kw.transport)) false
  have settledW : SettledIn .stop w := h.settled.of kw.transport
  rw [protectReleased_granted (by rw [sched]; exact tail) active waits, taken]
  refine ⟨⟨(brought.keeps.program _ (by decide)).trans program, ⟨?_, ?_⟩, ?_, brought.pause.pausing, ?_⟩, ?_⟩
  · rw [brought.keeps.mech (by decide), hw]
    rfl
  · rw [brought.keeps.tunerOf (by decide), kw.tunerOf, h.keeps.tunerOf (by decide), tuner]
  · exact brought.threads settledW.mode (mechInFlight_of_none settledW.change)
  · rw [brought.keeps.sched (by decide)]
    exact activeW
  · exact (brought.keeps.power (by decide)).trans (kw.power.trans (h.keeps.power (by decide)))

end Sys2Proof.Machine
end

section
/-! O51: the life of the active program, from the clauses. -/

namespace Sys2Proof.Machine

variable {s t u v w e : State} {n k m : Nat} {p q r : Program} {a b : Active} {x y : Option Program}

/-- REC_PAUSE reached gives RECORD by one of the choices of R165 and R167. -/
theorem recPause_chooses (hy : Steady s) (idle : NoNavigation s) (change : s.transport.change = some (.servo .recPause))
    (target : s.transport.target = some .recPause) (ok : Recordable s) (ha : s.sched.active = some a) (hp : s.program a.slot = some p)
    (begins : a.phase = .starting ∨ a.phase = .changing ∧ (a.reason = some .takeover ∨ a.reason = some .handOver))
    {flag : Bool} (speed : Speed) (pending short : Bool) (shows : (p.run.shortTape || short) = flag)
    (choice : ∀ e : State, e.estimate = s.estimate → e.clock.time = s.clock.time →
      e.chooseSpeed p = { speed := speed, short := short, pending := pending }) :
    ∃ t, exec (.servoLock ⟨false, false⟩) s = .next t ∧ t.transport.mode = .recPause ∧ t.transport.target = some .record ∧
      t.transport.change = some (.servo .record) ∧ t.mech = s.mech ∧ t.transport.recordOrder = .timer speed p.mark ∧
      t.program a.slot = some { p with state := .recording, run := { p.run with shortTape := flag } } ∧
      (∃ b, t.sched.active = some b ∧ b.slot = a.slot ∧ b.phase = .running ∧ b.choicePending = pending ∧ b.lastFit = none) ∧
      (p.state = .cueing → Announced (.prog a.slot) (programBytes a.slot (t.program a.slot)) t) := by
  obtain ⟨t, ran, asked, program, active, told⟩ := recPause_begins hy idle change target ok ha hp begins choice
  refine ⟨t, ran, asked.mode, asked.target, asked.change, asked.mech, asked.order, ?_, ⟨_, active, rfl, rfl, rfl, rfl⟩,
    fun cueing => told (by rw [cueing]; decide)⟩
  rw [program, shows]

theorem fitFrom_congr (estimate : t.estimate = s.estimate) (least : Speed) (d : Nat) : t.fitFrom least d = s.fitFrom least d := by
  have same : t.fits d = s.fits d := funext (fits_congr estimate d)
  simp only [State.fitFrom, same]

/-- The choice of FIT in a state with the estimate and the time of another (R167). -/
theorem chooseSpeed_congr (fit : p.speedMode = .fit) (known : s.estimate ≠ none) (estimate : e.estimate = s.estimate)
    (time : e.clock.time = s.clock.time) {v : Speed} {short : Bool} (chosen : s.fitFrom .standard (p.needed s.clock.time) = (v, short)) :
    e.chooseSpeed p = { speed := v, short := short, pending := false } := by
  rw [chooseSpeed_fit fit (by rw [estimate]; exact known), time, fitFrom_congr estimate, chosen]

/-- What a protection has left, as the statement has it. -/
theorem StoppedWithout.parts {c : StopCause} (h : StoppedWithout c n q t) :
    ProtectionStopped c t.now t ∧ t.program n = some q ∧ t.sched.active = none ∧ t.tunerOf = .free :=
  ⟨h.stopped, h.program, h.active, h.tunerOf⟩

/-- A recording in RECORD whose second begins no minute (R166). -/
theorem second_counted (hy : Steady s) (ha : s.sched.active = some a) (hp : s.program a.slot = some p) (recording : p.state = .recording)
    (settled : SettledIn .record s) (source : s.clock.source = .crystal) (phase : s.clock.sinceBoundary ≤ 12288000)
    (inside : s.clock.time + 1 < 3155760000) (within : (s.clock.time + 1) % 60 ≠ 0) (recorded : p.run.recorded < 36000)
    (loss : p.run.signalLoss < 36000) :
    ∃ t, exec .secondBoundary s = .next t ∧ t.program a.slot = some { p with run := { p.run with
      recorded := p.run.recorded + 1, signalLoss := p.run.signalLoss + (if s.tuner.state = .noSignal then 1 else 0) } } ∧
      t.sched.active = some a ∧ t.mech = s.mech ∧ t.transport.mode = .record := by
  obtain ⟨t, ran, ended⟩ := second_served hy source phase inside within
  refine ⟨t, ran, ?_, by rw [ended.keeps.sched, newSecond_active, ha], ended.keeps.mech.trans (newSecond_mech s), ?_⟩
  · have lost : (if s.tuner.state = .noSignal then 1 else 0) ≤ 1 := by split <;> omega
    rw [ended.keeps.program _, newSecond_program ha hp, Program.secondOn, if_pos ⟨recording, settled.mode⟩,
      min_eq_right (by omega), min_eq_right (by omega)]
  · rw [ended.keeps.transport, newSecond_transport]
    exact settled.mode

/-- The window of the only program ends in RECORD: its end action begins (R176, R177). -/
theorem windowEnd_served (hy : Steady s) (due : MinuteDue s) (ends : WindowEnds n a (p.secondOn s) (newSecond s))
    (settled : SettledIn .record s) (pair : Pair n (some (p.secondOn s)) 0 none (newSecond s)) :
    ∃ t, exec .secondBoundary s = .next t ∧ t.program n = some ((p.secondOn s).ended a) ∧ t.sched.active = none ∧
      t.sched.endAction = some (n, p.endAction) ∧ t.mech = .timer (.endAction n) ∧ t.tunerOf = .timer (.endAction n) ∧
      (p.endAction = .rewind → t.transport.target = some .windRev ∧ t.transport.change = some (.servo .windRev)) ∧
      (p.endAction ≠ .rewind → t.transport.target = some (if p.endAction = .eject then .empty else .stop) ∧
        t.transport.mode = .unthreading ∧ t.transport.change = some (.mech .unthreading)) := by
  obtain ⟨w, gone, ending⟩ := ends.minute_ends pair (settled.of (newSecond_transport s))
  have action : (p.secondOn s).endAction = p.endAction := by
    obtain ⟨run, fields⟩ := secondOn_fields p s
    rw [fields]
  rw [action] at ending
  have mode : w.transport.mode = .record := by rw [gone.keeps.transport, newSecond_transport]; exact settled.mode
  obtain ⟨target, change, moved⟩ := ending.given
  have kept : KeepsBut (.sched :: .mech :: .tunerOf :: stillParts) (newSecond s) (minuteEvent (newSecond s)) :=
    (gone.keeps.mono (by simp [stillParts])).trans ending.keeps
  obtain ⟨t, ran, -, ended⟩ := minute_served hy due rfl kept
  have deck := ended.keeps.transport
  refine ⟨t, ran, (ended.keeps.program n).trans ((ending.programs n).trans gone.program), ?_, ?_, ended.keeps.mech.trans ending.mech,
    ended.keeps.tunerOf.trans ending.tunerOf, fun rewind => ?_, fun other => ?_⟩
  · rw [ended.keeps.sched, ending.active]
    exact gone.active
  · rw [ended.keeps.sched, ending.endAction]
  · rw [deck, target, change, mode, rewind]
    exact ⟨rfl, rfl⟩
  · rw [deck, target, change, moved, mode]
    cases kind : p.endAction with
    | rewind => exact absurd kind other
    | stop | eject | standby => exact ⟨rfl, rfl, rfl⟩

namespace HandingOn

theorem pair (h : HandingOn n (p.ended a) s w) (pair : Pair n x k y (newSecond s)) : Pair n (some (p.ended a)) k y w := h.gone.pair pair

theorem second (h : HandingOn n (p.ended a) s w) (pair : Pair n x k (some q) (newSecond s)) : w.program k = some q := (h.pair pair).second

theorem pending (h : HandingOn n (p.ended a) s w) (pair : Pair n x k (some q) (newSecond s)) (armed : q.state = .armed) :
    w.pendingList.head? = some k := by
  rw [(h.pair pair).symm.pendingList_first (by simpa using armed) (by simp [Program.ended])]
  rfl

/-- With none that starts soon, the first of those deferred takes the deck as a late start. -/
theorem chooses_deferred (h : HandingOn n (p.ended a) s w) (pair : Pair n x k (some q) (newSecond s)) (claims : ClaimedFor n (newSecond s))
    (deferred : q.state = .deferred) (last : s.clock.time + 1 + 60 ≤ (q.next + q.duration) * 60) (m : Nat) (e : EndAction) :
    handOn m e w = handOver k true q.deferral w := by
  have pairW := h.pair pair
  have protect : w.mech.isProtect = false := by rw [h.gone.keeps.mech]; exact claims.unprotected
  refine handOn_deferred (pairW.pendingList_none (by simp [Program.ended]) (by simp [deferred])) ?_
    (pairW.deferredLast (fun r hr e => by cases hr; cases e) fun r hr _ => by cases hr; rw [h.time]; exact last)
    (pairW.symm.deferredByPick_head deferred fun r hr e => by cases hr; cases e) pairW.second m e
  simp [State.deckFree, h.gone.active, protect, h.ready.recordable.dew, h.ready.steady.sequence, h.ready.steady.operating]

end HandingOn

/-- Settles O51: each clause is what the scheduler makes of the one event. -/
theorem programRecords : Obligations.ProgramRecords := by
  intro s _ hy idle watches n hn p hp
  refine ⟨fun only claims a ha slot => ?active, fun claims a ha slot recording settled due ends once => ?window, ?release⟩
  case active =>
    subst slot
    have holds : Holds a.slot a p s := ⟨only.pair hn hp, claims, ha, rfl⟩
    refine ⟨fun change target tab dew _ => ?_, fun phase recording fit settled tab dew v class_ reel i estimate => ?_, ?_, ?_⟩
    · refine ⟨fun started => ?_, fun phase reason _ v speed => ?_⟩
      · have begins : a.phase = .starting ∨ a.phase = .changing ∧ (a.reason = some .takeover ∨ a.reason = some .handOver) :=
          started.imp (·.1) fun h => ⟨h.1, h.2.1⟩
        have chooses := fun flag => recPause_chooses (flag := flag) hy idle change target ⟨tab, dew⟩ ha hp begins
        refine ⟨fun mode => ?_, fun mode => ?_, fun mode => ?_, fun mode unknown => ?_, fun mode known short => ?_,
          fun mode v fits first => ?_⟩
        · exact chooses _ .standard false false (Bool.or_false _) fun e _ _ => by simp [State.chooseSpeed, mode]
        · exact chooses _ .long false false (Bool.or_false _) fun e _ _ => by simp [State.chooseSpeed, mode]
        · exact chooses _ .extended false false (Bool.or_false _) fun e _ _ => by simp [State.chooseSpeed, mode]
        · exact chooses _ .standard true false (Bool.or_false _) fun e estimate _ =>
            chooseSpeed_pending mode (estimate.trans unknown)
        · exact chooses _ .extended false true (Bool.or_true _) fun e estimate time =>
            chooseSpeed_congr mode known estimate time (fitFrom_short fun u _ => short u)
        · exact chooses _ v false false (Bool.or_false _) fun e estimate time =>
            chooseSpeed_congr mode (fits_estimate fits) estimate time
              (fitFrom_least (by cases v <;> decide) fits fun u _ below => first u below)
      · obtain ⟨t, ran, asked, same, active⟩ :=
          recPause_reenters hy idle change target ⟨tab, dew⟩ ha hp phase reason speed
        exact ⟨t, ran, asked.mode, asked.target, asked.change, asked.mech, asked.order, same, _, active, rfl, rfl⟩
    · obtain ⟨e, t, runs, sched, time, ran, ended, same⟩ :=
        reelPulse_fits hy idle watches estimate ⟨ha, hp, fit, phase, settled, ⟨tab, dew⟩, class_⟩
      refine ⟨t, ran, fun made => ?_, fun pending => ?_⟩
      · have keeps := runs.keeps_class ended same made
        rw [time, sched] at keeps
        exact keeps
      · have takes := runs.takes_class ended same pending
        rw [time] at takes
        exact takes
    · refine ⟨fun recording settled once => ?_, fun past => ⟨fun threaded dry => ?_, fun settled since lost now => ?_,
        fun settled dry cueing => ?_⟩, fun ahead cueing threaded dry => dewSeen_waits hy holds threaded dry cueing ahead⟩
      · obtain ⟨t, ran, left⟩ := leaderSeen_finishes hy holds settled recording once
        exact ⟨t, ran, left.parts⟩
      · obtain ⟨t, ran, left⟩ := dewSeen_defers hy holds threaded dry past
        exact ⟨t, ran, left.parts⟩
      · obtain ⟨t, ran, left⟩ := servoTimeout_defers hy idle holds settled lost now past
        exact ⟨t, ran, left.parts⟩
      · exact dewSeen_defersAtRest hy holds settled dry (past.resolve_left fun e => by rw [cueing] at e; cases e)
    · intro _ recording settled source phase inside within recorded loss
      exact second_counted hy ha hp recording settled source phase inside within recorded loss
  case window =>
    have window := windowEnds_newSecond hp ha slot recording ends once
    refine ⟨fun only => ?_, fun tab dew k hk apart only q hq carried length _ => ?_⟩
    · exact secondOn_ended p a s ▸ windowEnd_served hy due window settled ((only.pair hn hp).newSecond ha slot)
    · have deck : EndingDeck n a p s := ⟨window, settled, hy, claims.takeable, ⟨tab, dew⟩, .inr (.inl settled)⟩
      have pair : Pair n (some (p.secondOn s)) k (some q) (newSecond s) :=
        (hp ▸ hq ▸ only.pair_two hn hk (Ne.symm apart) : Pair n (some p) k (some q) s).newSecond ha slot
      rw [← secondOn_ended p a s]
      refine ⟨fun armed now => ?_, fun armed soon => ?_, fun deferred begun last => ?_⟩
      · obtain ⟨t, ran, first, second, claimed, pausing, ending, selection, b, active, here, handed, -⟩ :=
          deck.hands_over due pair (late := false) (latest := none) fun w handing =>
            handOn_now (handing.pending pair armed) (handing.second pair) carried (now.trans handing.time.symm) _ _
        exact ⟨t, ran, first, second, claimed, pausing, ending, selection, b, active, here, handed⟩
      · exact deck.hands_on_ahead due pair (by simp only [Program.windowStart]; omega) fun w handing =>
          handOn_soon (handing.pending pair armed) (handing.second pair) carried (by rw [handing.time]; exact soon) _ _
      · obtain ⟨t, ran, first, second, claimed, pausing, ending, selection, b, active, here, handed, late, latest⟩ :=
          deck.hands_over due pair (late := true) (latest := q.deferral) fun w handing =>
            handing.chooses_deferred pair (claims.kept (newSecond_keeps s)) deferred last _ _
        exact ⟨t, ran, first, second, claimed, pausing, ending, selection, b, active, here, handed, late, latest⟩
  case release =>
    rintro only ⟨c, protect⟩ _ change target plain due recovering tab dew _
    obtain ⟨b, g, released, same, ran⟩ := unthreaded_releases hy idle (by rw [protect]; rfl) change target plain due recovering ⟨tab, dew⟩
      only.endAction only.abortStop
    have served : (protectReleased g).power = s.power → EndedFrom (protectReleased g) (endDeckEvent b (protectReleased g)) := fun power =>
      endedFrom_event (.inl (by rw [same]; exact hy.sequence)) (hy.notStopping.of power)
    refine ⟨fun unmanned tuner deferred _ _ last => ?_, fun a ha slot waits cueing kept tuner => ?_⟩
    · obtain ⟨taken, power⟩ := released.picks hy (only.pair hn hp) unmanned only.tail tuner deferred last
      obtain ⟨first, claims, mode, pausing, active⟩ := taken.ended (served power)
      exact ⟨_, ran, first, claims, mode, pausing, _, active, rfl, rfl, rfl, rfl⟩
    · obtain ⟨taken, power⟩ := released.grants hy hp ha slot waits only.tail tuner
      obtain ⟨first, claims, mode, pausing, active⟩ := taken.ended (served power)
      have cued : ({ p with state := .cueing, deferral := none } : Program) = p := by rw [← cueing, ← kept]
      exact ⟨_, ran, first.trans (congrArg some cued.symm), claims, mode, pausing, _, active, rfl⟩

end Sys2Proof.Machine
end
